-- ==== Sys2Proof/Word.lean ====
section
/-! DEFINITION. The word types of the KZ9600: a byte, a 32-bit register word, a 64-bit word, a 512-bit cell-store line. -/

namespace Sys2Proof

/-- Eight bits; the byte at the lowest address holds bits [7:0] (00 R7). -/
abbrev Byte := BitVec 8
/-- A BAR0 register word (00 R8). -/
abbrev Word := BitVec 32
/-- A 64-bit register, scalar register or address field. -/
abbrev DWord := BitVec 64
/-- One line of cell store, 64 bytes (02 Table 2.1). -/
abbrev Line := BitVec 512

end Sys2Proof
end

