-- ==== Sys2Proof/Syntax.lean ====
section
/-! DEFINITION. The commands of the block, one constructor of `Instr` for each row of spec/opcode_table.json, and the
types of their operands. What the surroundings decide (a measured value, a partner's answer, which parts fail) is an
operand of the command that needs it. -/

namespace Sys2Proof

/-- The two halves of the package (01 R13). -/
inductive Half where | A | B
deriving DecidableEq, Repr

/-- The masters of Table 9.6 (09 R302). -/
inductive Master where | cc | keeper | seqA | seqB | mgmt | host0 | host1 | debug
deriving DecidableEq, Repr

/-- One block page of BAR0, by block and logical instance (01 Tables 1.7, 1.8).
An OPORT instance is 8 o + p. -/
inductive Page where
  | keeper | ck | sec | gTherm | gPwr | gClk | gCal
  | mbx (i : Fin 48)
  | ctrlch (h : Half) | comb (h : Half) | fwall (h : Half) | seq (h : Half) | pcie (h : Half)
  | therm (h : Half) | pwr (h : Half) | clk (h : Half) | cal (h : Half)
  | noc (h : Half) (q : Fin 4) | hbmc (h : Half) (i : Fin 12) | ddrc (h : Half) (c : Fin 8)
  | hinge (h : Half) (b : Fin 16) | oe (h : Half) (o : Fin 8) | laser (h : Half) (o : Fin 8)
  | ucie (h : Half) (k : Fin 32) | oport (h : Half) (i : Fin 64) | cell (h : Half) (n : Fin 288)
deriving DecidableEq, Repr

/-- The two PCIe functions (09 R284): function 0 and the companion function. -/
inductive Fn where | f0 | companion
deriving DecidableEq, Repr

/-- The units of a cell that hold queued instructions (02 R66). -/
inductive CUnit where | me0 | me1 | vu | lsu
deriving DecidableEq, Repr

/-- What the hardware met while a tile instruction ran: nothing, or the error of 02 Table 2.15 that no bit of the
instruction decides. -/
inductive HwEvent where
  | none | csCE | csUE | meParity
  | loadUE      -- an uncorrectable error on a load (cause 0x0A)
  | fetchUE     -- an uncorrectable error on the instruction fetch (cause 0x0A)
deriving DecidableEq, Repr

/-- What a read through PCIe gave: the bytes, or a failure (09 R292). `unused` where nothing lies in host space. -/
inductive HostRead where
  | unused | data (bytes : List Byte) | failed
deriving DecidableEq, Repr

/-- An error met in a memory word when it is read (04 R135, R136). -/
inductive Upset where | none | corrected | uncorrectable | tag
deriving DecidableEq, Repr

/-- Who issues a line access (04 R126, R127). -/
inductive ReqSrc where | cell | dma | host | fabric | device
deriving DecidableEq, Repr

/-- One access of at most a 128-byte line (04 R113). `part` is the partition whose windows are checked; `none` where no
window check covers the access (04 R111). -/
structure LineReq where
  half  : Half
  src   : ReqSrc
  part  : Option (Fin 8)
  write : Bool
  addr  : BitVec 52
  len   : Nat
  data  : List Byte
  hint  : BitVec 2
  upset : Upset
deriving DecidableEq, Repr

/-- A memory that patrol scrub visits (04 Table 4.10). -/
inductive ScrubTarget where
  | hbm (h : Half) (i : Fin 12) | ddr (h : Half) (c : Fin 8) | comb (h : Half)
deriving DecidableEq, Repr

/-- The memory of a half whose row hard PPR repairs (04 R137). -/
inductive PprTarget where
  | hbm (i : Fin 12) | ddr (c : Fin 8)
deriving DecidableEq, Repr

/-- Why a slice retires (04 R137). -/
inductive RetireCause where | pprExhausted | correctedErrors
deriving DecidableEq, Repr

/-- The result of training one HBM channel group: worst eyes in 1/256 UI, of both attempts at 9.6 Gb/s, and the
6.4 Gb/s check (04 R123). -/
structure GroupEyes where
  first : Nat
  retry : Nat
  slow  : Nat
deriving DecidableEq, Repr

/-- Virtual channels of the mesh (05 R146). -/
inductive MeshVC where | req | rsp | coh | svc
deriving DecidableEq, Repr

/-- What a flit suffered (05 R149). -/
inductive FlitErr where | none | corrected | dataBad | headerBad
deriving DecidableEq, Repr

/-- The ports of a router (05 Table 5.1): four towards neighbours (outward, inward, lower and higher Y), then the compute die, the HBM
channels, the comb cache bank and the edge block. -/
inductive RPort where | o | i | l | h | v | m | c | e
deriving DecidableEq, Repr

/-- When a packet got its stamp: it is injected now, it was injected at an epoch, or it has crossed the hinge with an age (05 R150). -/
inductive MeshAge where
  | now | since (stamp : BitVec 6) | crossed (age : BitVec 6)
deriving DecidableEq, Repr

/-- What a packet carries: data for a reader (a cell, or another agent), data to write at a line, or neither (05 R149). -/
inductive MeshLoad where
  | readData (reader : Option (Fin 288)) | writeData (addr : BitVec 52) | none
deriving DecidableEq, Repr

/-- What a packet meets at one arbiter (05 R150, R151): its own slot where the arbiter's contenders are endpoint queues or feeding
routers, the other contenders by slot and stamp, the cycles it waits while the output can accept, and the buffers of its channel that
are taken where it goes next. -/
structure ArbObs where
  slot   : Fin 16
  others : List (Fin 16 × BitVec 6)
  wait   : Nat
  taken  : Nat
deriving DecidableEq, Repr

/-- One network packet: from a port of a router to a port of a router of the half, routers by quadrant and number (05 R146, R147). -/
structure MeshPkt where
  half   : Half
  vc     : MeshVC
  srcQ   : Fin 4
  srcR   : Fin 16
  srcP   : RPort
  dstQ   : Fin 4
  dstR   : Fin 16
  dstP   : RPort
  age    : MeshAge
  /-- the arbiters of the route in order; one that is not listed has no other contender -/
  arbs   : List ArbObs
  err    : FlitErr
  load   : MeshLoad
deriving DecidableEq, Repr

/-- A link between two dies: one half's end of a hinge bundle, or a UCIe module (05 R171). -/
inductive DieLink where
  | hinge (h : Half) (b : Fin 16) | ucie (h : Half) (k : Fin 32)
deriving DecidableEq, Repr

/-- A link of a half, by its number (05 R152, R161). -/
inductive LinkNo where
  | bundle (b : Fin 16) | module (k : Fin 32)
deriving DecidableEq, Repr

/-- A link and the lanes that the test of its reset finds bad (05 R158). -/
structure LinkTest where
  link : DieLink
  bad  : List (Fin 68)
deriving DecidableEq, Repr

/-- Why a bundle or a module is declared BROKEN (05 R156, R164). -/
inductive BreakCause where | credit | training | lanes
deriving DecidableEq, Repr

/-- What the messages of a hinge flit belong to: memory traffic or coherence of a line, interrupts and control-channel traffic, a fabric
flow by source port and destination FID (05 R154, R155). -/
inductive HingeFlow where
  | mem (line : BitVec 52) | coh (line : BitVec 52) | ctl | fab (port : Fin 128) (fid : BitVec 16)
deriving DecidableEq, Repr

/-- A flit received over a link between dies: the 256 bytes as they were sent, whether its acknowledgement is a negative one, what its messages
belong to, and the bits that changed on the way (05 R152, R153). -/
structure HingeFlit where
  bytes : List Byte
  nak   : Bool
  flow  : HingeFlow
  flips : List Nat
deriving DecidableEq, Repr

/-- A request of an OE die over its modules (05 R166). -/
structure OeReq where
  write     : Bool
  addr      : BitVec 52
  forbidden : Bool      -- a message type the attach protocol forbids
  malformed : Bool
deriving DecidableEq, Repr

/-- A firewall window (05 Table 5.7), in 4 KiB units. -/
structure FwWin where
  base  : BitVec 40
  limit : BitVec 40
  valid : Bool
  wr    : Bool
  rd    : Bool
deriving DecidableEq, Repr

/-- A neighbouring pair of regions of one quadrant or of the hinge: with the comb die, the quadrant's compute die, a stack, an OE die, or the
other comb die (05 R168, NOC REGION_STS). -/
inductive RegionPair where | compute | hbm (i : Fin 12) | oe (o : Fin 8) | hinge
deriving DecidableEq, Repr

/-- A ring of an OE: a receive ring or a transmit modulator ring of one port (06 Table 6.1). -/
structure RingId where
  port : Fin 8
  tx   : Bool
  ring : Fin 36
deriving DecidableEq, Repr

/-- What a search or a relock of a port found (06 R184, R185): for each ring and channel the heater powers in microwatt of the
resonances its sweep labels. -/
structure SearchObs where
  peaks   : List (Nat × Nat × Nat)     -- ring, channel, heater power (µW)
  lit     : BitVec 18
deriving DecidableEq, Repr

/-- What one update of a ring's loop saw (06 R187, R190). -/
structure RingObs where
  monitor : Int          -- m[k], monitor code
  offset  : Int          -- estimated offset, 0.1 GHz
  peaks   : List Nat     -- heater powers (µW) at which a relock's sweep meets its channel's resonance
deriving DecidableEq, Repr

/-- A fabric request message (08 Table 8.1) with its data. -/
structure ReqMsg where
  opc   : BitVec 8
  dfid  : BitVec 16
  sfid  : BitVec 16
  tag   : BitVec 15
  once  : Bool
  epoch : BitVec 16
  len   : BitVec 8
  stag  : BitVec 16
  addr  : BitVec 52
  fn    : BitVec 4
  re    : Bool
  hops  : BitVec 4
  rsvd  : BitVec 35
  data  : List Byte
deriving DecidableEq, Repr

/-- A fabric response message (08 Table 8.2) with its data. -/
structure RspMsg where
  opc    : BitVec 8
  dfid   : BitVec 16
  sfid   : BitVec 16
  tag    : BitVec 15
  dup    : Bool
  epoch  : BitVec 16
  len    : BitVec 8
  status : BitVec 8
  retry  : Bool
  hops   : BitVec 4
  rsvd   : BitVec 35
  data   : List Byte
deriving DecidableEq, Repr

/-- A collective message (08 Table 8.14) with its data. -/
structure CollMsg where
  opc    : BitVec 8
  dfid   : BitVec 16
  sfid   : BitVec 16
  swarm  : BitVec 16
  cseq   : BitVec 32
  step   : BitVec 13
  offset : BitVec 40
  len    : BitVec 8
  hops   : BitVec 4
  op     : BitVec 2
  dtype  : BitVec 4
  rfn    : BitVec 2
  rsvd   : BitVec 31
  data   : List Byte
deriving DecidableEq, Repr

/-- A message of the transaction layer. -/
inductive FabMsg where
  | req (m : ReqMsg) | rsp (m : RspMsg) | coll (m : CollMsg)
deriving DecidableEq, Repr

/-- A waggle body (08 Table 8.5). -/
structure Waggle where
  kind    : BitVec 8
  cls     : BitVec 8
  fid     : BitVec 16
  uid     : BitVec 64
  session : BitVec 32
  vmin    : BitVec 8
  vmax    : BitVec 8
  caps    : BitVec 16
  ntag    : BitVec 8
  reason  : BitVec 8
  port    : BitVec 16
  tags    : List (BitVec 16)
deriving DecidableEq, Repr

/-- One of the 128 fabric ports by half and OPORT instance 8 o + p (00 R11). -/
structure PortId where
  half : Half
  i    : Fin 64
deriving DecidableEq, Repr

/-- What the training of one member of a link met (07 R219, R221): the channels whose lanes locked at the partner and here, and what its optical
retrain saw, where one was due. -/
structure MemberObs where
  lockedTx : BitVec 18
  lockedRx : BitVec 18
  search   : SearchObs
deriving DecidableEq, Repr

/-- What link training met: its members from the lowest up, the round trip, and whether every step met its bound. -/
structure TrainObs where
  members : List MemberObs
  rttNs   : Nat
  ok      : Bool
deriving DecidableEq, Repr

/-- The partner's TRN_PARAM (07 Table 7.6). -/
structure TrnParam where
  tx     : BitVec 18
  rx     : BitVec 18
  far    : Bool
  bond   : Bool
  enc    : Bool
  sleep  : Bool
  held   : Bool
  size   : BitVec 4
  member : BitVec 4
  token  : BitVec 32
  e      : BitVec 16
deriving DecidableEq, Repr

/-- A waiter whose time ran out (03 R94). -/
inductive Waiter where
  | desc (h : Half) (q : Fin 512) (slot : BitVec 16)
  | cell (h : Half) (c : Fin 288)
deriving DecidableEq, Repr

/-- Queue commands are sent by a master to local queue q of a half (03 R81). -/
structure QRef where
  half : Half
  q    : Fin 512
deriving DecidableEq, Repr

/-- The heartbeat views of one frame (10 R326): whether each channel sees each other channel. -/
structure HbViews where
  caSeesCb : Bool
  caSeesCk : Bool
  cbSeesCa : Bool
  cbSeesCk : Bool
  ckSeesCa : Bool
  ckSeesCb : Bool
  /-- the commands of the pair differ (used where CK is lost) -/
  pairDisagrees : Bool
  /-- the die of the failed channel still runs -/
  dieRuns : Bool
deriving DecidableEq, Repr

/-- The control channels (10 R316). -/
inductive Chan where | ca | cb | ck
deriving DecidableEq, Repr

/-- What happens to a channel's resynchronisation (10 Table 10.2). -/
structure ResyncObs where
  selfTest : Bool
  storeOk  : Bool
deriving DecidableEq, Repr

/-- A voted command (10 R318): the actuator, the sequence number and the 64-bit payload. -/
structure CmdCopy where
  chan  : Chan
  actuator : Fin 32
  seq   : BitVec 32
  payload : BitVec 64
deriving DecidableEq, Repr

/-- The bindings of the management endpoint (10 R331). -/
inductive Binding where | i3c | pcie (f : Fn)
deriving DecidableEq, Repr

/-- A transport of SPDM (13 R404): DOE on a function, or an MCTP binding. -/
inductive SpdmTransport where | doe (f : Fn) | mctp (b : Binding)
deriving DecidableEq, Repr

/-- Configuration of one partition (12 Table 12.3, 03 Table 3.12). Ranges are (first, count); windows are first and
last 2 MiB unit. -/
structure PartCfg where
  id      : Fin 8
  cellsA  : Nat × Nat
  cellsB  : Nat × Nat
  queuesA : Nat × Nat
  queuesB : Nat × Nat
  sems    : Nat × Nat
  windows : List (Nat × Nat)
  tag     : Option (BitVec 16)
  ports   : BitVec 128
  swarms  : Nat × Nat
deriving DecidableEq, Repr

/-- The items of a configuration part; `none` where the part does not set the item (12 Table 12.3). -/
structure CfgItems where
  fid      : Option (Option (BitVec 16)) := none
  subsys   : Option (BitVec 32) := none
  parts    : Option (List PartCfg) := none
  roles    : Option (List (BitVec 2)) := none            -- 16 hinge roles
  scratch  : Option (Nat × Nat) := none
  far      : Option (BitVec 128) := none
  pinned   : Option (BitVec 128) := none
  cap      : Option Nat := none
  ilv      : Option (List (BitVec 2) × List (BitVec 2)) := none   -- 72 rows of each half
  bonds    : Option (List (List Nat)) := none            -- groups of global ports
  bypass   : Option (List (Nat × Nat)) := none
  spill    : Option (List Nat) := none                   -- MiB of each global port
  ddrIlv   : Option (Bool × Bool) := none
  dimms    : Option (List (Half × Fin 8 × List Byte)) := none
deriving DecidableEq, Repr

/-- An image of the NOR (13 Table 13.3). `items` is what its body says where it is a configuration part. -/
structure Image where
  magic   : BitVec 32
  type    : BitVec 8
  key     : BitVec 8
  svn     : BitVec 8
  flags   : BitVec 8
  version : BitVec 32
  len     : BitVec 32
  bind    : BitVec 64
  rsvdOk  : Bool
  digest  : List Byte
  pubkey  : List Byte
  sig     : List Byte
  body    : List Byte
  baseVersion : BitVec 32 := 0
  items   : CfgItems := {}
deriving DecidableEq, Repr

/-- One journal record (11 Table 11.12) as read back: complete or torn. -/
structure JRec where
  type  : BitVec 8
  seqno : BitVec 64
  body  : List Byte
  whole : Bool
deriving DecidableEq, Repr

/-- One slot of a calibration record set (12 Table 12.6). -/
structure CalSlot where
  gen    : BitVec 32
  body   : List Byte
  valid  : Bool
deriving DecidableEq, Repr

/-- The regions of a NOR device that hold an image (13 Table 13.2). -/
inductive Region where
  | keeper | control | sequencer | base | overlay (i : Fin 16)
deriving DecidableEq, Repr

/-- One SPI NOR device (11 R337, 13 Table 13.2). `ok` is false where the keeper treats it as failed. -/
structure Nor where
  ok      : Bool
  images  : List (Region × Image)
  cert    : List Byte
  journal : List JRec
  slots   : List (Nat × CalSlot)        -- 2 * set + (0 slot A, 1 slot B)
deriving DecidableEq, Repr

/-- What the keeper's start meets (12 R364 to R366, 13 R402). -/
structure KeeperStart where
  nor     : Option (Nor × Nor)          -- the devices fitted to the board; none: as they were
  pufOk   : Bool
deriving DecidableEq, Repr

/-- What a UCIe module finds behind it at training, where it is another part than the default one (05 R165). -/
structure OePart where
  vendor  : BitVec 16
  device  : BitVec 16
  major   : BitVec 8
  minor   : BitVec 8
  cap     : BitVec 16
  rate    : BitVec 2        -- highest rate code
deriving DecidableEq, Repr

/-- What bring-up meets on one half (12 Table 12.2). Lists name what fails. -/
structure HalfObs where
  refclk     : Bool                     -- REFCLK present
  badRails   : List Nat                 -- rails that miss their time
  combOut    : Bool                     -- comb die out of reset, images accepted in time
  chanOk     : Bool                     -- its channel passes self-test
  diesBad    : List (Fin 4)             -- compute dies that do not leave reset
  bistFail   : List (Fin 288)
  stacksBad  : List (Fin 12)            -- stacks that fail their test port check
  badLanes   : List (Nat × Nat)         -- hinge bundle, failed lanes at the start test
  badModLanes : List (Nat × Nat)        -- UCIe module, failed lanes
  oeParts    : List (Nat × OePart)      -- UCIe module, where the part is another than the default one
  modBad     : List Nat                 -- modules whose training fails
  laserBad   : List (Nat × Nat)         -- OE, data laser that does not lock
  modCalBad  : List (Nat × Nat)         -- OPORT instance, modulator ring that misses -0.5 dBm (06 R186)
  xtalk      : List (Nat × Nat × Nat × Nat)   -- OE, ring, neighbour, their crosstalk coefficient in 1/1000 (06 R188)
deriving DecidableEq, Repr

/-- What a whole bring-up meets. -/
structure BringUpObs where
  a         : HalfObs
  b         : HalfObs
  ckOk      : Bool
  bundlesBad : List (Fin 16)            -- hinge bundles that do not train
deriving DecidableEq, Repr

/-- A sample of the on-die sensors of a half (11 R353): readings in 1/8 °C by sensor index, where they changed, and
the supplies of the regions in mV (05 R168): compute die q, comb, stack i, OE o, and the other half's comb. -/
structure SensorObs where
  half   : Half
  temps  : List (Nat × Int)
  vCd    : List Nat
  vComb  : Nat
  vHbm   : List Nat
  vOe    : List Nat
  vFar   : Nat
deriving DecidableEq, Repr

/-- A sample of the remote inputs (11 R354): input index (TD 0-7, TH 8-11), fault, temperature in 1/16 °C. -/
structure RemoteObs where
  input : Fin 12
  fault : Bool
  temp  : Int
deriving DecidableEq, Repr

/-- What one run of a calibration measured (12 R383): the reference present, a step timed out, the element chosen,
the quality figure. -/
structure CalObs where
  refOk   : Bool
  timeout : Bool
  elem    : BitVec 8
  quality : Int
  pauseUs : Nat
deriving DecidableEq, Repr

/-- A clock domain of a half (11 Table 11.6). -/
structure DomRef where
  half : Half
  k    : Fin 39
deriving DecidableEq, Repr

/-- A PLL that loses lock, with the cells that fail their test where a compute die resets (12 R378). -/
structure PllEvent where
  dom      : DomRef
  bistFail : List (Fin 288)
deriving DecidableEq, Repr

/-- A rail that faults (11 Table 11.16), with the cells that fail their test where a compute die resets. -/
structure RailEvent where
  rail     : Fin 10
  bistFail : List (Fin 288)
deriving DecidableEq, Repr

/-- What ends a wake to ACTIVE: whether it took longer than its bound, and the modulator rings that miss their calibration (06 R202). -/
structure WakeObs where
  late      : Bool
  modCalBad : List (Nat × Nat)
deriving DecidableEq, Repr

/-- What wakes a DIM OE: a flit queued for one of its ports, or the wake pattern at one (06 R204). -/
inductive DimWake where
  | flit (o : Fin 8) | pattern (o : Fin 8) (port : Fin 8)
deriving DecidableEq, Repr

/-- An OE die that starts again, with the modules and the modulator rings that fail (06 R205). -/
structure OeStart where
  oe        : Fin 8
  modBad    : List (Fin 32)
  modCalBad : List (Nat × Nat)
deriving DecidableEq, Repr

/-- The measured load of the cap loop (11 R341), in W. -/
structure CapObs where
  input  : Nat
  loadA  : Nat
  loadB  : Nat
  floor  : Nat
deriving DecidableEq, Repr

/-- The three commands that can find a journal program in progress are given the pages programmed before it. -/
inductive JournalDev where | primary | mirror
deriving DecidableEq, Repr

/-- Steps of storing a record that fail (12 R389). -/
structure StoreObs where
  firstTry  : Bool
  secondTry : Bool
deriving DecidableEq, Repr

/-- A completion of the host for a device read (09 R292). -/
inductive CplStatus where | sc (data : List Byte) | ur | ca
deriving DecidableEq, Repr

/-- A configuration write of the host (09 R286 to R296). -/
inductive CfgWrite where
  | memorySpace (on : Bool) | busMaster (on : Bool) | msixEnable (on : Bool) | relaxedOrdering (on : Bool)
  | bar2Resize (log2 : Nat) | maxPayload (bytes : Nat) | maxRead (bytes : Nat)
  | identifiers              -- a write of the read-only identifiers of Table 9.2, which are read back
deriving DecidableEq, Repr

/-- A DOE object (09 R312): discovery of an index, an SPDM message, or another protocol. -/
inductive DoeObj where
  | discovery (index : Nat) | spdm (msg : List Byte) | other (proto : Nat) (len : Nat)
deriving DecidableEq, Repr

/-- The SPDM requests carry the fields that the answer depends on (13 R404). -/
structure SpdmReq where
  transport : SpdmTransport
  version   : BitVec 8
  slot      : BitVec 8
  param     : BitVec 8        -- measurement index, or algorithm selection
  offset    : Nat
  length    : Nat
  nonce     : List Byte
  sign      : Bool
  asymOk    : Bool            -- Ed448 among the requester's algorithms
  hashOk    : Bool            -- SHA3-512 among them
deriving DecidableEq, Repr

/-- A token of DEBUG_UNLOCK (13 R406). -/
structure DebugToken where
  uid   : BitVec 64
  nonce : List Byte
  mask  : BitVec 32
  sig   : List Byte
deriving DecidableEq, Repr

/-- The partner's key message, once its last fragment is in (13 R410). -/
structure KxMsg where
  kind    : BitVec 8
  uid     : BitVec 64
  port    : BitVec 16
  nonce   : List Byte
  pub     : List Byte
  c       : BitVec 64
  chain   : List Byte
  debug   : BitVec 8          -- the debug state code its alias certificate carries
  sig     : List Byte
deriving DecidableEq, Repr

/-- An access to a 64-bit register (00 R8): a 32-bit read of its low word, one of its high word, one 64-bit read. -/
inductive Read64 where | low | high | wide
deriving DecidableEq, Repr

/-- Such a read, with the offset of the low word. -/
structure LowRead where
  addr : Nat
  form : Read64
deriving DecidableEq, Repr

/-- The commands (one constructor for each row of spec/opcode_table.json, in the table's order). -/
inductive Instr where
  -- supplies, straps, bring-up
  | vAonRise (k : KeeperStart)
  | vAonLoss
  | porAssert
  | porDeassert
  | priSelSample
  | priSelChange (level : Bool)
  | bringUpStart (o : BringUpObs)
  | bootDone
  -- registers
  | badSizeAccess (m : Master) (addr size : Nat) (write : Bool)
  | latchedLowRead (m : Master) (r : LowRead)
  | registerWrite (m : Master) (addr : Nat) (wide : Bool) (value : BitVec 64)
  | blockReset (m : Master) (p : Page)
  | blockResetDone (p : Page)
  | errInjWrite (m : Master) (p : Page) (value : Word)
  | injectionFire (p : Page)
  | lockAcquire (m : Master) (p : Page)
  | lockRelease (m : Master) (p : Page)
  | doorbellSet (m : Master) (p : Page) (bits : Word)
  | doorbellUnmask (m : Master) (p : Page) (mask : Word)
  -- tile instructions: the cell issues the instruction its PC names
  | nop (h : Half) (c : Fin 288) (e : HwEvent)
  | mma (h : Half) (c : Fin 288) (e : HwEvent)
  | load (h : Half) (c : Fin 288) (e : HwEvent)
  | store (h : Half) (c : Fin 288) (e : HwEvent)
  | scatter (h : Half) (c : Fin 288) (e : HwEvent)
  | prefetch (h : Half) (c : Fin 288) (e : HwEvent)
  | move (h : Half) (c : Fin 288) (e : HwEvent)
  | gather (h : Half) (c : Fin 288) (e : HwEvent)
  | vadd (h : Half) (c : Fin 288) (e : HwEvent)
  | vsub (h : Half) (c : Fin 288) (e : HwEvent)
  | vmul (h : Half) (c : Fin 288) (e : HwEvent)
  | vmax (h : Half) (c : Fin 288) (e : HwEvent)
  | vmin (h : Half) (c : Fin 288) (e : HwEvent)
  | vfma (h : Half) (c : Fin 288) (e : HwEvent)
  | vfill (h : Half) (c : Fin 288) (e : HwEvent)
  | vun (h : Half) (c : Fin 288) (e : HwEvent)
  | trans (h : Half) (c : Fin 288) (e : HwEvent)
  | cvt (h : Half) (c : Fin 288) (e : HwEvent)
  | quant (h : Half) (c : Fin 288) (e : HwEvent)
  | red (h : Half) (c : Fin 288) (e : HwEvent)
  | sop (h : Half) (c : Fin 288) (e : HwEvent)
  | sli (h : Half) (c : Fin 288) (e : HwEvent)
  | sld (h : Half) (c : Fin 288) (e : HwEvent)
  | sst (h : Half) (c : Fin 288) (e : HwEvent)
  | srd (h : Half) (c : Fin 288) (e : HwEvent)
  | loop (h : Half) (c : Fin 288) (e : HwEvent)
  | br (h : Half) (c : Fin 288) (e : HwEvent)
  | endPart (h : Half) (c : Fin 288) (e : HwEvent)
  | cellSignal (h : Half) (c : Fin 288) (e : HwEvent)
  | cellWait (h : Half) (c : Fin 288) (e : HwEvent)
  | cellFence (h : Half) (c : Fin 288) (e : HwEvent)
  | instructionComplete (h : Half) (c : Fin 288) (u : CUnit)
  -- cells
  | cellStoreScrub (h : Half) (c : Fin 288) (line : Fin 65536) (u : Upset)
  | retireReq (m : Master) (h : Half) (c : Fin 288)
  | swapStart (h : Half) (c : Fin 288) (bistFail : List (Fin 288))
  | cellReset (m : Master) (h : Half) (c : Fin 288)
  -- queues
  | queueDoorbell (m : Master) (r : QRef) (value : Word)
  | enable (m : Master) (r : QRef)
  | pause (m : Master) (r : QRef)
  | resume (m : Master) (r : QRef)
  | drain (m : Master) (r : QRef)
  | disable (m : Master) (r : QRef)
  | queueReset (m : Master) (r : QRef)
  | qCmdBad (m : Master) (r : QRef) (op : BitVec 4)
  | queuePaused (r : QRef)
  | queueDrained (r : QRef)
  | priorityAging (r : QRef)
  | kernel (r : QRef) (hr : HostRead)
  | kernelReserve (r : QRef) (slot : BitVec 16)
  | kernelStart (r : QRef) (slot : BitVec 16)
  | kernelPartComplete (h : Half) (c : Fin 288)
  | kernelTimeout (r : QRef) (slot : BitVec 16)
  | copy (r : QRef) (hr : HostRead)
  | fill (r : QRef) (hr : HostRead)
  | collective (r : QRef) (hr : HostRead)
  | fence (r : QRef) (hr : HostRead)
  | signal (r : QRef) (hr : HostRead)
  | wait (r : QRef) (hr : HostRead)
  | waitTimeout (w : Waiter)
  | event (r : QRef) (hr : HostRead)
  | descriptorComplete (r : QRef) (slot : BitVec 16)
  | semAdd (m : Master) (h : Half) (value : Word)
  | semVal (m : Master) (h : Half) (value : Word)
  | qctBaseWrite (m : Master) (h : Half) (high : Bool) (value : Word)
  | seqQuiesce (m : Master) (h : Half)
  | seqRun (m : Master) (h : Half)
  | seqQuiesced (h : Half)
  | terminate (m : Master) (h : Half) (p : Fin 8)
  | restart (m : Master) (h : Half) (p : Fin 8)
  -- memory
  | memoryAccess (r : LineReq)
  | ilvWrite (m : Master) (h : Half) (i : Fin 5) (value : Word)
  | hbmGroupTrained (h : Half) (i : Fin 12) (e : GroupEyes)
  | hbmRetrain (m : Master) (h : Half) (i : Fin 12)
  | hbmTimingUpdate (h : Half) (i : Fin 12) (ch : Fin 32) (o : CalObs)
  | patrolScrub (t : ScrubTarget) (addr : BitVec 52) (u : Upset)
  | hardPpr (h : Half) (t : PprTarget) (addr : BitVec 52)
  | sliceRetire (h : Half) (i : Fin 12) (slice : Fin 72) (why : RetireCause)
  | dimmFail (h : Half) (c : Fin 8)
  | ddrTrainDone (h : Half) (c : Fin 8) (pass : Bool) (eye : BitVec 8) (t100 : BitVec 8)
  | spdWaitTimeout (h : Half) (c : Fin 8)
  | tierMap (h : Half)
  | ddrCaAlert (h : Half) (c : Fin 8) (addr : BitVec 52) (retriesFail : Bool)
  -- network, hinge, die attach
  | epochAdvance (h : Half)
  | meshPacket (p : MeshPkt)
  | meshRequestTimeout (h : Half) (q : Fin 4) (write : Bool) (addr : BitVec 52) (cell : Option (Fin 288))
  | hingeFlit (h : Half) (l : LinkNo) (f : HingeFlit)
  | hingeAckTimer (h : Half) (b : Fin 16)
  | bundleBroken (b : Fin 16) (why : BreakCause)
  | hingeTrainDone (b : Fin 16) (badA badB : List (Fin 68)) (pass : Bool)
  | laneFail (l : DieLink) (lane : Fin 68)
  | retrainFull (m : Master) (l : DieLink)
  | hingeLinkReset (m : Master) (t : LinkTest)
  | ucieBroken (h : Half) (k : Fin 32) (why : BreakCause)
  | ucieDisable (m : Master) (h : Half) (k : Fin 32)
  | oeRequestCheck (h : Half) (o : Fin 8) (r : OeReq)
  | firewallWindowChange (h : Half) (o : Fin 8) (win : Fin 17) (w : FwWin)
  | regionThrottleRelease (h : Half) (q : Fin 4) (p : RegionPair)
  -- optical engines
  | tileHeartbeatLoss (h : Half) (o : Fin 8)
  | biasCeilingRestore (h : Half) (o : Fin 8)
  | ringLockUpdate (h : Half) (o : Fin 8) (r : RingId) (x : RingObs)
  | pwrRpt (p : PortId) (g : Fin 3) (values : List (BitVec 16)) (biasHeld : BitVec 18)
  | handoverTimeout (p : PortId)
  | subReq (p : PortId) (ch : Fin 18)
  | laserSuddenFail (h : Half) (o : Fin 8) (n : Fin 18)
  | lossOfLight (p : PortId)
  | probe (p : PortId)
  | lightDetect (p : PortId) (x : SearchObs)
  | shut (m : Master) (p : PortId)
  | unshut (m : Master) (p : PortId)
  | oeReqOff (m : Master) (h : Half) (o : Fin 8)
  | oeReqDark (m : Master) (h : Half) (o : Fin 8)
  | oeReqDim (m : Master) (h : Half) (o : Fin 8)
  | oeReqActive (m : Master) (h : Half) (o : Fin 8)
  | oeWakeDone (h : Half) (o : Fin 8) (us : BitVec 24) (w : WakeObs)
  | oeDimWake (h : Half) (w : DimWake)
  | oeIdleDim (h : Half) (o : Fin 8)
  | oeIdleDark (h : Half) (o : Fin 8)
  | oeReset (m : Master) (h : Half) (o : Fin 8)
  | oeResetDone (h : Half) (x : OeStart)
  | monSel (m : Master) (h : Half) (o : Fin 8) (value : Word)
  | research (m : Master) (p : PortId) (x : SearchObs)
  | spareGo (m : Master) (h : Half) (o : Fin 8) (value : Word)
  -- link layer
  | flitSend (p : PortId)
  | dataFlitReceive (p : PortId) (flit : List Byte)
  | alignFlit (p : PortId) (lanes : List (List Nat))
  | ackUpdateTimer (p : PortId)
  | replayTimeout (p : PortId)
  | spillRead (p : PortId) (ue : Bool)
  | refreshLost (p : PortId)
  | xoffTimeout (p : PortId)
  | linkTrain (p : PortId) (o : TrainObs)
  | trainStepTimeout (p : PortId)
  | waitingExpiry (p : PortId)
  | lockLossTimeout (p : PortId) (lane : Fin 16)
  | partnerTrainingBlocks (p : PortId)
  | holdExpire (p : PortId)
  | sleepExchangeTimeout (p : PortId)
  | linkWake (p : PortId)
  | sleepWakeTimeout (p : PortId)
  | hoReq (p : PortId) (n s : Fin 18) (peaks : List Nat)
  | hoReady (p : PortId) (n s : Fin 18)
  | hoDone (p : PortId) (n s : Fin 18) (k : BitVec 16)
  | hoFail (p : PortId) (n s : Fin 18)
  | sleepReq (p : PortId)
  | sleepAck (p : PortId)
  | retrainReq (p : PortId) (cause : BitVec 4) (width : Nat)
  | trnParam (p : PortId) (x : TrnParam)
  | trnEcho (p : PortId) (v : Word)
  | trnDone (p : PortId) (w : Nat) (resume : Bool)
  | dropRx (m : Master) (p : PortId)
  | crcTx (m : Master) (p : PortId)
  -- fabric
  | rd (p : PortId) (m : ReqMsg)
  | wr (p : PortId) (m : ReqMsg)
  | atom (p : PortId) (m : ReqMsg)
  | msg (p : PortId) (m : ReqMsg)
  | unknownOpc (p : PortId) (vcReq : Bool) (m : ReqMsg)
  | hello (p : PortId) (w : Waggle)
  | openMsg (p : PortId) (m : ReqMsg) (w : Waggle)
  | accept (p : PortId) (m : ReqMsg) (w : Waggle)
  | refuse (p : PortId) (m : ReqMsg) (w : Waggle)
  | dark (p : PortId) (w : Waggle)
  | helloTimeout (p : PortId)
  | openRepeat (h : Half) (fid : BitVec 16)
  | transitForward (p : PortId) (m : FabMsg)
  | transitAgeExpire (h : Half)
  | pathLost (p : PortId) (m : RspMsg)
  | rdData (p : PortId) (m : RspMsg)
  | wrAck (p : PortId) (m : RspMsg)
  | atomRsp (p : PortId) (m : RspMsg)
  | msgAck (p : PortId) (m : RspMsg)
  | requestTimeout (tag : BitVec 15)
  | retryResend (tag : BitVec 15) (late : Bool)
  | resultCacheExpire (h : Half) (sfid : BitVec 16) (session : BitVec 32) (tag : BitVec 15)
  | fabTmo (m : Master) (h : Half) (value : Word) (passed : List (BitVec 15))
  | pfCtxLoad (m : Master) (h : Half) (p : Fin 8) (value : Word)
  | fcrDb (m : Master) (h : Half) (p : Fin 8) (value : Word) (hr : HostRead)
  | collData (p : PortId) (m : CollMsg)
  | collReady (p : PortId) (m : CollMsg)
  | collAbort (p : PortId) (m : CollMsg)
  | collectiveTimeout (r : QRef) (slot : BitVec 16)
  -- host attach
  | perst (h : Half)
  | hotReset (f : Fn)
  | flr (f : Fn)
  | d3hotEntry (f : Fn)
  | d0Return (f : Fn)
  | dataLinkDown (h : Half)
  | dataLinkUp (h : Half) (flit : Bool) (rate : BitVec 4) (width : BitVec 5)
  | portLost (h : Half)
  | giveback (m : Master) (h : Half)
  | bar2Read (f : Fn) (offset : Nat) (len : Nat) (u : Upset)
  | bar2Write (f : Fn) (offset : Nat) (data : List Byte) (poisoned : Bool)
  | hostCompletion (h : Half) (id : Nat) (c : CplStatus)
  | cplTimeout (h : Half) (id : Nat)
  | msixUnmask (f : Fn) (vec : Fin 2048)
  | mbxSend (m : Master) (i : Fin 48)
  | mbxAck (m : Master) (i : Fin 48)
  | mbxRsend (m : Master) (i : Fin 48)
  | mbxRack (m : Master) (i : Fin 48)
  | inSlotWrite (m : Master) (i : Fin 48) (word : Fin 64) (value : Word)
  | outSlotWrite (m : Master) (i : Fin 48) (word : Fin 64) (value : Word)
  | fdbSet (m : Master) (i : Fin 48) (bits : Word)
  | getInfo (i : Fin 32)
  | getNuma (i : Fin 32)
  | xtWrite (i : Fin 32)
  | xtRead (i : Fin 32)
  | noteAck (i : Fin 32)
  | doeRequest (f : Fn) (o : DoeObj)
  | doeAbort (f : Fn)
  -- control complex and management
  | controlFrame (joining : List (Chan × ResyncObs))
  | commandCopy (c : CmdCopy)
  | voteWindowExpire (a : Fin 32)
  | heartbeatLoss (v : HbViews)
  | hingeRetrainTimer (bundles : List (Fin 16))
  | ccRestart (b : Binding) (ok : List Chan)
  | ccRestartWrite (m : Master) (ok : List Chan)
  | getTelemetry (b : Binding)
  | getHealth (b : Binding)
  | dimmDesc (b : Binding) (h : Half) (c : Fin 8) (offset : Nat) (bytes : List Byte)
  | getEvents (b : Binding) (count : BitVec 8)
  | setEndpointId (b : Binding) (eid : BitVec 8)
  | mctpReassemblyTimeout (b : Binding)
  | enec (bits : BitVec 8)
  | disec (bits : BitVec 8)
  | rstdaa
  | entdaa (da : BitVec 7)
  | setdasa (static da : BitVec 7)
  | setmrl (len : BitVec 16)
  | setmwl (len : BitVec 16)
  | getpid
  | getbcr
  | getdcr
  | getstatus
  | getmrl
  | getmwl
  | getmxds
  | rstact (action : BitVec 8)
  | hotJoin
  | ibiRepeat
  | telemetryRefresh
  -- power, clocks, temperature
  | capReq (m : Master) (value : Word)
  | capLoop (o : CapObs)
  | capUnmet
  | clockRampStep (h : Half) (q : Fin 4)
  | fmax (m : Master) (h : Half) (value : Word)
  | powerFail
  | undervoltage
  | overvoltage
  | refclkLoss (h : Half)
  | refclkHoldoverExpire (h : Half)
  | pllUnlock (e : PllEvent)
  | railFault (h : Half) (e : RailEvent)
  | autoHalfReset (h : Half) (o : HalfObs)
  | halfRstA (m : Master) (o : HalfObs)
  | halfRstB (m : Master) (o : HalfObs)
  | domainGate (d : DomRef) (toOff : Bool)
  | domainWake (d : DomRef)
  | deviceIdle
  | sensorSample (o : SensorObs)
  | drainEnd
  | surgeRelease (h : Half) (d : Fin 36)
  | thermalCeilingRise (h : Half) (q : Fin 4)
  | ditherHoldExpire (h : Half) (d : Fin 36) (renew : Bool)
  | remoteSample (o : RemoteObs)
  | journalWrite (primary mirror : Bool)
  | journalRewrite
  | cfgNext (m : Master) (value : Word) (s : StoreObs)
  -- calibrations
  | oscCal (o : CalObs)
  | vrefCal (o : CalObs)
  | remoteInputCal (i : Fin 12) (o : CalObs)
  | vinSenseCal (o : CalObs)
  | refclkCal (h : Half) (o : CalObs)
  | railSenseCal (h : Half) (o : CalObs)
  | hingeRxCal (h : Half) (b : Fin 16) (o : CalObs)
  | ucieRxCal (h : Half) (k : Fin 32) (o : CalObs)
  | ddrZqTracking (h : Half) (c : Fin 8) (o : CalObs)
  | portRecal (p : PortId) (o : CalObs) (bad : BitVec 36)
  | calStepTimeout (p : Page) (id : BitVec 8) (inst : BitVec 9)
  | runNow (m : Master) (p : Page) (o : CalObs)
  | recordStore (set : Fin 8) (body : List Byte) (s : StoreObs)
  -- security
  | fwUpdate (i : Fin 32) (writeOk : Bool)
  | svnCommit (i : Fin 32)
  | getMeasLog (i : Fin 32)
  | debugNonce (i : Fin 32)
  | debugUnlock (i : Fin 32)
  | imgWrite (b : Binding) (r : Region) (offset : Nat) (data : List Byte)
  | imgCommit (b : Binding) (r : Region) (writeOk : Bool)
  | getVersion (r : SpdmReq)
  | getCapabilities (r : SpdmReq)
  | negotiateAlgorithms (r : SpdmReq)
  | getDigests (r : SpdmReq)
  | getCertificate (r : SpdmReq)
  | challenge (r : SpdmReq)
  | getMeasurements (r : SpdmReq)
  | injDis (m : Master)
  -- link keys
  | kxFrag (p : PortId) (kind : BitVec 8) (i : BitVec 16) (whole : Option KxMsg)
  | kxAck (p : PortId) (n : BitVec 16)
  | kxSwitch (p : PortId) (c : BitVec 64)
  | kxAbort (p : PortId) (reason : BitVec 8)
  | kxResendTimer (p : PortId)
  | kxTimeout (p : PortId)
  | kxRetry (p : PortId)
  | rekey (p : PortId)
  | kxSwitchTimeout (p : PortId)
  | keeperLoss
  -- error rings
  | errorRingDrain (h : Half)
  | coalesceWindowEnd (p : Page) (bit : Fin 32)
  | errCons (m : Master) (h : Half) (value : Word)
  | errRingCtl (m : Master) (h : Half) (value : Word)
  -- rows added at the end of the table
  | perstDeassert (h : Half)
  | refclkReturn (h : Half)
  | vin48Rise
  | vin48Low
  | configurationWrite (f : Fn) (w : CfgWrite)
  | tckEdge (rising tms tdi : Bool)
  | trstNAssert
  | debugPortDisconnect
  | pwrRptSend (p : PortId) (oma : List (BitVec 16))
  | controlRequestRepeat (p : PortId)
deriving DecidableEq, Repr

end Sys2Proof
end

