-- ==== Sys2Proof/Machine/Maps.lean ====
section
/-! DEFINITION. Finite maps as lists of (key, value) pairs with rising keys, and small list helpers. -/

namespace Sys2Proof.Machine

/-- The value under key k, d where the key is not listed. -/
def mget {β : Type} (d : β) : List (Nat × β) → Nat → β
  | [], _ => d
  | (a, v) :: t, k => if a = k then v else mget d t k

/-- The key is listed. -/
def mhas {β : Type} : List (Nat × β) → Nat → Bool
  | [], _ => false
  | (a, _) :: t, k => if a = k then true else mhas t k

/-- List v under key k. -/
def mput {β : Type} : List (Nat × β) → Nat → β → List (Nat × β)
  | [], k, v => [(k, v)]
  | (a, w) :: t, k, v =>
    if k < a then (k, v) :: (a, w) :: t else if a = k then (k, v) :: t else (a, w) :: mput t k v

/-- Take key k off the list. -/
def merase {β : Type} (m : List (Nat × β)) (k : Nat) : List (Nat × β) := m.filter (fun e => e.1 ≠ k)

/-- Store v under key k, where d is what an unlisted key reads as. -/
def mset {β : Type} [DecidableEq β] (d : β) (m : List (Nat × β)) (k : Nat) (v : β) : List (Nat × β) :=
  if v = d then merase m k else mput m k v

/-- The keys rise strictly. -/
def keysRise {β : Type} : List (Nat × β) → Bool
  | [] => true
  | [_] => true
  | (a, _) :: (b, v) :: t => a < b && keysRise ((b, v) :: t)

/-- Sets of numbers as rising lists. -/
def sadd : List Nat → Nat → List Nat
  | [], k => [k]
  | a :: t, k => if k < a then k :: a :: t else if a = k then a :: t else a :: sadd t k

def sdel (l : List Nat) (k : Nat) : List Nat := l.filter (fun e => e ≠ k)

/-- Apply f for each element in order. -/
def foldOver {α σ : Type} (l : List α) (f : α → σ → σ) (s : σ) : σ := l.foldl (fun s x => f x s) s

/-- The bytes of a number, least significant first (00 R7). -/
def bytesOf : Nat → Nat → List Byte
  | 0, _ => []
  | n + 1, v => BitVec.ofNat 8 v :: bytesOf n (v / 256)

/-- The number a little-endian string of bytes holds. -/
def natOf : List Byte → Nat
  | [] => 0
  | b :: t => b.toNat + 256 * natOf t

/-- Bits [hi:lo] of a number. -/
def bits (v hi lo : Nat) : Nat := v / 2 ^ lo % 2 ^ (hi + 1 - lo)

/-- Bit n of a number. -/
def bit (v n : Nat) : Bool := v / 2 ^ n % 2 = 1

/-- The numbers whose bit is set, below n. -/
def bitList (n v : Nat) : List Nat := (List.range n).filter (bit v)

/-- A word with the given bits set. -/
def bitsOf (l : List Nat) : Nat := l.foldl (fun m k => m ||| 2 ^ k) 0

/-- Number of bits set below n. -/
def popCount (n v : Nat) : Nat := (bitList n v).length

/-- Saturating sum. -/
def satAdd (w a b : Nat) : Nat := min (a + b) (2 ^ w - 1)

/-- A string of exactly n bytes: cut, or filled with zero bytes. -/
def padTo (n : Nat) (l : List Byte) : List Byte := (l ++ List.replicate (n - l.length) 0).take n

/-- All indexes below n. -/
def allFin (n : Nat) : List (Fin n) := List.finRange n

/-- Element i of a list, d past its end. -/
def nth {α : Type} (d : α) : List α → Nat → α
  | [], _ => d
  | x :: _, 0 => x
  | _ :: t, i + 1 => nth d t i

end Sys2Proof.Machine
end

