-- ==== Sys2Proof/Config.lean ====
section
/-! DEFINITION. What an implementation fixes and the free values: constants without a body, so that nothing can evaluate
them. Every one has a row in the assumption log. -/

namespace Sys2Proof

/-- The n-th value the spec leaves open, drawn at counter n of the state; the user takes it modulo the width it needs
(assumption 1). -/
opaque Config.free : Nat → Nat

/-- What an address reads as after the event with the given stamp made its contents undefined (04 R115, assumption 1). -/
opaque Config.freeAt : Nat → Nat → Byte

/-- Number formats: a result the spec leaves open for these operands (operation code, operand bits; assumption 1). -/
opaque Config.openResult : Nat → Nat → Word

/-- The device's 64-bit UID, a fuse value (13 R393). -/
opaque Config.uid : BitVec 64
/-- Silicon stepping and assembly level of this device (01 R38). -/
opaque Config.stepping : BitVec 8
opaque Config.assembly : BitVec 8
/-- Root key hashes ROOT_HASH0 to ROOT_HASH3 and GW_ROOT_HASH, 64 bytes each (13 R393). -/
opaque Config.rootHash : Nat → List Byte
opaque Config.gwRootHash : List Byte
/-- The hash of the identity certificate, in fuses (13 R393). -/
opaque Config.idCertHash : List Byte
/-- The version of the keeper's ROM, which M1 measures (13 R400). -/
opaque Config.romVersion : BitVec 32
/-- The lifecycle fuses (13 R393). -/
opaque Config.lifecycle : BitVec 2
/-- DEBUG_KILL and INJ_LOCK fuses (13 R393). -/
opaque Config.debugKill : Bool
opaque Config.injLock : Bool

/-- The set of a line among the 1,024 of its bank (05 R145 gives the bank; assumption 6). -/
opaque Config.cacheSet : BitVec 52 → Nat
/-- The line pseudo-LRU replaces, from the candidate lines of the set with the number of each one's last use (04 R126; assumption 6). -/
opaque Config.victim : List (Nat × Nat) → Nat

/-- The address that the bundle hash sees for a fabric flow, from source port and destination FID (05 R155; assumption 78). -/
opaque Config.flowAddr : Nat → Nat → Nat

/-- Banks of a stack (12 h + i) that had a hard PPR resource at shipment, and whether the n-th repair of a stack spends its bank's last one (04
Table 4.15; assumption 83). -/
opaque Config.pprBanks : Nat → Nat
opaque Config.pprLast : Nat → Nat → Bool

/-- Whether a queue, given by stamp and key, whose descriptor ring lies in host memory is ready (assumption 16). -/
opaque Config.hostReady : Nat → Nat → Bool

/-- GAIN of an OE's lock loops, in µW of heater for 1,000 monitor codes of gradient (06 R187; assumption 22). -/
opaque Config.loopGain : Nat → Int
/-- Temperature coefficient KT of a ring's heater, in nW for each °C (06 R189; assumption 22). -/
opaque Config.kt : Nat → Int
/-- The setpoint of a laser's output on the tile monitor, in 0.01 dBm, calibrated at manufacture (06 R179; assumption 84). -/
opaque Config.laserSet : Nat → BitVec 16

/-- Two sensors of a die, by their index in the half, lie within 3 mm (11 R355; assumption 24). -/
opaque Config.sensNear : Nat → Nat → Bool

/-- What the body of a configuration part says, and the base version an overlay names: the spec gives no format (12 R373; assumption 39). -/
opaque Config.cfgParse : List Byte → Option CfgItems
opaque Config.cfgBaseVersion : List Byte → Nat

/-- FIPS 202 SHA3-512 (13 R404). -/
opaque Config.sha3 : List Byte → List Byte
/-- FIPS 202 SHAKE256 with a 64-byte output (13). -/
opaque Config.shake256 : List Byte → List Byte
/-- RFC 8032 Ed448: does the signature of the message verify under the key? For a key message the first argument is the chain whose last
certificate holds the key. -/
opaque Config.verify : List Byte → List Byte → List Byte → Bool
/-- RFC 8032 Ed448 signature of a message by the device's alias key (0) or identity key (1). -/
opaque Config.sign : Nat → List Byte → List Byte
/-- RFC 7748 X448 shared secret, and the key derivation of 13 R410, as one function of secret number and public share. -/
opaque Config.x448 : Nat → List Byte → Nat
/-- The 56-byte X448 public share of a secret number. -/
opaque Config.x448Pub : Nat → List Byte
/-- The certificate of the alias key (13 R402), as bytes. -/
opaque Config.aliasCert : List Byte
/-- AES-256-GCM: payload with tag from key, nonce and plain flit; and back, none where the tag fails (13 R412, R413). -/
opaque Config.seal : Nat → Nat → List Byte → List Byte
opaque Config.unseal : Nat → Nat → List Byte → Option (List Byte)
/-- A certificate chain leads to an accepted root and names this UID and debug state (13 R410). -/
opaque Config.chainOk : List Byte → BitVec 64 → Bool

end Sys2Proof
end

