-- ==== Sys2Proof/Machine/Fields.lean ====
section
/-! DEFINITION. The register fields of BAR0, one constant for each row of the spec's register tables (00 R9 gives the
access codes), and the fields of each block page. A reset the tables give as "config", "record", "fuses",
    "per lot" or the like
stands as 0 here: bring-up and the keeper's start write it (assumption 5). -/

namespace Sys2Proof.Machine

/-- Access codes (00 Table 0.5). -/
inductive Acc where | ro | rov | rw | rw1c | w1s | wo
deriving DecidableEq, Repr

/-- A register field: offset in its page, bits [hi:lo], access, reset value; `n` registers `st` apart, each a row of
`n2` registers `st2` apart. -/
structure Fld where
  off : Nat
  hi  : Nat
  lo  : Nat
  acc : Acc
  rst : Nat
  st  : Nat := 0
  n   : Nat := 1
  st2 : Nat := 0
  n2  : Nat := 1
deriving DecidableEq, Repr

/-- The field of the i-th register of an array. -/
def Fld.ix (f : Fld) (i : Nat) : Fld := { f with off := f.off + f.st * i }

/-- The field of register (i, j) of a two-dimensional array. -/
def Fld.ix2 (f : Fld) (i j : Nat) : Fld := { f with off := f.off + f.st * i + f.st2 * j }

/-- The field's width. -/
def Fld.width (f : Fld) : Nat := f.hi + 1 - f.lo

/-- The bits of its word that the field covers. -/
def Fld.mask (f : Fld) : Nat := (2 ^ f.width - 1) * 2 ^ f.lo

/-- The field has a register at page offset o. -/
def Fld.at (f : Fld) (o : Nat) : Bool :=
  if o < f.off then false
  else
    let d := o - f.off
    if f.st = 0 then d = 0
    else if f.st2 = 0 then d % f.st = 0 && d / f.st < f.n
    else d / f.st < f.n && d % f.st % f.st2 = 0 && d % f.st / f.st2 < f.n2


/-! Common header (01 R31 to R36). -/

def R.hdr.BLK_CTL_ERR_IRQ_EN : Fld := ⟨0x8, 2, 2, .rw, 0, 0, 1, 0, 1⟩
def R.hdr.BLK_CTL_RESET : Fld := ⟨0x8, 1, 1, .w1s, 0, 0, 1, 0, 1⟩
def R.hdr.BLK_CTL_EN : Fld := ⟨0x8, 0, 0, .rw, 0, 0, 1, 0, 1⟩
def R.hdr.BLK_STS_ERR : Fld := ⟨0xc, 3, 3, .rov, 0, 0, 1, 0, 1⟩
def R.hdr.BLK_STS_FENCED : Fld := ⟨0xc, 2, 2, .rov, 0, 0, 1, 0, 1⟩
def R.hdr.BLK_STS_RESET_BUSY : Fld := ⟨0xc, 1, 1, .rov, 0, 0, 1, 0, 1⟩
def R.hdr.BLK_STS_READY : Fld := ⟨0xc, 0, 0, .rov, 0, 0, 1, 0, 1⟩
def R.hdr.ERR_STS_PARITY : Fld := ⟨0x10, 3, 3, .rw1c, 0, 0, 1, 0, 1⟩
def R.hdr.ERR_STS_INJECTED : Fld := ⟨0x10, 2, 2, .rw1c, 0, 0, 1, 0, 1⟩
def R.hdr.ERR_STS_LOCK_ERR : Fld := ⟨0x10, 1, 1, .rw1c, 0, 0, 1, 0, 1⟩
def R.hdr.ERR_STS_STATE_ERR : Fld := ⟨0x10, 0, 0, .rw1c, 0, 0, 1, 0, 1⟩
def R.hdr.ERR_INJ_ARM : Fld := ⟨0x1c, 31, 31, .rw, 0, 0, 1, 0, 1⟩
def R.hdr.ERR_INJ_BIT : Fld := ⟨0x1c, 4, 0, .rw, 0, 0, 1, 0, 1⟩
def R.hdr.LOCK_OWNER : Fld := ⟨0x20, 7, 0, .rov, 0, 0, 1, 0, 1⟩
def R.hdr.LOCK_REL_RELEASE : Fld := ⟨0x24, 7, 0, .wo, 0, 0, 1, 0, 1⟩
def R.hdr.DB_SET_SET : Fld := ⟨0x28, 31, 0, .w1s, 0, 0, 1, 0, 1⟩
def R.hdr.DB_MASK_MASK : Fld := ⟨0x2c, 31, 0, .rw, 0, 0, 1, 0, 1⟩
def R.hdr.DB_STS_STS : Fld := ⟨0x30, 31, 0, .rw1c, 0, 0, 1, 0, 1⟩
/-- Fields of the Common header (01 R31 to R36). -/
def R.hdr.all : List Fld :=
  [R.hdr.BLK_CTL_ERR_IRQ_EN, R.hdr.BLK_CTL_RESET, R.hdr.BLK_CTL_EN, R.hdr.BLK_STS_ERR, R.hdr.BLK_STS_FENCED,
    R.hdr.BLK_STS_RESET_BUSY, R.hdr.BLK_STS_READY, R.hdr.ERR_STS_PARITY, R.hdr.ERR_STS_INJECTED,
    R.hdr.ERR_STS_LOCK_ERR, R.hdr.ERR_STS_STATE_ERR, R.hdr.ERR_INJ_ARM, R.hdr.ERR_INJ_BIT, R.hdr.LOCK_OWNER,
    R.hdr.LOCK_REL_RELEASE, R.hdr.DB_SET_SET, R.hdr.DB_MASK_MASK, R.hdr.DB_STS_STS]

/-! KEEPER page. -/

def R.keeper.PKG_ID_PART : Fld := ⟨0x100, 31, 16, .ro, 0x9600, 0, 1, 0, 1⟩
def R.keeper.PKG_ID_STEPPING : Fld := ⟨0x100, 15, 8, .ro, 0, 0, 1, 0, 1⟩
def R.keeper.PKG_ID_ASSEMBLY : Fld := ⟨0x100, 7, 0, .ro, 0, 0, 1, 0, 1⟩
def R.keeper.STRAPS_BRDID : Fld := ⟨0x104, 11, 8, .ro, 0, 0, 1, 0, 1⟩
def R.keeper.STRAPS_LEADER : Fld := ⟨0x104, 2, 2, .rov, 0, 0, 1, 0, 1⟩
def R.keeper.STRAPS_PRI_SEL_NOW : Fld := ⟨0x104, 1, 1, .rov, 0, 0, 1, 0, 1⟩
def R.keeper.STRAPS_PRI_SEL : Fld := ⟨0x104, 0, 0, .ro, 0, 0, 1, 0, 1⟩
def R.keeper.BOOT_STS_PHASE : Fld := ⟨0x200, 31, 28, .rov, 0, 0, 1, 0, 1⟩
def R.keeper.BOOT_STS_REDUCED : Fld := ⟨0x200, 27, 27, .rov, 0, 0, 1, 0, 1⟩
def R.keeper.BOOT_STS_FW_MIRROR : Fld := ⟨0x200, 26, 26, .rov, 0, 0, 1, 0, 1⟩
def R.keeper.BOOT_STS_HALF_A_UP : Fld := ⟨0x200, 25, 25, .rov, 0, 0, 1, 0, 1⟩
def R.keeper.BOOT_STS_HALF_B_UP : Fld := ⟨0x200, 24, 24, .rov, 0, 0, 1, 0, 1⟩
def R.keeper.BOOT_STS_DONE_MS : Fld := ⟨0x200, 15, 0, .rov, 0, 0, 1, 0, 1⟩
def R.keeper.CFG_STS_APPLIED : Fld := ⟨0x204, 31, 16, .rov, 0, 0, 1, 0, 1⟩
def R.keeper.CFG_STS_SOURCE : Fld := ⟨0x204, 15, 12, .rov, 0, 0, 1, 0, 1⟩
def R.keeper.CFG_STS_OVL : Fld := ⟨0x204, 11, 8, .rov, 0, 0, 1, 0, 1⟩
def R.keeper.CFG_STS_REASON : Fld := ⟨0x204, 7, 0, .rov, 0, 0, 1, 0, 1⟩
def R.keeper.CFG_NEXT_STORED : Fld := ⟨0x208, 16, 16, .rov, 0, 0, 1, 0, 1⟩
def R.keeper.CFG_NEXT_SET : Fld := ⟨0x208, 15, 0, .rw, 0, 0, 1, 0, 1⟩
def R.keeper.CFG_BASE_VERSION : Fld := ⟨0x20c, 31, 0, .rov, 0, 0, 1, 0, 1⟩
def R.keeper.HALF_RST_B : Fld := ⟨0x210, 1, 1, .w1s, 0, 0, 1, 0, 1⟩
def R.keeper.HALF_RST_A : Fld := ⟨0x210, 0, 0, .w1s, 0, 0, 1, 0, 1⟩
def R.keeper.HALF_RST_STS_AUTO_B : Fld := ⟨0x214, 15, 8, .rov, 0, 0, 1, 0, 1⟩
def R.keeper.HALF_RST_STS_AUTO_A : Fld := ⟨0x214, 7, 0, .rov, 0, 0, 1, 0, 1⟩
/-- Fields of the KEEPER page. -/
def R.keeper.all : List Fld :=
  [R.keeper.PKG_ID_PART, R.keeper.PKG_ID_STEPPING, R.keeper.PKG_ID_ASSEMBLY, R.keeper.STRAPS_BRDID,
    R.keeper.STRAPS_LEADER, R.keeper.STRAPS_PRI_SEL_NOW, R.keeper.STRAPS_PRI_SEL, R.keeper.BOOT_STS_PHASE,
    R.keeper.BOOT_STS_REDUCED, R.keeper.BOOT_STS_FW_MIRROR, R.keeper.BOOT_STS_HALF_A_UP,
    R.keeper.BOOT_STS_HALF_B_UP, R.keeper.BOOT_STS_DONE_MS, R.keeper.CFG_STS_APPLIED, R.keeper.CFG_STS_SOURCE,
    R.keeper.CFG_STS_OVL, R.keeper.CFG_STS_REASON, R.keeper.CFG_NEXT_STORED, R.keeper.CFG_NEXT_SET,
    R.keeper.CFG_BASE_VERSION, R.keeper.HALF_RST_B, R.keeper.HALF_RST_A, R.keeper.HALF_RST_STS_AUTO_B,
    R.keeper.HALF_RST_STS_AUTO_A]

/-! CTRLCH page. -/

def R.ctrlch.BLK_CAP_DB_PRESENT : Fld := ⟨0x4, 1, 1, .ro, 1, 0, 1, 0, 1⟩
def R.ctrlch.BLK_CAP_RESET_OK : Fld := ⟨0x4, 0, 0, .ro, 0, 0, 1, 0, 1⟩
def R.ctrlch.BLK_CTL_CC_RESTART : Fld := ⟨0x8, 8, 8, .w1s, 0, 0, 1, 0, 1⟩
def R.ctrlch.BLK_CTL_EN : Fld := ⟨0x8, 0, 0, .ro, 1, 0, 1, 0, 1⟩
def R.ctrlch.BLK_STS_CH_STATE : Fld := ⟨0xc, 11, 8, .rov, 0, 0, 1, 0, 1⟩
def R.ctrlch.ERR_STS_HALT : Fld := ⟨0x10, 15, 15, .rw1c, 0, 0, 1, 0, 1⟩
def R.ctrlch.ERR_STS_MGMT_BAD : Fld := ⟨0x10, 14, 14, .rw1c, 0, 0, 1, 0, 1⟩
def R.ctrlch.ERR_STS_CS_ERR : Fld := ⟨0x10, 13, 13, .rw1c, 0, 0, 1, 0, 1⟩
def R.ctrlch.ERR_STS_HALF_FENCED : Fld := ⟨0x10, 12, 12, .rw1c, 0, 0, 1, 0, 1⟩
def R.ctrlch.ERR_STS_HINGE_LOST : Fld := ⟨0x10, 11, 11, .rw1c, 0, 0, 1, 0, 1⟩
def R.ctrlch.ERR_STS_PROMOTE_FAIL : Fld := ⟨0x10, 10, 10, .rw1c, 0, 0, 1, 0, 1⟩
def R.ctrlch.ERR_STS_HB_LOST : Fld := ⟨0x10, 9, 9, .rw1c, 0, 0, 1, 0, 1⟩
def R.ctrlch.ERR_STS_OUTVOTED : Fld := ⟨0x10, 8, 8, .rw1c, 0, 0, 1, 0, 1⟩
def R.ctrlch.CC_STS_MODE : Fld := ⟨0x100, 31, 28, .rov, 0, 0, 1, 0, 1⟩
def R.ctrlch.CC_STS_CK_STATE : Fld := ⟨0x100, 23, 20, .rov, 0, 0, 1, 0, 1⟩
def R.ctrlch.CC_STS_CB_STATE : Fld := ⟨0x100, 19, 16, .rov, 0, 0, 1, 0, 1⟩
def R.ctrlch.CC_STS_CA_STATE : Fld := ⟨0x100, 15, 12, .rov, 0, 0, 1, 0, 1⟩
def R.ctrlch.CC_STS_HINGE : Fld := ⟨0x100, 9, 8, .rov, 0, 0, 1, 0, 1⟩
def R.ctrlch.CC_STS_FENCED_B : Fld := ⟨0x100, 5, 5, .rov, 0, 0, 1, 0, 1⟩
def R.ctrlch.CC_STS_FENCED_A : Fld := ⟨0x100, 4, 4, .rov, 0, 0, 1, 0, 1⟩
def R.ctrlch.CC_STS_BYPASS_UP : Fld := ⟨0x100, 3, 0, .rov, 0, 0, 1, 0, 1⟩
def R.ctrlch.THIS_CH_CH : Fld := ⟨0x104, 1, 0, .ro, 0, 0, 1, 0, 1⟩
def R.ctrlch.VOTES_LO : Fld := ⟨0x108, 31, 0, .rov, 0, 0, 1, 0, 1⟩
def R.ctrlch.VOTES_HI : Fld := ⟨0x10c, 31, 0, .rov, 0, 0, 1, 0, 1⟩
def R.ctrlch.DISAGREE_LAST_CH : Fld := ⟨0x110, 17, 16, .rov, 0, 0, 1, 0, 1⟩
def R.ctrlch.DISAGREE_COUNT : Fld := ⟨0x110, 15, 0, .rov, 0, 0, 1, 0, 1⟩
def R.ctrlch.HB_MISS_PEER2 : Fld := ⟨0x114, 15, 8, .rov, 0, 0, 1, 0, 1⟩
def R.ctrlch.HB_MISS_PEER1 : Fld := ⟨0x114, 7, 0, .rov, 0, 0, 1, 0, 1⟩
def R.ctrlch.HOLD_MAX_CYCLES : Fld := ⟨0x118, 8, 0, .rov, 0, 0, 1, 0, 1⟩
def R.ctrlch.RESYNC_DAY : Fld := ⟨0x11c, 15, 8, .rov, 0, 0, 1, 0, 1⟩
def R.ctrlch.RESYNC_TOTAL : Fld := ⟨0x11c, 7, 0, .rov, 0, 0, 1, 0, 1⟩
def R.ctrlch.CS_CRC_DIGEST : Fld := ⟨0x120, 31, 0, .rov, 0, 0, 1, 0, 1⟩
def R.ctrlch.HALT_INFO_CAUSE : Fld := ⟨0x124, 31, 24, .rov, 0, 0, 1, 0, 1⟩
def R.ctrlch.HALT_INFO_FRAME : Fld := ⟨0x124, 23, 0, .rov, 0, 0, 1, 0, 1⟩
def R.ctrlch.MGMT_ADDR_EID_FN1 : Fld := ⟨0x128, 31, 24, .rov, 0, 0, 1, 0, 1⟩
def R.ctrlch.MGMT_ADDR_EID_FN0 : Fld := ⟨0x128, 23, 16, .rov, 0, 0, 1, 0, 1⟩
def R.ctrlch.MGMT_ADDR_EID_I3C : Fld := ⟨0x128, 15, 8, .rov, 0, 0, 1, 0, 1⟩
def R.ctrlch.MGMT_ADDR_DA_VALID : Fld := ⟨0x128, 7, 7, .rov, 0, 0, 1, 0, 1⟩
def R.ctrlch.MGMT_ADDR_DA : Fld := ⟨0x128, 6, 0, .rov, 0, 0, 1, 0, 1⟩
def R.ctrlch.EVT_PEND_COUNT : Fld := ⟨0x12c, 6, 0, .rov, 0, 0, 1, 0, 1⟩
/-- Fields of the CTRLCH page. -/
def R.ctrlch.all : List Fld :=
  [R.ctrlch.BLK_CAP_DB_PRESENT, R.ctrlch.BLK_CAP_RESET_OK, R.ctrlch.BLK_CTL_CC_RESTART, R.ctrlch.BLK_CTL_EN,
    R.ctrlch.BLK_STS_CH_STATE, R.ctrlch.ERR_STS_HALT, R.ctrlch.ERR_STS_MGMT_BAD, R.ctrlch.ERR_STS_CS_ERR,
    R.ctrlch.ERR_STS_HALF_FENCED, R.ctrlch.ERR_STS_HINGE_LOST, R.ctrlch.ERR_STS_PROMOTE_FAIL,
    R.ctrlch.ERR_STS_HB_LOST, R.ctrlch.ERR_STS_OUTVOTED, R.ctrlch.CC_STS_MODE, R.ctrlch.CC_STS_CK_STATE,
    R.ctrlch.CC_STS_CB_STATE, R.ctrlch.CC_STS_CA_STATE, R.ctrlch.CC_STS_HINGE, R.ctrlch.CC_STS_FENCED_B,
    R.ctrlch.CC_STS_FENCED_A, R.ctrlch.CC_STS_BYPASS_UP, R.ctrlch.THIS_CH_CH, R.ctrlch.VOTES_LO,
    R.ctrlch.VOTES_HI, R.ctrlch.DISAGREE_LAST_CH, R.ctrlch.DISAGREE_COUNT, R.ctrlch.HB_MISS_PEER2,
    R.ctrlch.HB_MISS_PEER1, R.ctrlch.HOLD_MAX_CYCLES, R.ctrlch.RESYNC_DAY, R.ctrlch.RESYNC_TOTAL,
    R.ctrlch.CS_CRC_DIGEST, R.ctrlch.HALT_INFO_CAUSE, R.ctrlch.HALT_INFO_FRAME, R.ctrlch.MGMT_ADDR_EID_FN1,
    R.ctrlch.MGMT_ADDR_EID_FN0, R.ctrlch.MGMT_ADDR_EID_I3C, R.ctrlch.MGMT_ADDR_DA_VALID, R.ctrlch.MGMT_ADDR_DA,
    R.ctrlch.EVT_PEND_COUNT]

/-! MBX page. -/

def R.mbx.BLK_CAP_DB_PRESENT : Fld := ⟨0x4, 1, 1, .ro, 1, 0, 1, 0, 1⟩
def R.mbx.BLK_CAP_RESET_OK : Fld := ⟨0x4, 0, 0, .ro, 0, 0, 1, 0, 1⟩
def R.mbx.BLK_CTL_EN : Fld := ⟨0x8, 0, 0, .ro, 1, 0, 1, 0, 1⟩
def R.mbx.ERR_STS_REJECT_OUT : Fld := ⟨0x10, 9, 9, .rw1c, 0, 0, 1, 0, 1⟩
def R.mbx.ERR_STS_REJECT_IN : Fld := ⟨0x10, 8, 8, .rw1c, 0, 0, 1, 0, 1⟩
def R.mbx.MBX_STS_REJECT : Fld := ⟨0x100, 3, 3, .rw1c, 0, 0, 1, 0, 1⟩
def R.mbx.MBX_STS_PRIV : Fld := ⟨0x100, 2, 2, .ro, 0, 0, 1, 0, 1⟩
def R.mbx.MBX_STS_OUT_FULL : Fld := ⟨0x100, 1, 1, .rov, 0, 0, 1, 0, 1⟩
def R.mbx.MBX_STS_IN_FULL : Fld := ⟨0x100, 0, 0, .rov, 0, 0, 1, 0, 1⟩
def R.mbx.MBX_CMD_ACK : Fld := ⟨0x104, 1, 1, .w1s, 0, 0, 1, 0, 1⟩
def R.mbx.MBX_CMD_SEND : Fld := ⟨0x104, 0, 0, .w1s, 0, 0, 1, 0, 1⟩
def R.mbx.MBX_VEC_EN : Fld := ⟨0x108, 31, 31, .rw, 0, 0, 1, 0, 1⟩
def R.mbx.MBX_VEC_FN : Fld := ⟨0x108, 11, 11, .rw, 0, 0, 1, 0, 1⟩
def R.mbx.MBX_VEC_VEC : Fld := ⟨0x108, 10, 0, .rw, 0, 0, 1, 0, 1⟩
def R.mbx.MBX_RCMD_ACK : Fld := ⟨0x10c, 1, 1, .w1s, 0, 0, 1, 0, 1⟩
def R.mbx.MBX_RCMD_SEND : Fld := ⟨0x10c, 0, 0, .w1s, 0, 0, 1, 0, 1⟩
def R.mbx.FDB_SET_SET : Fld := ⟨0x110, 31, 0, .w1s, 0, 0, 1, 0, 1⟩
def R.mbx.FDB_MASK_MASK : Fld := ⟨0x114, 31, 0, .rw, 0, 0, 1, 0, 1⟩
def R.mbx.FDB_STS_STS : Fld := ⟨0x118, 31, 0, .rw1c, 0, 0, 1, 0, 1⟩
def R.mbx.IN_SLOT_DATA : Fld := ⟨0x200, 31, 0, .rw, 0, 0x4, 64, 0, 1⟩
def R.mbx.OUT_SLOT_DATA : Fld := ⟨0x300, 31, 0, .rw, 0, 0x4, 64, 0, 1⟩
/-- Fields of the MBX page. -/
def R.mbx.all : List Fld :=
  [R.mbx.BLK_CAP_DB_PRESENT, R.mbx.BLK_CAP_RESET_OK, R.mbx.BLK_CTL_EN, R.mbx.ERR_STS_REJECT_OUT,
    R.mbx.ERR_STS_REJECT_IN, R.mbx.MBX_STS_REJECT, R.mbx.MBX_STS_PRIV, R.mbx.MBX_STS_OUT_FULL,
    R.mbx.MBX_STS_IN_FULL, R.mbx.MBX_CMD_ACK, R.mbx.MBX_CMD_SEND, R.mbx.MBX_VEC_EN, R.mbx.MBX_VEC_FN,
    R.mbx.MBX_VEC_VEC, R.mbx.MBX_RCMD_ACK, R.mbx.MBX_RCMD_SEND, R.mbx.FDB_SET_SET, R.mbx.FDB_MASK_MASK,
    R.mbx.FDB_STS_STS, R.mbx.IN_SLOT_DATA, R.mbx.OUT_SLOT_DATA]

/-! NOC page. -/

def R.noc.BLK_CAP_DB_PRESENT : Fld := ⟨0x4, 1, 1, .ro, 0, 0, 1, 0, 1⟩
def R.noc.BLK_CAP_RESET_OK : Fld := ⟨0x4, 0, 0, .ro, 0, 0, 1, 0, 1⟩
def R.noc.BLK_CTL_EN : Fld := ⟨0x8, 0, 0, .ro, 1, 0, 1, 0, 1⟩
def R.noc.ERR_STS_REGION_LIMIT : Fld := ⟨0x10, 12, 12, .rw1c, 0, 0, 1, 0, 1⟩
def R.noc.ERR_STS_AGE_BOUND : Fld := ⟨0x10, 11, 11, .rw1c, 0, 0, 1, 0, 1⟩
def R.noc.ERR_STS_FLIT_UE : Fld := ⟨0x10, 10, 10, .rw1c, 0, 0, 1, 0, 1⟩
def R.noc.ERR_STS_FLIT_CE : Fld := ⟨0x10, 9, 9, .rw1c, 0, 0, 1, 0, 1⟩
def R.noc.ERR_STS_ROUTE_ERR : Fld := ⟨0x10, 8, 8, .rw1c, 0, 0, 1, 0, 1⟩
def R.noc.NOC_CFG_EPOCH : Fld := ⟨0x100, 13, 8, .rov, 0, 0, 1, 0, 1⟩
def R.noc.NOC_CFG_ROUTERS : Fld := ⟨0x100, 7, 0, .ro, 0x10, 0, 1, 0, 1⟩
def R.noc.AGE_MAX_CYCLES : Fld := ⟨0x104, 11, 0, .rov, 0, 0, 1, 0, 1⟩
def R.noc.FORCED_LO : Fld := ⟨0x108, 31, 0, .rov, 0, 0, 1, 0, 1⟩
def R.noc.FORCED_HI : Fld := ⟨0x10c, 31, 0, .rov, 0, 0, 1, 0, 1⟩
def R.noc.REGION_STS_OVER : Fld := ⟨0x110, 7, 0, .rov, 0, 0, 1, 0, 1⟩
def R.noc.REGION_MAX_DT_MAX : Fld := ⟨0x114, 23, 16, .rov, 0, 0, 1, 0, 1⟩
def R.noc.REGION_MAX_DV_MAX : Fld := ⟨0x114, 15, 0, .rov, 0, 0, 1, 0, 1⟩
/-- Fields of the NOC page. -/
def R.noc.all : List Fld :=
  [R.noc.BLK_CAP_DB_PRESENT, R.noc.BLK_CAP_RESET_OK, R.noc.BLK_CTL_EN, R.noc.ERR_STS_REGION_LIMIT,
    R.noc.ERR_STS_AGE_BOUND, R.noc.ERR_STS_FLIT_UE, R.noc.ERR_STS_FLIT_CE, R.noc.ERR_STS_ROUTE_ERR,
    R.noc.NOC_CFG_EPOCH, R.noc.NOC_CFG_ROUTERS, R.noc.AGE_MAX_CYCLES, R.noc.FORCED_LO, R.noc.FORCED_HI,
    R.noc.REGION_STS_OVER, R.noc.REGION_MAX_DT_MAX, R.noc.REGION_MAX_DV_MAX]

/-! COMB page. -/

def R.comb.BLK_CAP_DB_PRESENT : Fld := ⟨0x4, 1, 1, .ro, 0, 0, 1, 0, 1⟩
def R.comb.BLK_CAP_RESET_OK : Fld := ⟨0x4, 0, 0, .ro, 0, 0, 1, 0, 1⟩
def R.comb.BLK_CTL_EN : Fld := ⟨0x8, 0, 0, .ro, 1, 0, 1, 0, 1⟩
def R.comb.BLK_STS_MODE : Fld := ⟨0xc, 11, 8, .ro, 0, 0, 1, 0, 1⟩
def R.comb.ERR_STS_WIN_DENY : Fld := ⟨0x10, 14, 14, .rw1c, 0, 0, 1, 0, 1⟩
def R.comb.ERR_STS_ILV_BAD : Fld := ⟨0x10, 13, 13, .rw1c, 0, 0, 1, 0, 1⟩
def R.comb.ERR_STS_HINGE_POISON : Fld := ⟨0x10, 12, 12, .rw1c, 0, 0, 1, 0, 1⟩
def R.comb.ERR_STS_TAG_CE : Fld := ⟨0x10, 11, 11, .rw1c, 0, 0, 1, 0, 1⟩
def R.comb.ERR_STS_CC_UE_DIRTY : Fld := ⟨0x10, 10, 10, .rw1c, 0, 0, 1, 0, 1⟩
def R.comb.ERR_STS_CC_UE_CLEAN : Fld := ⟨0x10, 9, 9, .rw1c, 0, 0, 1, 0, 1⟩
def R.comb.ERR_STS_CC_CE : Fld := ⟨0x10, 8, 8, .rw1c, 0, 0, 1, 0, 1⟩
def R.comb.CC_CFG_FAR_SEGS : Fld := ⟨0x100, 20, 16, .ro, 0, 0, 1, 0, 1⟩
def R.comb.CC_CFG_SCRATCH_SEGS : Fld := ⟨0x100, 13, 8, .ro, 0, 0, 1, 0, 1⟩
def R.comb.CC_CFG_CACHE_SEGS : Fld := ⟨0x100, 5, 0, .ro, 0, 0, 1, 0, 1⟩
def R.comb.TIER_CFG_DDR_CH : Fld := ⟨0x104, 15, 8, .rov, 0, 0, 1, 0, 1⟩
def R.comb.TIER_CFG_ILV : Fld := ⟨0x104, 0, 0, .rov, 0, 0, 1, 0, 1⟩
def R.comb.HIT_LO : Fld := ⟨0x108, 31, 0, .rov, 0, 0, 1, 0, 1⟩
def R.comb.HIT_HI : Fld := ⟨0x10c, 31, 0, .rov, 0, 0, 1, 0, 1⟩
def R.comb.MISS_LO : Fld := ⟨0x110, 31, 0, .rov, 0, 0, 1, 0, 1⟩
def R.comb.MISS_HI : Fld := ⟨0x114, 31, 0, .rov, 0, 0, 1, 0, 1⟩
def R.comb.DIR_STS_REMOTE_LINES : Fld := ⟨0x118, 21, 0, .rov, 0, 0, 1, 0, 1⟩
def R.comb.POISON_CNT_COUNT : Fld := ⟨0x11c, 31, 0, .rov, 0, 0, 1, 0, 1⟩
def R.comb.ILV_ROW : Fld := ⟨0x120, 31, 0, .rw, 0x55555555, 0x4, 4, 0, 1⟩
def R.comb.ILV4_ROW : Fld := ⟨0x130, 15, 0, .rw, 0x5555, 0, 1, 0, 1⟩
def R.comb.WIN_BASE_VALID : Fld := ⟨0x140, 31, 31, .ro, 0, 0x20, 8, 0x8, 4⟩
def R.comb.WIN_BASE_BASE : Fld := ⟨0x140, 30, 0, .ro, 0, 0x20, 8, 0x8, 4⟩
def R.comb.WIN_LIMIT_LIMIT : Fld := ⟨0x144, 30, 0, .ro, 0, 0x20, 8, 0x8, 4⟩
def R.comb.FAB_ID_VALID : Fld := ⟨0x400, 16, 16, .ro, 0, 0, 1, 0, 1⟩
def R.comb.FAB_ID_FID : Fld := ⟨0x400, 15, 0, .ro, 0, 0, 1, 0, 1⟩
def R.comb.FAB_VER_CAPS : Fld := ⟨0x404, 31, 16, .ro, 0, 0, 1, 0, 1⟩
def R.comb.FAB_VER_VMAX : Fld := ⟨0x404, 15, 8, .ro, 0x12, 0, 1, 0, 1⟩
def R.comb.FAB_VER_VMIN : Fld := ⟨0x404, 7, 0, .ro, 0x10, 0, 1, 0, 1⟩
def R.comb.FAB_TMO_MS : Fld := ⟨0x408, 13, 0, .rw, 0x32, 0, 1, 0, 1⟩
def R.comb.TAG_USE_IN_USE : Fld := ⟨0x40c, 14, 0, .rov, 0, 0, 1, 0, 1⟩
def R.comb.RC_USE_ENTRIES : Fld := ⟨0x410, 17, 0, .rov, 0, 0, 1, 0, 1⟩
def R.comb.PT_USE_ENTRIES : Fld := ⟨0x414, 12, 0, .rov, 0, 0, 1, 0, 1⟩
def R.comb.XT_SEL_DFID : Fld := ⟨0x418, 15, 0, .rw, 0, 0, 1, 0, 1⟩
def R.comb.XT_ENT_CAND : Fld := ⟨0x41c, 31, 0, .rov, 0, 0, 1, 0, 1⟩
def R.comb.PT_SEL_INDEX : Fld := ⟨0x420, 11, 0, .rw, 0, 0, 1, 0, 1⟩
def R.comb.PT_ENT_STATE : Fld := ⟨0x424, 31, 28, .rov, 0, 0, 1, 0, 1⟩
def R.comb.PT_ENT_VER : Fld := ⟨0x424, 23, 16, .rov, 0, 0, 1, 0, 1⟩
def R.comb.PT_ENT_FID : Fld := ⟨0x424, 15, 0, .rov, 0, 0, 1, 0, 1⟩
def R.comb.PT_CAP_CAPS : Fld := ⟨0x428, 31, 16, .rov, 0, 0, 1, 0, 1⟩
def R.comb.PT_CAP_CLASS : Fld := ⟨0x428, 15, 8, .rov, 0, 0, 1, 0, 1⟩
def R.comb.PT_CAP_NBR : Fld := ⟨0x428, 7, 7, .rov, 0, 0, 1, 0, 1⟩
def R.comb.PT_CAP_PORT : Fld := ⟨0x428, 6, 0, .rov, 0, 0, 1, 0, 1⟩
def R.comb.PT_UID_LO_UID_LO : Fld := ⟨0x42c, 31, 0, .rov, 0, 0, 1, 0, 1⟩
def R.comb.PT_UID_HI_UID_HI : Fld := ⟨0x430, 31, 0, .rov, 0, 0, 1, 0, 1⟩
def R.comb.PT_SESS_SESSION : Fld := ⟨0x434, 31, 0, .rov, 0, 0, 1, 0, 1⟩
def R.comb.FAB_EVT_CTX_BAD : Fld := ⟨0x438, 13, 13, .rw1c, 0, 0, 1, 0, 1⟩
def R.comb.FAB_EVT_MRX_FULL : Fld := ⟨0x438, 12, 12, .rw1c, 0, 0, 1, 0, 1⟩
def R.comb.FAB_EVT_COLL_BAD : Fld := ⟨0x438, 11, 11, .rw1c, 0, 0, 1, 0, 1⟩
def R.comb.FAB_EVT_DENIED : Fld := ⟨0x438, 10, 10, .rw1c, 0, 0, 1, 0, 1⟩
def R.comb.FAB_EVT_TAG_BAD : Fld := ⟨0x438, 9, 9, .rw1c, 0, 0, 1, 0, 1⟩
def R.comb.FAB_EVT_PATH_LOST : Fld := ⟨0x438, 8, 8, .rw1c, 0, 0, 1, 0, 1⟩
def R.comb.FAB_EVT_NO_ROUTE : Fld := ⟨0x438, 7, 7, .rw1c, 0, 0, 1, 0, 1⟩
def R.comb.FAB_EVT_HOPS_EXPIRED : Fld := ⟨0x438, 6, 6, .rw1c, 0, 0, 1, 0, 1⟩
def R.comb.FAB_EVT_AGED : Fld := ⟨0x438, 5, 5, .rw1c, 0, 0, 1, 0, 1⟩
def R.comb.FAB_EVT_RC_FULL : Fld := ⟨0x438, 4, 4, .rw1c, 0, 0, 1, 0, 1⟩
def R.comb.FAB_EVT_PT_FULL : Fld := ⟨0x438, 3, 3, .rw1c, 0, 0, 1, 0, 1⟩
def R.comb.FAB_EVT_FID_CLASH : Fld := ⟨0x438, 2, 2, .rw1c, 0, 0, 1, 0, 1⟩
def R.comb.FAB_EVT_VERSION_NONE : Fld := ⟨0x438, 1, 1, .rw1c, 0, 0, 1, 0, 1⟩
def R.comb.FAB_EVT_WAGGLE_TMO : Fld := ⟨0x438, 0, 0, .rw1c, 0, 0, 1, 0, 1⟩
def R.comb.FAB_EVT_MASK_MASK : Fld := ⟨0x43c, 13, 0, .rw, 0, 0, 1, 0, 1⟩
def R.comb.DUP_CNT_COUNT : Fld := ⟨0x440, 31, 0, .rov, 0, 0, 1, 0, 1⟩
def R.comb.RETRY_CNT_COUNT : Fld := ⟨0x444, 31, 0, .rov, 0, 0, 1, 0, 1⟩
def R.comb.AGED_CNT_COUNT : Fld := ⟨0x448, 31, 0, .rov, 0, 0, 1, 0, 1⟩
def R.comb.XFWD_LO : Fld := ⟨0x44c, 31, 0, .rov, 0, 0, 1, 0, 1⟩
def R.comb.XFWD_HI : Fld := ⟨0x450, 31, 0, .rov, 0, 0, 1, 0, 1⟩
def R.comb.COLL_DROP_COUNT : Fld := ⟨0x454, 31, 0, .rov, 0, 0, 1, 0, 1⟩
def R.comb.PF_TAG_VALID : Fld := ⟨0x500, 16, 16, .ro, 0, 0x20, 8, 0, 1⟩
def R.comb.PF_TAG_TAG : Fld := ⟨0x500, 15, 0, .ro, 0, 0x20, 8, 0, 1⟩
def R.comb.PF_SWARM_CNT : Fld := ⟨0x504, 24, 16, .ro, 0, 0x20, 8, 0, 1⟩
def R.comb.PF_SWARM_FIRST : Fld := ⟨0x504, 7, 0, .ro, 0, 0x20, 8, 0, 1⟩
def R.comb.PF_PORTS_PORTS : Fld := ⟨0x508, 31, 0, .ro, 0, 0x20, 8, 0x4, 4⟩
def R.comb.PF_CTX_LO_ADDR : Fld := ⟨0x518, 31, 6, .rw, 0, 0x20, 8, 0, 1⟩
def R.comb.PF_CTX_LO_LOAD : Fld := ⟨0x518, 0, 0, .w1s, 0, 0x20, 8, 0, 1⟩
def R.comb.PF_CTX_HI_ADDR : Fld := ⟨0x51c, 19, 0, .rw, 0, 0x20, 8, 0, 1⟩
def R.comb.MRX_PROD_PROD : Fld := ⟨0x600, 31, 0, .rov, 0, 0x8, 8, 0, 1⟩
def R.comb.MRX_CONS_CONS : Fld := ⟨0x604, 31, 0, .rw, 0, 0x8, 8, 0, 1⟩
def R.comb.FCR_DB_W_TAIL : Fld := ⟨0xc00, 15, 0, .wo, 0, 0x4, 8, 0, 1⟩
def R.comb.FCR_DB_R_STATE : Fld := ⟨0xc00, 31, 28, .rov, 0, 0x4, 8, 0, 1⟩
def R.comb.FCR_DB_R_CONS : Fld := ⟨0xc00, 15, 0, .rov, 0, 0x4, 8, 0, 1⟩
def R.comb.ERR_RING_LO_ADDR : Fld := ⟨0x700, 31, 12, .rw, 0, 0, 1, 0, 1⟩
def R.comb.ERR_RING_HI_ADDR : Fld := ⟨0x704, 19, 0, .rw, 0, 0, 1, 0, 1⟩
def R.comb.ERR_RING_CTL_ENABLE : Fld := ⟨0x708, 31, 31, .rw, 0, 0, 1, 0, 1⟩
def R.comb.ERR_RING_CTL_LOG2 : Fld := ⟨0x708, 4, 0, .rw, 0, 0, 1, 0, 1⟩
def R.comb.ERR_PROD_PROD : Fld := ⟨0x70c, 31, 0, .rov, 0, 0, 1, 0, 1⟩
def R.comb.ERR_CONS_CONS : Fld := ⟨0x710, 31, 0, .rw, 0, 0, 1, 0, 1⟩
def R.comb.ERR_RING_STS_LOST : Fld := ⟨0x714, 31, 16, .rov, 0, 0, 1, 0, 1⟩
def R.comb.ERR_RING_STS_HELD : Fld := ⟨0x714, 15, 8, .rov, 0, 0, 1, 0, 1⟩
def R.comb.ERR_RING_STS_CFG_BAD : Fld := ⟨0x714, 1, 1, .rw1c, 0, 0, 1, 0, 1⟩
def R.comb.ERR_RING_STS_FULL : Fld := ⟨0x714, 0, 0, .rov, 0, 0, 1, 0, 1⟩
def R.comb.ERR_VEC_EN : Fld := ⟨0x718, 31, 31, .rw, 0, 0, 1, 0, 1⟩
def R.comb.ERR_VEC_FN : Fld := ⟨0x718, 11, 11, .rw, 0, 0, 1, 0, 1⟩
def R.comb.ERR_VEC_VEC : Fld := ⟨0x718, 10, 0, .rw, 0, 0, 1, 0, 1⟩
def R.comb.FATAL_CNT_COUNT : Fld := ⟨0x71c, 31, 0, .rov, 0, 0, 1, 0, 1⟩
def R.comb.ALL_CNT_COUNT : Fld := ⟨0x720, 31, 0, .rov, 0, 0, 1, 0, 1⟩
def R.comb.COALESCED_COUNT : Fld := ⟨0x724, 31, 0, .rov, 0, 0, 1, 0, 1⟩
/-- Fields of the COMB page. -/
def R.comb.all : List Fld :=
  [R.comb.BLK_CAP_DB_PRESENT, R.comb.BLK_CAP_RESET_OK, R.comb.BLK_CTL_EN, R.comb.BLK_STS_MODE,
    R.comb.ERR_STS_WIN_DENY, R.comb.ERR_STS_ILV_BAD, R.comb.ERR_STS_HINGE_POISON, R.comb.ERR_STS_TAG_CE,
    R.comb.ERR_STS_CC_UE_DIRTY, R.comb.ERR_STS_CC_UE_CLEAN, R.comb.ERR_STS_CC_CE, R.comb.CC_CFG_FAR_SEGS,
    R.comb.CC_CFG_SCRATCH_SEGS, R.comb.CC_CFG_CACHE_SEGS, R.comb.TIER_CFG_DDR_CH, R.comb.TIER_CFG_ILV,
    R.comb.HIT_LO, R.comb.HIT_HI, R.comb.MISS_LO, R.comb.MISS_HI, R.comb.DIR_STS_REMOTE_LINES,
    R.comb.POISON_CNT_COUNT, R.comb.ILV_ROW, R.comb.ILV4_ROW, R.comb.WIN_BASE_VALID, R.comb.WIN_BASE_BASE,
    R.comb.WIN_LIMIT_LIMIT, R.comb.FAB_ID_VALID, R.comb.FAB_ID_FID, R.comb.FAB_VER_CAPS, R.comb.FAB_VER_VMAX,
    R.comb.FAB_VER_VMIN, R.comb.FAB_TMO_MS, R.comb.TAG_USE_IN_USE, R.comb.RC_USE_ENTRIES, R.comb.PT_USE_ENTRIES,
    R.comb.XT_SEL_DFID, R.comb.XT_ENT_CAND, R.comb.PT_SEL_INDEX, R.comb.PT_ENT_STATE, R.comb.PT_ENT_VER,
    R.comb.PT_ENT_FID, R.comb.PT_CAP_CAPS, R.comb.PT_CAP_CLASS, R.comb.PT_CAP_NBR, R.comb.PT_CAP_PORT,
    R.comb.PT_UID_LO_UID_LO, R.comb.PT_UID_HI_UID_HI, R.comb.PT_SESS_SESSION, R.comb.FAB_EVT_CTX_BAD,
    R.comb.FAB_EVT_MRX_FULL, R.comb.FAB_EVT_COLL_BAD, R.comb.FAB_EVT_DENIED, R.comb.FAB_EVT_TAG_BAD,
    R.comb.FAB_EVT_PATH_LOST, R.comb.FAB_EVT_NO_ROUTE, R.comb.FAB_EVT_HOPS_EXPIRED, R.comb.FAB_EVT_AGED,
    R.comb.FAB_EVT_RC_FULL, R.comb.FAB_EVT_PT_FULL] ++
  [R.comb.FAB_EVT_FID_CLASH, R.comb.FAB_EVT_VERSION_NONE, R.comb.FAB_EVT_WAGGLE_TMO, R.comb.FAB_EVT_MASK_MASK,
    R.comb.DUP_CNT_COUNT, R.comb.RETRY_CNT_COUNT, R.comb.AGED_CNT_COUNT, R.comb.XFWD_LO, R.comb.XFWD_HI,
    R.comb.COLL_DROP_COUNT, R.comb.PF_TAG_VALID, R.comb.PF_TAG_TAG, R.comb.PF_SWARM_CNT, R.comb.PF_SWARM_FIRST,
    R.comb.PF_PORTS_PORTS, R.comb.PF_CTX_LO_ADDR, R.comb.PF_CTX_LO_LOAD, R.comb.PF_CTX_HI_ADDR,
    R.comb.MRX_PROD_PROD, R.comb.MRX_CONS_CONS, R.comb.FCR_DB_W_TAIL, R.comb.FCR_DB_R_STATE,
    R.comb.FCR_DB_R_CONS, R.comb.ERR_RING_LO_ADDR, R.comb.ERR_RING_HI_ADDR, R.comb.ERR_RING_CTL_ENABLE,
    R.comb.ERR_RING_CTL_LOG2, R.comb.ERR_PROD_PROD, R.comb.ERR_CONS_CONS, R.comb.ERR_RING_STS_LOST,
    R.comb.ERR_RING_STS_HELD, R.comb.ERR_RING_STS_CFG_BAD, R.comb.ERR_RING_STS_FULL, R.comb.ERR_VEC_EN,
    R.comb.ERR_VEC_FN, R.comb.ERR_VEC_VEC, R.comb.FATAL_CNT_COUNT, R.comb.ALL_CNT_COUNT, R.comb.COALESCED_COUNT]

/-! HBMC page. -/

def R.hbmc.BLK_CAP_PPR : Fld := ⟨0x4, 2, 2, .ro, 1, 0, 1, 0, 1⟩
def R.hbmc.BLK_CAP_DB_PRESENT : Fld := ⟨0x4, 1, 1, .ro, 0, 0, 1, 0, 1⟩
def R.hbmc.BLK_CAP_RESET_OK : Fld := ⟨0x4, 0, 0, .ro, 0, 0, 1, 0, 1⟩
def R.hbmc.BLK_CTL_RETRAIN : Fld := ⟨0x8, 8, 8, .w1s, 0, 0, 1, 0, 1⟩
def R.hbmc.BLK_CTL_EN : Fld := ⟨0x8, 0, 0, .ro, 1, 0, 1, 0, 1⟩
def R.hbmc.BLK_STS_STATE : Fld := ⟨0xc, 11, 8, .rov, 0, 0, 1, 0, 1⟩
def R.hbmc.ERR_STS_STACK_FAIL : Fld := ⟨0x10, 14, 14, .rw1c, 0, 0, 1, 0, 1⟩
def R.hbmc.ERR_STS_SLICE_RETIRED : Fld := ⟨0x10, 13, 13, .rw1c, 0, 0, 1, 0, 1⟩
def R.hbmc.ERR_STS_RETIRED_WR : Fld := ⟨0x10, 12, 12, .rw1c, 0, 0, 1, 0, 1⟩
def R.hbmc.ERR_STS_TRAIN_FAIL : Fld := ⟨0x10, 11, 11, .rw1c, 0, 0, 1, 0, 1⟩
def R.hbmc.ERR_STS_PPR_DONE : Fld := ⟨0x10, 10, 10, .rw1c, 0, 0, 1, 0, 1⟩
def R.hbmc.ERR_STS_UE : Fld := ⟨0x10, 9, 9, .rw1c, 0, 0, 1, 0, 1⟩
def R.hbmc.ERR_STS_CE : Fld := ⟨0x10, 8, 8, .rw1c, 0, 0, 1, 0, 1⟩
def R.hbmc.HBM_CFG_RATE : Fld := ⟨0x100, 15, 8, .rov, 0, 0, 1, 0, 1⟩
def R.hbmc.HBM_CFG_CAP_GIB : Fld := ⟨0x100, 7, 0, .ro, 0x48, 0, 1, 0, 1⟩
def R.hbmc.TRAIN_Q_EYE_MIN : Fld := ⟨0x104, 23, 16, .rov, 0, 0, 1, 0, 1⟩
def R.hbmc.TRAIN_Q_TRAIN_MS : Fld := ⟨0x104, 15, 0, .rov, 0, 0, 1, 0, 1⟩
def R.hbmc.CE_CNT_COUNT : Fld := ⟨0x108, 31, 0, .rov, 0, 0, 1, 0, 1⟩
def R.hbmc.UE_CNT_COUNT : Fld := ⟨0x10c, 31, 0, .rov, 0, 0, 1, 0, 1⟩
def R.hbmc.RET_MASK0_SLICES : Fld := ⟨0x110, 31, 0, .rov, 0, 0, 1, 0, 1⟩
def R.hbmc.RET_MASK1_SLICES : Fld := ⟨0x114, 31, 0, .rov, 0, 0, 1, 0, 1⟩
def R.hbmc.RET_MASK2_SLICES : Fld := ⟨0x118, 7, 0, .rov, 0, 0, 1, 0, 1⟩
def R.hbmc.PPR_STS_USED : Fld := ⟨0x11c, 15, 8, .rov, 0, 0, 1, 0, 1⟩
def R.hbmc.PPR_STS_LEFT : Fld := ⟨0x11c, 7, 0, .rov, 0, 0, 1, 0, 1⟩
def R.hbmc.SCRUB_PASSES : Fld := ⟨0x120, 31, 16, .rov, 0, 0, 1, 0, 1⟩
def R.hbmc.SCRUB_POS : Fld := ⟨0x120, 15, 0, .rov, 0, 0, 1, 0, 1⟩
def R.hbmc.TEMP_DEG_C : Fld := ⟨0x124, 7, 0, .rov, 0, 0, 1, 0, 1⟩
/-- Fields of the HBMC page. -/
def R.hbmc.all : List Fld :=
  [R.hbmc.BLK_CAP_PPR, R.hbmc.BLK_CAP_DB_PRESENT, R.hbmc.BLK_CAP_RESET_OK, R.hbmc.BLK_CTL_RETRAIN,
    R.hbmc.BLK_CTL_EN, R.hbmc.BLK_STS_STATE, R.hbmc.ERR_STS_STACK_FAIL, R.hbmc.ERR_STS_SLICE_RETIRED,
    R.hbmc.ERR_STS_RETIRED_WR, R.hbmc.ERR_STS_TRAIN_FAIL, R.hbmc.ERR_STS_PPR_DONE, R.hbmc.ERR_STS_UE,
    R.hbmc.ERR_STS_CE, R.hbmc.HBM_CFG_RATE, R.hbmc.HBM_CFG_CAP_GIB, R.hbmc.TRAIN_Q_EYE_MIN,
    R.hbmc.TRAIN_Q_TRAIN_MS, R.hbmc.CE_CNT_COUNT, R.hbmc.UE_CNT_COUNT, R.hbmc.RET_MASK0_SLICES,
    R.hbmc.RET_MASK1_SLICES, R.hbmc.RET_MASK2_SLICES, R.hbmc.PPR_STS_USED, R.hbmc.PPR_STS_LEFT,
    R.hbmc.SCRUB_PASSES, R.hbmc.SCRUB_POS, R.hbmc.TEMP_DEG_C]

/-! DDRC page. -/

def R.ddrc.BLK_CAP_DB_PRESENT : Fld := ⟨0x4, 1, 1, .ro, 0, 0, 1, 0, 1⟩
def R.ddrc.BLK_CAP_RESET_OK : Fld := ⟨0x4, 0, 0, .ro, 0, 0, 1, 0, 1⟩
def R.ddrc.BLK_CTL_EN : Fld := ⟨0x8, 0, 0, .ro, 1, 0, 1, 0, 1⟩
def R.ddrc.BLK_STS_STATE : Fld := ⟨0xc, 11, 8, .rov, 0, 0, 1, 0, 1⟩
def R.ddrc.ERR_STS_DIMM_ALERT : Fld := ⟨0x10, 13, 13, .rw1c, 0, 0, 1, 0, 1⟩
def R.ddrc.ERR_STS_NO_SPD : Fld := ⟨0x10, 12, 12, .rw1c, 0, 0, 1, 0, 1⟩
def R.ddrc.ERR_STS_TRAIN_FAIL : Fld := ⟨0x10, 11, 11, .rw1c, 0, 0, 1, 0, 1⟩
def R.ddrc.ERR_STS_PPR_DONE : Fld := ⟨0x10, 10, 10, .rw1c, 0, 0, 1, 0, 1⟩
def R.ddrc.ERR_STS_UE : Fld := ⟨0x10, 9, 9, .rw1c, 0, 0, 1, 0, 1⟩
def R.ddrc.ERR_STS_CE : Fld := ⟨0x10, 8, 8, .rw1c, 0, 0, 1, 0, 1⟩
def R.ddrc.DIMM_CFG_CAP_GIB : Fld := ⟨0x100, 25, 16, .rov, 0, 0, 1, 0, 1⟩
def R.ddrc.DIMM_CFG_RANKS : Fld := ⟨0x100, 15, 12, .rov, 0, 0, 1, 0, 1⟩
def R.ddrc.DIMM_CFG_DEV_WIDTH : Fld := ⟨0x100, 11, 8, .rov, 0, 0, 1, 0, 1⟩
def R.ddrc.DIMM_CFG_MTS : Fld := ⟨0x100, 7, 0, .rov, 0, 0, 1, 0, 1⟩
def R.ddrc.CE_CNT_COUNT : Fld := ⟨0x104, 31, 0, .rov, 0, 0, 1, 0, 1⟩
def R.ddrc.UE_CNT_COUNT : Fld := ⟨0x108, 31, 0, .rov, 0, 0, 1, 0, 1⟩
def R.ddrc.TRAIN_Q_EYE_MIN : Fld := ⟨0x10c, 15, 8, .rov, 0, 0, 1, 0, 1⟩
def R.ddrc.TRAIN_Q_TRAIN_100MS : Fld := ⟨0x10c, 7, 0, .rov, 0, 0, 1, 0, 1⟩
def R.ddrc.SCRUB_PASSES : Fld := ⟨0x110, 31, 16, .rov, 0, 0, 1, 0, 1⟩
def R.ddrc.SCRUB_POS : Fld := ⟨0x110, 15, 0, .rov, 0, 0, 1, 0, 1⟩
/-- Fields of the DDRC page. -/
def R.ddrc.all : List Fld :=
  [R.ddrc.BLK_CAP_DB_PRESENT, R.ddrc.BLK_CAP_RESET_OK, R.ddrc.BLK_CTL_EN, R.ddrc.BLK_STS_STATE,
    R.ddrc.ERR_STS_DIMM_ALERT, R.ddrc.ERR_STS_NO_SPD, R.ddrc.ERR_STS_TRAIN_FAIL, R.ddrc.ERR_STS_PPR_DONE,
    R.ddrc.ERR_STS_UE, R.ddrc.ERR_STS_CE, R.ddrc.DIMM_CFG_CAP_GIB, R.ddrc.DIMM_CFG_RANKS,
    R.ddrc.DIMM_CFG_DEV_WIDTH, R.ddrc.DIMM_CFG_MTS, R.ddrc.CE_CNT_COUNT, R.ddrc.UE_CNT_COUNT,
    R.ddrc.TRAIN_Q_EYE_MIN, R.ddrc.TRAIN_Q_TRAIN_100MS, R.ddrc.SCRUB_PASSES, R.ddrc.SCRUB_POS]

/-! HINGE and UCIE pages (05 R171). -/

def R.dlink.BLK_CAP_RATES : Fld := ⟨0x4, 5, 3, .ro, 7, 0, 1, 0, 1⟩
def R.dlink.BLK_CAP_HALF_WIDTH : Fld := ⟨0x4, 2, 2, .ro, 1, 0, 1, 0, 1⟩
def R.dlink.BLK_CAP_DB_PRESENT : Fld := ⟨0x4, 1, 1, .ro, 0, 0, 1, 0, 1⟩
def R.dlink.BLK_CAP_RESET_OK : Fld := ⟨0x4, 0, 0, .ro, 1, 0, 1, 0, 1⟩
def R.dlink.BLK_CTL_RETRAIN_FULL : Fld := ⟨0x8, 8, 8, .w1s, 0, 0, 1, 0, 1⟩
def R.dlink.BLK_CTL_RESET : Fld := ⟨0x8, 1, 1, .w1s, 0, 0, 1, 0, 1⟩
def R.dlink.BLK_CTL_EN : Fld := ⟨0x8, 0, 0, .ro, 1, 0, 1, 0, 1⟩
def R.dlink.BLK_STS_STATE : Fld := ⟨0xc, 15, 12, .rov, 0, 0, 1, 0, 1⟩
def R.dlink.BLK_STS_RATE_ROLE : Fld := ⟨0xc, 11, 10, .rov, 0, 0, 1, 0, 1⟩
def R.dlink.BLK_STS_X32 : Fld := ⟨0xc, 9, 9, .rov, 0, 0, 1, 0, 1⟩
def R.dlink.ERR_STS_BROKEN : Fld := ⟨0x10, 13, 13, .rw1c, 0, 0, 1, 0, 1⟩
def R.dlink.ERR_STS_HALF_WIDTH : Fld := ⟨0x10, 12, 12, .rw1c, 0, 0, 1, 0, 1⟩
def R.dlink.ERR_STS_LANE_SPARED : Fld := ⟨0x10, 11, 11, .rw1c, 0, 0, 1, 0, 1⟩
def R.dlink.ERR_STS_CRC_ERR : Fld := ⟨0x10, 10, 10, .rw1c, 0, 0, 1, 0, 1⟩
def R.dlink.ERR_STS_NEG_FAIL : Fld := ⟨0x10, 9, 9, .rw1c, 0, 0, 1, 0, 1⟩
def R.dlink.ERR_STS_TRAIN_FAIL : Fld := ⟨0x10, 8, 8, .rw1c, 0, 0, 1, 0, 1⟩
def R.dlink.LANE_STS_FAILED : Fld := ⟨0x100, 15, 8, .rov, 0, 0, 1, 0, 1⟩
def R.dlink.LANE_STS_TX_SPARES : Fld := ⟨0x100, 7, 4, .rov, 4, 0, 1, 0, 1⟩
def R.dlink.LANE_STS_RX_SPARES : Fld := ⟨0x100, 3, 0, .rov, 4, 0, 1, 0, 1⟩
def R.dlink.SPARE_MAP_LANES : Fld := ⟨0x104, 31, 0, .rov, 0xffffffff, 0, 1, 0, 1⟩
def R.dlink.CRC_CNT_COUNT : Fld := ⟨0x108, 31, 0, .rov, 0, 0, 1, 0, 1⟩
def R.dlink.REPLAY_CNT_COUNT : Fld := ⟨0x10c, 31, 0, .rov, 0, 0, 1, 0, 1⟩
def R.dlink.TRAIN_Q_EYE_MIN : Fld := ⟨0x110, 23, 16, .rov, 0, 0, 1, 0, 1⟩
def R.dlink.TRAIN_Q_TRAIN_US : Fld := ⟨0x110, 15, 0, .rov, 0, 0, 1, 0, 1⟩
def R.dlink.CREDIT_PEND_US : Fld := ⟨0x114, 10, 0, .rov, 0, 0, 1, 0, 1⟩
def R.dlink.PARTNER_ID_VENDOR : Fld := ⟨0x118, 31, 16, .rov, 0, 0, 1, 0, 1⟩
def R.dlink.PARTNER_ID_DEVICE : Fld := ⟨0x118, 15, 0, .rov, 0, 0, 1, 0, 1⟩
def R.dlink.PARTNER_CAP_MAJOR : Fld := ⟨0x11c, 31, 24, .rov, 0, 0, 1, 0, 1⟩
def R.dlink.PARTNER_CAP_MINOR : Fld := ⟨0x11c, 23, 16, .rov, 0, 0, 1, 0, 1⟩
def R.dlink.PARTNER_CAP_CAPS : Fld := ⟨0x11c, 15, 0, .rov, 0, 0, 1, 0, 1⟩
/-- Fields of the HINGE and UCIE pages (05 R171). -/
def R.dlink.all : List Fld :=
  [R.dlink.BLK_CAP_RATES, R.dlink.BLK_CAP_HALF_WIDTH, R.dlink.BLK_CAP_DB_PRESENT, R.dlink.BLK_CAP_RESET_OK,
    R.dlink.BLK_CTL_RETRAIN_FULL, R.dlink.BLK_CTL_RESET, R.dlink.BLK_CTL_EN, R.dlink.BLK_STS_STATE,
    R.dlink.BLK_STS_RATE_ROLE, R.dlink.BLK_STS_X32, R.dlink.ERR_STS_BROKEN, R.dlink.ERR_STS_HALF_WIDTH,
    R.dlink.ERR_STS_LANE_SPARED, R.dlink.ERR_STS_CRC_ERR, R.dlink.ERR_STS_NEG_FAIL, R.dlink.ERR_STS_TRAIN_FAIL,
    R.dlink.LANE_STS_FAILED, R.dlink.LANE_STS_TX_SPARES, R.dlink.LANE_STS_RX_SPARES, R.dlink.SPARE_MAP_LANES,
    R.dlink.CRC_CNT_COUNT, R.dlink.REPLAY_CNT_COUNT, R.dlink.TRAIN_Q_EYE_MIN, R.dlink.TRAIN_Q_TRAIN_US,
    R.dlink.CREDIT_PEND_US, R.dlink.PARTNER_ID_VENDOR, R.dlink.PARTNER_ID_DEVICE, R.dlink.PARTNER_CAP_MAJOR,
    R.dlink.PARTNER_CAP_MINOR, R.dlink.PARTNER_CAP_CAPS]

/-! FWALL page. -/

def R.fwall.BLK_CAP_DB_PRESENT : Fld := ⟨0x4, 1, 1, .ro, 0, 0, 1, 0, 1⟩
def R.fwall.BLK_CAP_RESET_OK : Fld := ⟨0x4, 0, 0, .ro, 0, 0, 1, 0, 1⟩
def R.fwall.BLK_CTL_EN : Fld := ⟨0x8, 0, 0, .ro, 1, 0, 1, 0, 1⟩
def R.fwall.BLK_STS_FENCED_OE : Fld := ⟨0xc, 15, 8, .rov, 0, 0, 1, 0, 1⟩
def R.fwall.ERR_STS_OE_FENCED : Fld := ⟨0x10, 9, 9, .rw1c, 0, 0, 1, 0, 1⟩
def R.fwall.ERR_STS_VIOLATION : Fld := ⟨0x10, 8, 8, .rw1c, 0, 0, 1, 0, 1⟩
def R.fwall.FW_SEL_OE : Fld := ⟨0x100, 7, 5, .rw, 0, 0, 1, 0, 1⟩
def R.fwall.FW_SEL_WIN : Fld := ⟨0x100, 4, 0, .rw, 0, 0, 1, 0, 1⟩
def R.fwall.WBASE_LO_BASE : Fld := ⟨0x104, 31, 0, .rov, 0, 0, 1, 0, 1⟩
def R.fwall.WBASE_HI_BASE : Fld := ⟨0x108, 7, 0, .rov, 0, 0, 1, 0, 1⟩
def R.fwall.WLIMIT_LO_LIMIT : Fld := ⟨0x10c, 31, 0, .rov, 0, 0, 1, 0, 1⟩
def R.fwall.WLIMIT_HI_LIMIT : Fld := ⟨0x110, 7, 0, .rov, 0, 0, 1, 0, 1⟩
def R.fwall.WCTL_VALID : Fld := ⟨0x114, 2, 2, .rov, 0, 0, 1, 0, 1⟩
def R.fwall.WCTL_WR : Fld := ⟨0x114, 1, 1, .rov, 0, 0, 1, 0, 1⟩
def R.fwall.WCTL_RD : Fld := ⟨0x114, 0, 0, .rov, 0, 0, 1, 0, 1⟩
def R.fwall.VIOL_CNT0_COUNT : Fld := ⟨0x118, 31, 0, .rov, 0, 0, 1, 0, 1⟩
def R.fwall.VIOL_CNT1_COUNT : Fld := ⟨0x11c, 31, 0, .rov, 0, 0, 1, 0, 1⟩
def R.fwall.VIOL_ADDR_LO_ADDR : Fld := ⟨0x120, 31, 0, .rov, 0, 0, 1, 0, 1⟩
def R.fwall.VIOL_ADDR_HI_ADDR : Fld := ⟨0x124, 19, 0, .rov, 0, 0, 1, 0, 1⟩
def R.fwall.VIOL_INFO_OE : Fld := ⟨0x128, 31, 29, .rov, 0, 0, 1, 0, 1⟩
def R.fwall.VIOL_INFO_KIND : Fld := ⟨0x128, 19, 16, .rov, 0, 0, 1, 0, 1⟩
def R.fwall.VIOL_INFO_TOTAL : Fld := ⟨0x128, 15, 0, .rov, 0, 0, 1, 0, 1⟩
/-- Fields of the FWALL page. -/
def R.fwall.all : List Fld :=
  [R.fwall.BLK_CAP_DB_PRESENT, R.fwall.BLK_CAP_RESET_OK, R.fwall.BLK_CTL_EN, R.fwall.BLK_STS_FENCED_OE,
    R.fwall.ERR_STS_OE_FENCED, R.fwall.ERR_STS_VIOLATION, R.fwall.FW_SEL_OE, R.fwall.FW_SEL_WIN,
    R.fwall.WBASE_LO_BASE, R.fwall.WBASE_HI_BASE, R.fwall.WLIMIT_LO_LIMIT, R.fwall.WLIMIT_HI_LIMIT,
    R.fwall.WCTL_VALID, R.fwall.WCTL_WR, R.fwall.WCTL_RD, R.fwall.VIOL_CNT0_COUNT, R.fwall.VIOL_CNT1_COUNT,
    R.fwall.VIOL_ADDR_LO_ADDR, R.fwall.VIOL_ADDR_HI_ADDR, R.fwall.VIOL_INFO_OE, R.fwall.VIOL_INFO_KIND,
    R.fwall.VIOL_INFO_TOTAL]

/-! CELL page. -/

def R.cell.BLK_CAP_SR : Fld := ⟨0x4, 9, 9, .ro, 1, 0, 1, 0, 1⟩
def R.cell.BLK_CAP_LB4 : Fld := ⟨0x4, 8, 8, .ro, 1, 0, 1, 0, 1⟩
def R.cell.BLK_CAP_MX64 : Fld := ⟨0x4, 7, 7, .ro, 1, 0, 1, 0, 1⟩
def R.cell.BLK_CAP_MX8 : Fld := ⟨0x4, 6, 6, .ro, 1, 0, 1, 0, 1⟩
def R.cell.BLK_CAP_SPARSE24 : Fld := ⟨0x4, 5, 5, .ro, 1, 0, 1, 0, 1⟩
def R.cell.BLK_CAP_FP16BF16 : Fld := ⟨0x4, 4, 4, .ro, 1, 0, 1, 0, 1⟩
def R.cell.BLK_CAP_INT8 : Fld := ⟨0x4, 3, 3, .ro, 1, 0, 1, 0, 1⟩
def R.cell.BLK_CAP_FP8 : Fld := ⟨0x4, 2, 2, .ro, 1, 0, 1, 0, 1⟩
def R.cell.BLK_CAP_DB_PRESENT : Fld := ⟨0x4, 1, 1, .ro, 0, 0, 1, 0, 1⟩
def R.cell.BLK_CAP_RESET_OK : Fld := ⟨0x4, 0, 0, .ro, 1, 0, 1, 0, 1⟩
def R.cell.BLK_CTL_RETIRE_REQ : Fld := ⟨0x8, 8, 8, .w1s, 0, 0, 1, 0, 1⟩
def R.cell.BLK_CTL_RESET : Fld := ⟨0x8, 1, 1, .w1s, 0, 0, 1, 0, 1⟩
def R.cell.BLK_CTL_EN : Fld := ⟨0x8, 0, 0, .rw, 1, 0, 1, 0, 1⟩
def R.cell.BLK_STS_STATE : Fld := ⟨0xc, 15, 12, .rov, 1, 0, 1, 0, 1⟩
def R.cell.BLK_STS_BUSY : Fld := ⟨0xc, 11, 8, .rov, 0, 0, 1, 0, 1⟩
def R.cell.ERR_STS_MEM_ERR : Fld := ⟨0x10, 13, 13, .rw1c, 0, 0, 1, 0, 1⟩
def R.cell.ERR_STS_SPARSE_META : Fld := ⟨0x10, 12, 12, .rw1c, 0, 0, 1, 0, 1⟩
def R.cell.ERR_STS_ME_PARITY : Fld := ⟨0x10, 11, 11, .rw1c, 0, 0, 1, 0, 1⟩
def R.cell.ERR_STS_CS_UE : Fld := ⟨0x10, 10, 10, .rw1c, 0, 0, 1, 0, 1⟩
def R.cell.ERR_STS_CS_CE : Fld := ⟨0x10, 9, 9, .rw1c, 0, 0, 1, 0, 1⟩
def R.cell.ERR_STS_ILLEGAL : Fld := ⟨0x10, 8, 8, .rw1c, 0, 0, 1, 0, 1⟩
def R.cell.CELL_ID_PHYS : Fld := ⟨0x100, 24, 16, .ro, 0, 0, 1, 0, 1⟩
def R.cell.CELL_ID_MAPPED : Fld := ⟨0x100, 8, 8, .rov, 0, 0, 1, 0, 1⟩
def R.cell.CELL_ID_LOGICAL_ID : Fld := ⟨0x100, 7, 0, .rov, 0, 0, 1, 0, 1⟩
def R.cell.CELL_CLK_MHZ : Fld := ⟨0x104, 15, 0, .rov, 0x258, 0, 1, 0, 1⟩
def R.cell.ERR_INFO_CAUSE : Fld := ⟨0x108, 31, 24, .rov, 0, 0, 1, 0, 1⟩
def R.cell.ERR_INFO_PC : Fld := ⟨0x108, 19, 0, .rov, 0, 0, 1, 0, 1⟩
def R.cell.CELL_FLAGS_SCALE_CLAMP : Fld := ⟨0x10c, 6, 6, .rw1c, 0, 0, 1, 0, 1⟩
def R.cell.CELL_FLAGS_INT_SAT : Fld := ⟨0x10c, 5, 5, .rw1c, 0, 0, 1, 0, 1⟩
def R.cell.CELL_FLAGS_UNDERFLOW : Fld := ⟨0x10c, 4, 4, .rw1c, 0, 0, 1, 0, 1⟩
def R.cell.CELL_FLAGS_NAN_OUT : Fld := ⟨0x10c, 3, 3, .rw1c, 0, 0, 1, 0, 1⟩
def R.cell.CELL_FLAGS_OVF_INF : Fld := ⟨0x10c, 2, 2, .rw1c, 0, 0, 1, 0, 1⟩
def R.cell.CELL_FLAGS_OVF_SAT : Fld := ⟨0x10c, 1, 1, .rw1c, 0, 0, 1, 0, 1⟩
def R.cell.CELL_FLAGS_ACC_INEXACT : Fld := ⟨0x10c, 0, 0, .rw1c, 0, 0, 1, 0, 1⟩
def R.cell.PC : Fld := ⟨0x110, 19, 0, .rov, 0, 0, 1, 0, 1⟩
def R.cell.TOKENS_DONE : Fld := ⟨0x114, 15, 0, .rov, 0xffff, 0, 1, 0, 1⟩
def R.cell.BUSY_LO : Fld := ⟨0x118, 31, 0, .rov, 0, 0, 1, 0, 1⟩
def R.cell.BUSY_HI : Fld := ⟨0x11c, 31, 0, .rov, 0, 0, 1, 0, 1⟩
def R.cell.PASSES_LO : Fld := ⟨0x120, 31, 0, .rov, 0, 0, 1, 0, 1⟩
def R.cell.PASSES_HI : Fld := ⟨0x124, 31, 0, .rov, 0, 0, 1, 0, 1⟩
/-- Fields of the CELL page. -/
def R.cell.all : List Fld :=
  [R.cell.BLK_CAP_SR, R.cell.BLK_CAP_LB4, R.cell.BLK_CAP_MX64, R.cell.BLK_CAP_MX8, R.cell.BLK_CAP_SPARSE24,
    R.cell.BLK_CAP_FP16BF16, R.cell.BLK_CAP_INT8, R.cell.BLK_CAP_FP8, R.cell.BLK_CAP_DB_PRESENT,
    R.cell.BLK_CAP_RESET_OK, R.cell.BLK_CTL_RETIRE_REQ, R.cell.BLK_CTL_RESET, R.cell.BLK_CTL_EN,
    R.cell.BLK_STS_STATE, R.cell.BLK_STS_BUSY, R.cell.ERR_STS_MEM_ERR, R.cell.ERR_STS_SPARSE_META,
    R.cell.ERR_STS_ME_PARITY, R.cell.ERR_STS_CS_UE, R.cell.ERR_STS_CS_CE, R.cell.ERR_STS_ILLEGAL,
    R.cell.CELL_ID_PHYS, R.cell.CELL_ID_MAPPED, R.cell.CELL_ID_LOGICAL_ID, R.cell.CELL_CLK_MHZ,
    R.cell.ERR_INFO_CAUSE, R.cell.ERR_INFO_PC, R.cell.CELL_FLAGS_SCALE_CLAMP, R.cell.CELL_FLAGS_INT_SAT,
    R.cell.CELL_FLAGS_UNDERFLOW, R.cell.CELL_FLAGS_NAN_OUT, R.cell.CELL_FLAGS_OVF_INF, R.cell.CELL_FLAGS_OVF_SAT,
    R.cell.CELL_FLAGS_ACC_INEXACT, R.cell.PC, R.cell.TOKENS_DONE, R.cell.BUSY_LO, R.cell.BUSY_HI,
    R.cell.PASSES_LO, R.cell.PASSES_HI]

/-! SEQ page. -/

def R.seq.BLK_CAP_DB_PRESENT : Fld := ⟨0x4, 1, 1, .ro, 1, 0, 1, 0, 1⟩
def R.seq.BLK_CAP_RESET_OK : Fld := ⟨0x4, 0, 0, .ro, 0, 0, 1, 0, 1⟩
def R.seq.BLK_CTL_EN : Fld := ⟨0x8, 0, 0, .rw, 1, 0, 1, 0, 1⟩
def R.seq.BLK_STS_STATE : Fld := ⟨0xc, 11, 8, .rov, 0, 0, 1, 0, 1⟩
def R.seq.ERR_STS_DESC_UE : Fld := ⟨0x10, 12, 12, .rw1c, 0, 0, 1, 0, 1⟩
def R.seq.ERR_STS_QCT_ERR : Fld := ⟨0x10, 11, 11, .rw1c, 0, 0, 1, 0, 1⟩
def R.seq.ERR_STS_TAIL_RANGE : Fld := ⟨0x10, 10, 10, .rw1c, 0, 0, 1, 0, 1⟩
def R.seq.ERR_STS_Q_CMD_BAD : Fld := ⟨0x10, 9, 9, .rw1c, 0, 0, 1, 0, 1⟩
def R.seq.ERR_STS_CMPL_ERR : Fld := ⟨0x10, 8, 8, .rw1c, 0, 0, 1, 0, 1⟩
def R.seq.QCT_BASE_LO_ADDR : Fld := ⟨0x100, 31, 12, .rw, 0, 0, 1, 0, 1⟩
def R.seq.QCT_BASE_HI_ADDR : Fld := ⟨0x104, 19, 0, .rw, 0, 0, 1, 0, 1⟩
def R.seq.Q_CMD_OP : Fld := ⟨0x108, 31, 28, .wo, 0, 0, 1, 0, 1⟩
def R.seq.Q_CMD_QID : Fld := ⟨0x108, 8, 0, .wo, 0, 0, 1, 0, 1⟩
def R.seq.Q_CMD_STS_BUSY : Fld := ⟨0x10c, 31, 31, .rov, 0, 0, 1, 0, 1⟩
def R.seq.Q_CMD_STS_STATUS : Fld := ⟨0x10c, 23, 16, .rov, 0, 0, 1, 0, 1⟩
def R.seq.Q_CMD_STS_QID : Fld := ⟨0x10c, 8, 0, .rov, 0, 0, 1, 0, 1⟩
def R.seq.SEM_SEL_INDEX : Fld := ⟨0x110, 15, 0, .rw, 0, 0, 1, 0, 1⟩
def R.seq.SEM_VAL_VALUE : Fld := ⟨0x114, 31, 0, .rw, 0, 0, 1, 0, 1⟩
def R.seq.SEM_ADD_ADDEND : Fld := ⟨0x118, 31, 0, .wo, 0, 0, 1, 0, 1⟩
def R.seq.STREAMS_IN_USE : Fld := ⟨0x11c, 11, 0, .rov, 0, 0, 1, 0, 1⟩
def R.seq.TIME_LO : Fld := ⟨0x120, 31, 0, .rov, 0, 0, 1, 0, 1⟩
def R.seq.TIME_HI : Fld := ⟨0x124, 31, 0, .rov, 0, 0, 1, 0, 1⟩
def R.seq.PART_CELLS_CELL_CNT : Fld := ⟨0x140, 24, 16, .ro, 0, 0x10, 8, 0, 1⟩
def R.seq.PART_CELLS_CELL_FIRST : Fld := ⟨0x140, 7, 0, .ro, 0, 0x10, 8, 0, 1⟩
def R.seq.PART_QUEUES_Q_CNT : Fld := ⟨0x144, 25, 16, .ro, 0, 0x10, 8, 0, 1⟩
def R.seq.PART_QUEUES_Q_FIRST : Fld := ⟨0x144, 8, 0, .ro, 0, 0x10, 8, 0, 1⟩
def R.seq.PART_SEMS_SEM_CNT : Fld := ⟨0x148, 24, 16, .ro, 0, 0x10, 8, 0, 1⟩
def R.seq.PART_SEMS_SEM_FIRST : Fld := ⟨0x148, 7, 0, .ro, 0, 0x10, 8, 0, 1⟩
def R.seq.PART_CTL_STATE : Fld := ⟨0x14c, 7, 4, .rov, 0, 0x10, 8, 0, 1⟩
def R.seq.PART_CTL_CMD : Fld := ⟨0x14c, 3, 0, .wo, 0, 0x10, 8, 0, 1⟩
def R.seq.Q_DB_W_TAIL : Fld := ⟨0x800, 15, 0, .wo, 0, 0x4, 512, 0, 1⟩
def R.seq.Q_DB_R_STATE : Fld := ⟨0x800, 31, 28, .rov, 0, 0x4, 512, 0, 1⟩
def R.seq.Q_DB_R_CONS : Fld := ⟨0x800, 15, 0, .rov, 0, 0x4, 512, 0, 1⟩
/-- Fields of the SEQ page. -/
def R.seq.all : List Fld :=
  [R.seq.BLK_CAP_DB_PRESENT, R.seq.BLK_CAP_RESET_OK, R.seq.BLK_CTL_EN, R.seq.BLK_STS_STATE,
    R.seq.ERR_STS_DESC_UE, R.seq.ERR_STS_QCT_ERR, R.seq.ERR_STS_TAIL_RANGE, R.seq.ERR_STS_Q_CMD_BAD,
    R.seq.ERR_STS_CMPL_ERR, R.seq.QCT_BASE_LO_ADDR, R.seq.QCT_BASE_HI_ADDR, R.seq.Q_CMD_OP, R.seq.Q_CMD_QID,
    R.seq.Q_CMD_STS_BUSY, R.seq.Q_CMD_STS_STATUS, R.seq.Q_CMD_STS_QID, R.seq.SEM_SEL_INDEX, R.seq.SEM_VAL_VALUE,
    R.seq.SEM_ADD_ADDEND, R.seq.STREAMS_IN_USE, R.seq.TIME_LO, R.seq.TIME_HI, R.seq.PART_CELLS_CELL_CNT,
    R.seq.PART_CELLS_CELL_FIRST, R.seq.PART_QUEUES_Q_CNT, R.seq.PART_QUEUES_Q_FIRST, R.seq.PART_SEMS_SEM_CNT,
    R.seq.PART_SEMS_SEM_FIRST, R.seq.PART_CTL_STATE, R.seq.PART_CTL_CMD, R.seq.Q_DB_W_TAIL, R.seq.Q_DB_R_STATE,
    R.seq.Q_DB_R_CONS]

/-! OE page. -/

def R.oe.BLK_CAP_AES_GCM : Fld := ⟨0x4, 4, 4, .ro, 0, 0, 1, 0, 1⟩
def R.oe.BLK_CAP_FAR_REACH : Fld := ⟨0x4, 3, 3, .ro, 0, 0, 1, 0, 1⟩
def R.oe.BLK_CAP_DB_PRESENT : Fld := ⟨0x4, 1, 1, .ro, 0, 0, 1, 0, 1⟩
def R.oe.BLK_CAP_RESET_OK : Fld := ⟨0x4, 0, 0, .ro, 1, 0, 1, 0, 1⟩
def R.oe.BLK_CTL_PSTATE_REQ : Fld := ⟨0x8, 9, 8, .wo, 0, 0, 1, 0, 1⟩
def R.oe.BLK_CTL_RESET : Fld := ⟨0x8, 1, 1, .w1s, 0, 0, 1, 0, 1⟩
def R.oe.BLK_CTL_EN : Fld := ⟨0x8, 0, 0, .ro, 1, 0, 1, 0, 1⟩
def R.oe.BLK_STS_PSTATE : Fld := ⟨0xc, 15, 12, .rov, 0, 0, 1, 0, 1⟩
def R.oe.BLK_STS_SEARCH_BUSY : Fld := ⟨0xc, 11, 11, .rov, 0, 0, 1, 0, 1⟩
def R.oe.ERR_STS_XTALK_BAD : Fld := ⟨0x10, 13, 13, .rw1c, 0, 0, 1, 0, 1⟩
def R.oe.ERR_STS_LOCK_LOST : Fld := ⟨0x10, 12, 12, .rw1c, 0, 0, 1, 0, 1⟩
def R.oe.ERR_STS_HEATER_LIMIT : Fld := ⟨0x10, 11, 11, .rw1c, 0, 0, 1, 0, 1⟩
def R.oe.ERR_STS_MON_FAULT : Fld := ⟨0x10, 10, 10, .rw1c, 0, 0, 1, 0, 1⟩
def R.oe.ERR_STS_HB_LOST : Fld := ⟨0x10, 9, 9, .rw1c, 0, 0, 1, 0, 1⟩
def R.oe.ERR_STS_WAKE_TMO : Fld := ⟨0x10, 8, 8, .rw1c, 0, 0, 1, 0, 1⟩
def R.oe.OE_CFG_LOOP_ENG : Fld := ⟨0x100, 31, 24, .ro, 0x10, 0, 1, 0, 1⟩
def R.oe.OE_CFG_LOCKED : Fld := ⟨0x100, 8, 0, .rov, 0, 0, 1, 0, 1⟩
def R.oe.LOOP_PERIOD_US : Fld := ⟨0x104, 15, 0, .rov, 0, 0, 1, 0, 1⟩
def R.oe.HEATER_PWR_MW : Fld := ⟨0x108, 15, 0, .rov, 0, 0, 1, 0, 1⟩
def R.oe.OE_TEMP_DEG_C : Fld := ⟨0x10c, 7, 0, .rov, 0, 0, 1, 0, 1⟩
def R.oe.WAKE_TIME_US : Fld := ⟨0x110, 23, 0, .rov, 0, 0, 1, 0, 1⟩
def R.oe.LOCK_LOST_CNT_COUNT : Fld := ⟨0x114, 31, 0, .rov, 0, 0, 1, 0, 1⟩
def R.oe.MON_SEL_INT : Fld := ⟨0x118, 26, 24, .rw, 2, 0, 1, 0, 1⟩
def R.oe.MON_SEL_PORT : Fld := ⟨0x118, 10, 8, .rw, 0, 0, 1, 0, 1⟩
def R.oe.MON_SEL_RING : Fld := ⟨0x118, 7, 0, .rw, 0, 0, 1, 0, 1⟩
def R.oe.MON_VAL_VALID : Fld := ⟨0x11c, 31, 31, .rov, 0, 0, 1, 0, 1⟩
def R.oe.MON_VAL_VALUE : Fld := ⟨0x11c, 12, 0, .rov, 0, 0, 1, 0, 1⟩
/-- Fields of the OE page. -/
def R.oe.all : List Fld :=
  [R.oe.BLK_CAP_AES_GCM, R.oe.BLK_CAP_FAR_REACH, R.oe.BLK_CAP_DB_PRESENT, R.oe.BLK_CAP_RESET_OK,
    R.oe.BLK_CTL_PSTATE_REQ, R.oe.BLK_CTL_RESET, R.oe.BLK_CTL_EN, R.oe.BLK_STS_PSTATE, R.oe.BLK_STS_SEARCH_BUSY,
    R.oe.ERR_STS_XTALK_BAD, R.oe.ERR_STS_LOCK_LOST, R.oe.ERR_STS_HEATER_LIMIT, R.oe.ERR_STS_MON_FAULT,
    R.oe.ERR_STS_HB_LOST, R.oe.ERR_STS_WAKE_TMO, R.oe.OE_CFG_LOOP_ENG, R.oe.OE_CFG_LOCKED, R.oe.LOOP_PERIOD_US,
    R.oe.HEATER_PWR_MW, R.oe.OE_TEMP_DEG_C, R.oe.WAKE_TIME_US, R.oe.LOCK_LOST_CNT_COUNT, R.oe.MON_SEL_INT,
    R.oe.MON_SEL_PORT, R.oe.MON_SEL_RING, R.oe.MON_VAL_VALID, R.oe.MON_VAL_VALUE]

/-! OPORT page. -/

def R.oport.BLK_CAP_PINNED_OK : Fld := ⟨0x4, 3, 3, .ro, 1, 0, 1, 0, 1⟩
def R.oport.BLK_CAP_FAR_OK : Fld := ⟨0x4, 2, 2, .ro, 0, 0, 1, 0, 1⟩
def R.oport.BLK_CAP_DB_PRESENT : Fld := ⟨0x4, 1, 1, .ro, 0, 0, 1, 0, 1⟩
def R.oport.BLK_CAP_RESET_OK : Fld := ⟨0x4, 0, 0, .ro, 0, 0, 1, 0, 1⟩
def R.oport.BLK_CTL_RESEARCH : Fld := ⟨0x8, 9, 9, .w1s, 0, 0, 1, 0, 1⟩
def R.oport.BLK_CTL_SHUT : Fld := ⟨0x8, 8, 8, .rw, 0, 0, 1, 0, 1⟩
def R.oport.BLK_CTL_EN : Fld := ⟨0x8, 0, 0, .ro, 1, 0, 1, 0, 1⟩
def R.oport.BLK_STS_OSTATE : Fld := ⟨0xc, 15, 12, .rov, 0, 0, 1, 0, 1⟩
def R.oport.ERR_STS_MOD_CAL_FAIL : Fld := ⟨0x10, 14, 14, .rw1c, 0, 0, 1, 0, 1⟩
def R.oport.ERR_STS_WL_SPARED : Fld := ⟨0x10, 13, 13, .rw1c, 0, 0, 1, 0, 1⟩
def R.oport.ERR_STS_MARGIN_LOW : Fld := ⟨0x10, 12, 12, .rw1c, 0, 0, 1, 0, 1⟩
def R.oport.ERR_STS_SEARCH_FAIL : Fld := ⟨0x10, 11, 11, .rw1c, 0, 0, 1, 0, 1⟩
def R.oport.ERR_STS_LOCK_LOST : Fld := ⟨0x10, 10, 10, .rw1c, 0, 0, 1, 0, 1⟩
def R.oport.ERR_STS_ES_CLOSE : Fld := ⟨0x10, 9, 9, .rw1c, 0, 0, 1, 0, 1⟩
def R.oport.ERR_STS_LOS : Fld := ⟨0x10, 8, 8, .rw1c, 0, 0, 1, 0, 1⟩
def R.oport.PORT_STS_UP : Fld := ⟨0x100, 31, 31, .rov, 0, 0, 1, 0, 1⟩
def R.oport.PORT_STS_WIDTH : Fld := ⟨0x100, 28, 24, .rov, 0, 0, 1, 0, 1⟩
def R.oport.PORT_STS_CH_TX : Fld := ⟨0x100, 17, 0, .rov, 0, 0, 1, 0, 1⟩
def R.oport.PORT_RX_CH_RX : Fld := ⟨0x104, 17, 0, .rov, 0, 0, 1, 0, 1⟩
def R.oport.PORT_CFG_REACH : Fld := ⟨0x108, 1, 1, .ro, 0, 0, 1, 0, 1⟩
def R.oport.PORT_CFG_CLASS : Fld := ⟨0x108, 0, 0, .ro, 0, 0, 1, 0, 1⟩
def R.oport.RX_MAP_RING : Fld := ⟨0x10c, 31, 0, .rov, 0xffffffff, 0x4, 4, 0, 1⟩
def R.oport.RX_MAP4_RING : Fld := ⟨0x11c, 15, 0, .rov, 0xffff, 0, 1, 0, 1⟩
def R.oport.TX_SEL_CAND : Fld := ⟨0x120, 17, 0, .rov, 0, 0, 1, 0, 1⟩
def R.oport.CH_SEL_CH : Fld := ⟨0x124, 4, 0, .rw, 0, 0, 1, 0, 1⟩
def R.oport.CH_PWR_PARTNER_OMA : Fld := ⟨0x128, 31, 16, .rov, 0, 0, 1, 0, 1⟩
def R.oport.CH_PWR_RX_OMA : Fld := ⟨0x128, 15, 0, .rov, 0, 0, 1, 0, 1⟩
def R.oport.CH_LOOP_ATTEN : Fld := ⟨0x12c, 31, 24, .rov, 0, 0, 1, 0, 1⟩
def R.oport.CH_LOOP_RX_OFS : Fld := ⟨0x12c, 23, 16, .rov, 0, 0, 1, 0, 1⟩
def R.oport.CH_LOOP_RX_HEATER : Fld := ⟨0x12c, 15, 0, .rov, 0, 0, 1, 0, 1⟩
def R.oport.MARGIN_CH : Fld := ⟨0x130, 20, 16, .rov, 0, 0, 1, 0, 1⟩
def R.oport.MARGIN_MIN : Fld := ⟨0x130, 15, 0, .rov, 0, 0, 1, 0, 1⟩
def R.oport.ES_CNT_COUNT : Fld := ⟨0x134, 31, 0, .rov, 0, 0, 1, 0, 1⟩
def R.oport.SEARCH_Q_HEATER_MW : Fld := ⟨0x138, 31, 16, .rov, 0, 0, 1, 0, 1⟩
def R.oport.SEARCH_Q_US : Fld := ⟨0x138, 15, 0, .rov, 0, 0, 1, 0, 1⟩
def R.oport.LINK_STS_LSTATE : Fld := ⟨0x200, 31, 28, .rov, 0, 0, 1, 0, 1⟩
def R.oport.LINK_STS_CAUSE : Fld := ⟨0x200, 27, 24, .rov, 0, 0, 1, 0, 1⟩
def R.oport.LINK_STS_HELD : Fld := ⟨0x200, 23, 23, .rov, 0, 0, 1, 0, 1⟩
def R.oport.LINK_STS_FAR : Fld := ⟨0x200, 22, 22, .rov, 0, 0, 1, 0, 1⟩
def R.oport.LINK_STS_BOND : Fld := ⟨0x200, 21, 20, .rov, 0, 0, 1, 0, 1⟩
def R.oport.LINK_STS_XOFF_REQ : Fld := ⟨0x200, 19, 19, .rov, 0, 0, 1, 0, 1⟩
def R.oport.LINK_STS_XOFF_RSP : Fld := ⟨0x200, 18, 18, .rov, 0, 0, 1, 0, 1⟩
def R.oport.LINK_STS_HOLD_US : Fld := ⟨0x200, 12, 0, .rov, 0, 0, 1, 0, 1⟩
def R.oport.LINK_CTL_WMAX : Fld := ⟨0x204, 9, 8, .rw, 0, 0, 1, 0, 1⟩
def R.oport.LINK_CTL_HOLD_DIS : Fld := ⟨0x204, 0, 0, .rw, 0, 0, 1, 0, 1⟩
def R.oport.SEQ_TX_NEXT : Fld := ⟨0x208, 31, 16, .rov, 0, 0, 1, 0, 1⟩
def R.oport.SEQ_TX_OLDEST : Fld := ⟨0x208, 15, 0, .rov, 0, 0, 1, 0, 1⟩
def R.oport.SEQ_RX_UNACKED : Fld := ⟨0x20c, 31, 16, .rov, 0, 0, 1, 0, 1⟩
def R.oport.SEQ_RX_EXPECT : Fld := ⟨0x20c, 15, 0, .rov, 0, 0, 1, 0, 1⟩
def R.oport.LINK_SPILL_WMAX_SEQ : Fld := ⟨0x210, 31, 16, .ro, 0, 0, 1, 0, 1⟩
def R.oport.LINK_SPILL_SIZE : Fld := ⟨0x210, 1, 0, .ro, 0, 0, 1, 0, 1⟩
def R.oport.LINK_RTT_NS : Fld := ⟨0x214, 15, 0, .rov, 0, 0, 1, 0, 1⟩
def R.oport.FC_THR_XOFF_AT : Fld := ⟨0x218, 31, 16, .rov, 0, 0, 1, 0, 1⟩
def R.oport.FC_THR_XON_AT : Fld := ⟨0x218, 15, 0, .rov, 0, 0, 1, 0, 1⟩
def R.oport.RXBUF_OCC_RSP : Fld := ⟨0x21c, 31, 16, .rov, 0, 0, 1, 0, 1⟩
def R.oport.RXBUF_OCC_REQ : Fld := ⟨0x21c, 15, 0, .rov, 0, 0, 1, 0, 1⟩
def R.oport.CRC_WIN_BAD : Fld := ⟨0x220, 31, 24, .rov, 0, 0, 1, 0, 1⟩
def R.oport.CRC_WIN_FLITS : Fld := ⟨0x220, 23, 0, .rov, 0, 0, 1, 0, 1⟩
def R.oport.CRC_CNT_COUNT : Fld := ⟨0x224, 31, 0, .rov, 0, 0, 1, 0, 1⟩
def R.oport.NAK_CNT_COUNT : Fld := ⟨0x228, 31, 0, .rov, 0, 0, 1, 0, 1⟩
def R.oport.REPLAY_CNT_SPILL : Fld := ⟨0x22c, 31, 16, .rov, 0, 0, 1, 0, 1⟩
def R.oport.REPLAY_CNT_TOTAL : Fld := ⟨0x22c, 15, 0, .rov, 0, 0, 1, 0, 1⟩
def R.oport.DUP_CNT_COUNT : Fld := ⟨0x230, 31, 0, .rov, 0, 0, 1, 0, 1⟩
def R.oport.DOWN_CNT_RESUMES : Fld := ⟨0x234, 31, 16, .rov, 0, 0, 1, 0, 1⟩
def R.oport.DOWN_CNT_DOWNS : Fld := ⟨0x234, 15, 0, .rov, 0, 0, 1, 0, 1⟩
def R.oport.TRAIN_CNT_COUNT : Fld := ⟨0x238, 31, 0, .rov, 0, 0, 1, 0, 1⟩
def R.oport.LANE_TX_CH : Fld := ⟨0x240, 31, 0, .rov, 0xffffffff, 0x4, 4, 0, 1⟩
def R.oport.LANE_RX_CH : Fld := ⟨0x250, 31, 0, .rov, 0xffffffff, 0x4, 4, 0, 1⟩
def R.oport.LINK_EVT_OVERFLOW : Fld := ⟨0x260, 13, 13, .rw1c, 0, 0, 1, 0, 1⟩
def R.oport.LINK_EVT_REACH_UNSUP : Fld := ⟨0x260, 12, 12, .rw1c, 0, 0, 1, 0, 1⟩
def R.oport.LINK_EVT_BOND_EXCL : Fld := ⟨0x260, 11, 11, .rw1c, 0, 0, 1, 0, 1⟩
def R.oport.LINK_EVT_REFRESH_LOST : Fld := ⟨0x260, 10, 10, .rw1c, 0, 0, 1, 0, 1⟩
def R.oport.LINK_EVT_SLEEP_FAIL : Fld := ⟨0x260, 9, 9, .rw1c, 0, 0, 1, 0, 1⟩
def R.oport.LINK_EVT_HO_FAIL : Fld := ⟨0x260, 8, 8, .rw1c, 0, 0, 1, 0, 1⟩
def R.oport.LINK_EVT_ACK_BAD : Fld := ⟨0x260, 7, 7, .rw1c, 0, 0, 1, 0, 1⟩
def R.oport.LINK_EVT_TRAIN_FAIL : Fld := ⟨0x260, 6, 6, .rw1c, 0, 0, 1, 0, 1⟩
def R.oport.LINK_EVT_RTT_LONG : Fld := ⟨0x260, 5, 5, .rw1c, 0, 0, 1, 0, 1⟩
def R.oport.LINK_EVT_FMT_BAD : Fld := ⟨0x260, 4, 4, .rw1c, 0, 0, 1, 0, 1⟩
def R.oport.LINK_EVT_HOLD_EXPIRED : Fld := ⟨0x260, 3, 3, .rw1c, 0, 0, 1, 0, 1⟩
def R.oport.LINK_EVT_HOLD_RESUME : Fld := ⟨0x260, 2, 2, .rw1c, 0, 0, 1, 0, 1⟩
def R.oport.LINK_EVT_RESET : Fld := ⟨0x260, 1, 1, .rw1c, 0, 0, 1, 0, 1⟩
def R.oport.LINK_EVT_DOWN : Fld := ⟨0x260, 0, 0, .rw1c, 0, 0, 1, 0, 1⟩
def R.oport.LINK_EVT_MASK_MASK : Fld := ⟨0x264, 13, 0, .rw, 0, 0, 1, 0, 1⟩
def R.oport.LINK_INJ_DROP_RX : Fld := ⟨0x268, 1, 1, .w1s, 0, 0, 1, 0, 1⟩
def R.oport.LINK_INJ_CRC_TX : Fld := ⟨0x268, 0, 0, .w1s, 0, 0, 1, 0, 1⟩
/-- Fields of the OPORT page. -/
def R.oport.all : List Fld :=
  [R.oport.BLK_CAP_PINNED_OK, R.oport.BLK_CAP_FAR_OK, R.oport.BLK_CAP_DB_PRESENT, R.oport.BLK_CAP_RESET_OK,
    R.oport.BLK_CTL_RESEARCH, R.oport.BLK_CTL_SHUT, R.oport.BLK_CTL_EN, R.oport.BLK_STS_OSTATE,
    R.oport.ERR_STS_MOD_CAL_FAIL, R.oport.ERR_STS_WL_SPARED, R.oport.ERR_STS_MARGIN_LOW,
    R.oport.ERR_STS_SEARCH_FAIL, R.oport.ERR_STS_LOCK_LOST, R.oport.ERR_STS_ES_CLOSE, R.oport.ERR_STS_LOS,
    R.oport.PORT_STS_UP, R.oport.PORT_STS_WIDTH, R.oport.PORT_STS_CH_TX, R.oport.PORT_RX_CH_RX,
    R.oport.PORT_CFG_REACH, R.oport.PORT_CFG_CLASS, R.oport.RX_MAP_RING, R.oport.RX_MAP4_RING,
    R.oport.TX_SEL_CAND, R.oport.CH_SEL_CH, R.oport.CH_PWR_PARTNER_OMA, R.oport.CH_PWR_RX_OMA,
    R.oport.CH_LOOP_ATTEN, R.oport.CH_LOOP_RX_OFS, R.oport.CH_LOOP_RX_HEATER, R.oport.MARGIN_CH,
    R.oport.MARGIN_MIN, R.oport.ES_CNT_COUNT, R.oport.SEARCH_Q_HEATER_MW, R.oport.SEARCH_Q_US,
    R.oport.LINK_STS_LSTATE, R.oport.LINK_STS_CAUSE, R.oport.LINK_STS_HELD, R.oport.LINK_STS_FAR,
    R.oport.LINK_STS_BOND, R.oport.LINK_STS_XOFF_REQ, R.oport.LINK_STS_XOFF_RSP, R.oport.LINK_STS_HOLD_US,
    R.oport.LINK_CTL_WMAX, R.oport.LINK_CTL_HOLD_DIS, R.oport.SEQ_TX_NEXT, R.oport.SEQ_TX_OLDEST,
    R.oport.SEQ_RX_UNACKED, R.oport.SEQ_RX_EXPECT, R.oport.LINK_SPILL_WMAX_SEQ, R.oport.LINK_SPILL_SIZE,
    R.oport.LINK_RTT_NS, R.oport.FC_THR_XOFF_AT, R.oport.FC_THR_XON_AT, R.oport.RXBUF_OCC_RSP,
    R.oport.RXBUF_OCC_REQ, R.oport.CRC_WIN_BAD, R.oport.CRC_WIN_FLITS, R.oport.CRC_CNT_COUNT,
    R.oport.NAK_CNT_COUNT] ++
  [R.oport.REPLAY_CNT_SPILL, R.oport.REPLAY_CNT_TOTAL, R.oport.DUP_CNT_COUNT, R.oport.DOWN_CNT_RESUMES,
    R.oport.DOWN_CNT_DOWNS, R.oport.TRAIN_CNT_COUNT, R.oport.LANE_TX_CH, R.oport.LANE_RX_CH,
    R.oport.LINK_EVT_OVERFLOW, R.oport.LINK_EVT_REACH_UNSUP, R.oport.LINK_EVT_BOND_EXCL,
    R.oport.LINK_EVT_REFRESH_LOST, R.oport.LINK_EVT_SLEEP_FAIL, R.oport.LINK_EVT_HO_FAIL,
    R.oport.LINK_EVT_ACK_BAD, R.oport.LINK_EVT_TRAIN_FAIL, R.oport.LINK_EVT_RTT_LONG, R.oport.LINK_EVT_FMT_BAD,
    R.oport.LINK_EVT_HOLD_EXPIRED, R.oport.LINK_EVT_HOLD_RESUME, R.oport.LINK_EVT_RESET, R.oport.LINK_EVT_DOWN,
    R.oport.LINK_EVT_MASK_MASK, R.oport.LINK_INJ_DROP_RX, R.oport.LINK_INJ_CRC_TX]

/-! LASER page. -/

def R.laser.BLK_CAP_DB_PRESENT : Fld := ⟨0x4, 1, 1, .ro, 0, 0, 1, 0, 1⟩
def R.laser.BLK_CAP_RESET_OK : Fld := ⟨0x4, 0, 0, .ro, 0, 0, 1, 0, 1⟩
def R.laser.BLK_CTL_EN : Fld := ⟨0x8, 0, 0, .ro, 1, 0, 1, 0, 1⟩
def R.laser.ERR_STS_NO_SPARE : Fld := ⟨0x10, 13, 13, .rw1c, 0, 0, 1, 0, 1⟩
def R.laser.ERR_STS_BIAS_CEIL : Fld := ⟨0x10, 12, 12, .rw1c, 0, 0, 1, 0, 1⟩
def R.laser.ERR_STS_LASER_DEAD : Fld := ⟨0x10, 11, 11, .rw1c, 0, 0, 1, 0, 1⟩
def R.laser.ERR_STS_SPARE_FAIL : Fld := ⟨0x10, 10, 10, .rw1c, 0, 0, 1, 0, 1⟩
def R.laser.ERR_STS_SPARE_DONE : Fld := ⟨0x10, 9, 9, .rw1c, 0, 0, 1, 0, 1⟩
def R.laser.ERR_STS_SPARE_TRIG : Fld := ⟨0x10, 8, 8, .rw1c, 0, 0, 1, 0, 1⟩
def R.laser.LSR_STATE : Fld := ⟨0x100, 31, 29, .rov, 0, 0x4, 18, 0, 1⟩
def R.laser.LSR_SPARE : Fld := ⟨0x100, 28, 28, .ro, 0, 0x4, 18, 0, 1⟩
def R.laser.LSR_BIAS_MA : Fld := ⟨0x100, 23, 16, .rov, 0, 0x4, 18, 0, 1⟩
def R.laser.LSR_OUT : Fld := ⟨0x100, 15, 0, .rov, 0, 0x4, 18, 0, 1⟩
def R.laser.TILE_BIAS_CEIL : Fld := ⟨0x148, 23, 16, .rov, 0x96, 0, 1, 0, 1⟩
def R.laser.TILE_CASE_C : Fld := ⟨0x148, 7, 0, .rov, 0, 0, 1, 0, 1⟩
def R.laser.SPARE_STS_BUSY : Fld := ⟨0x14c, 31, 31, .rov, 0, 0, 1, 0, 1⟩
def R.laser.SPARE_STS_STEP : Fld := ⟨0x14c, 30, 27, .rov, 0, 0, 1, 0, 1⟩
def R.laser.SPARE_STS_FROM : Fld := ⟨0x14c, 26, 22, .rov, 0, 0, 1, 0, 1⟩
def R.laser.SPARE_STS_LIT : Fld := ⟨0x14c, 17, 16, .rov, 0, 0, 1, 0, 1⟩
def R.laser.SPARE_STS_USE : Fld := ⟨0x14c, 15, 0, .rov, 0, 0, 1, 0, 1⟩
def R.laser.SPARE_CTL_CH : Fld := ⟨0x150, 12, 8, .rw, 0, 0, 1, 0, 1⟩
def R.laser.SPARE_CTL_GO : Fld := ⟨0x150, 0, 0, .w1s, 0, 0, 1, 0, 1⟩
def R.laser.BRANCH_CLOSED_FIBRE : Fld := ⟨0x154, 7, 0, .rov, 0xff, 0, 1, 0, 1⟩
/-- Fields of the LASER page. -/
def R.laser.all : List Fld :=
  [R.laser.BLK_CAP_DB_PRESENT, R.laser.BLK_CAP_RESET_OK, R.laser.BLK_CTL_EN, R.laser.ERR_STS_NO_SPARE,
    R.laser.ERR_STS_BIAS_CEIL, R.laser.ERR_STS_LASER_DEAD, R.laser.ERR_STS_SPARE_FAIL,
    R.laser.ERR_STS_SPARE_DONE, R.laser.ERR_STS_SPARE_TRIG, R.laser.LSR_STATE, R.laser.LSR_SPARE,
    R.laser.LSR_BIAS_MA, R.laser.LSR_OUT, R.laser.TILE_BIAS_CEIL, R.laser.TILE_CASE_C, R.laser.SPARE_STS_BUSY,
    R.laser.SPARE_STS_STEP, R.laser.SPARE_STS_FROM, R.laser.SPARE_STS_LIT, R.laser.SPARE_STS_USE,
    R.laser.SPARE_CTL_CH, R.laser.SPARE_CTL_GO, R.laser.BRANCH_CLOSED_FIBRE]

/-! PCIE page. -/

def R.pcie.BLK_CAP_DOE : Fld := ⟨0x4, 5, 5, .ro, 1, 0, 1, 0, 1⟩
def R.pcie.BLK_CAP_RBAR : Fld := ⟨0x4, 4, 4, .ro, 1, 0, 1, 0, 1⟩
def R.pcie.BLK_CAP_FLIT : Fld := ⟨0x4, 3, 3, .ro, 1, 0, 1, 0, 1⟩
def R.pcie.BLK_CAP_GEN6 : Fld := ⟨0x4, 2, 2, .ro, 1, 0, 1, 0, 1⟩
def R.pcie.BLK_CAP_DB_PRESENT : Fld := ⟨0x4, 1, 1, .ro, 0, 0, 1, 0, 1⟩
def R.pcie.BLK_CAP_RESET_OK : Fld := ⟨0x4, 0, 0, .ro, 0, 0, 1, 0, 1⟩
def R.pcie.BLK_CTL_EN : Fld := ⟨0x8, 0, 0, .ro, 1, 0, 1, 0, 1⟩
def R.pcie.ERR_STS_TAKEOVER : Fld := ⟨0x10, 14, 14, .rw1c, 0, 0, 1, 0, 1⟩
def R.pcie.ERR_STS_GIVEBACK_DONE : Fld := ⟨0x10, 13, 13, .rw1c, 0, 0, 1, 0, 1⟩
def R.pcie.ERR_STS_DL_DOWN : Fld := ⟨0x10, 12, 12, .rw1c, 0, 0, 1, 0, 1⟩
def R.pcie.ERR_STS_CPL_TMO : Fld := ⟨0x10, 11, 11, .rw1c, 0, 0, 1, 0, 1⟩
def R.pcie.ERR_STS_UR_CA_RX : Fld := ⟨0x10, 10, 10, .rw1c, 0, 0, 1, 0, 1⟩
def R.pcie.ERR_STS_POISON_RX : Fld := ⟨0x10, 9, 9, .rw1c, 0, 0, 1, 0, 1⟩
def R.pcie.ERR_STS_BAR2_UNMAPPED : Fld := ⟨0x10, 8, 8, .rw1c, 0, 0, 1, 0, 1⟩
def R.pcie.LINK_STS_DL_UP : Fld := ⟨0x100, 31, 31, .rov, 0, 0, 1, 0, 1⟩
def R.pcie.LINK_STS_FLIT : Fld := ⟨0x100, 30, 30, .rov, 0, 0, 1, 0, 1⟩
def R.pcie.LINK_STS_RATE : Fld := ⟨0x100, 23, 20, .rov, 0, 0, 1, 0, 1⟩
def R.pcie.LINK_STS_WIDTH : Fld := ⟨0x100, 12, 8, .rov, 0, 0, 1, 0, 1⟩
def R.pcie.LINK_STS_LTSSM : Fld := ⟨0x100, 5, 0, .rov, 0, 0, 1, 0, 1⟩
def R.pcie.HOST_ROLE_CARRIES_OTHER : Fld := ⟨0x104, 2, 2, .rov, 0, 0, 1, 0, 1⟩
def R.pcie.HOST_ROLE_FUNC : Fld := ⟨0x104, 1, 1, .ro, 0, 0, 1, 0, 1⟩
def R.pcie.HOST_ROLE_PRESENT : Fld := ⟨0x104, 0, 0, .rov, 0, 0, 1, 0, 1⟩
def R.pcie.HOST_CTL_GIVEBACK : Fld := ⟨0x108, 0, 0, .w1s, 0, 0, 1, 0, 1⟩
def R.pcie.BAR2_SIZE_LOG2 : Fld := ⟨0x10c, 5, 0, .rov, 0x24, 0, 1, 0, 1⟩
def R.pcie.BAR2_BASE_LO_ADDR : Fld := ⟨0x110, 31, 28, .rw, 0, 0, 1, 0, 1⟩
def R.pcie.BAR2_BASE_HI_ADDR : Fld := ⟨0x114, 19, 0, .rw, 0, 0, 1, 0, 1⟩
def R.pcie.DMA_RD_LO : Fld := ⟨0x118, 31, 0, .rov, 0, 0, 1, 0, 1⟩
def R.pcie.DMA_RD_HI : Fld := ⟨0x11c, 31, 0, .rov, 0, 0, 1, 0, 1⟩
def R.pcie.DMA_WR_LO : Fld := ⟨0x120, 31, 0, .rov, 0, 0, 1, 0, 1⟩
def R.pcie.DMA_WR_HI : Fld := ⟨0x124, 31, 0, .rov, 0, 0, 1, 0, 1⟩
def R.pcie.MSI_CNT_COUNT : Fld := ⟨0x128, 31, 0, .rov, 0, 0, 1, 0, 1⟩
def R.pcie.RESEND_CNT_COUNT : Fld := ⟨0x12c, 31, 0, .rov, 0, 0, 1, 0, 1⟩
def R.pcie.CPL_TMO_MS : Fld := ⟨0x130, 9, 0, .rw, 0x32, 0, 1, 0, 1⟩
def R.pcie.EVT_VEC_EN : Fld := ⟨0x134, 31, 31, .rw, 0, 0, 1, 0, 1⟩
def R.pcie.EVT_VEC_VEC : Fld := ⟨0x134, 10, 0, .rw, 0, 0, 1, 0, 1⟩
/-- Fields of the PCIE page. -/
def R.pcie.all : List Fld :=
  [R.pcie.BLK_CAP_DOE, R.pcie.BLK_CAP_RBAR, R.pcie.BLK_CAP_FLIT, R.pcie.BLK_CAP_GEN6, R.pcie.BLK_CAP_DB_PRESENT,
    R.pcie.BLK_CAP_RESET_OK, R.pcie.BLK_CTL_EN, R.pcie.ERR_STS_TAKEOVER, R.pcie.ERR_STS_GIVEBACK_DONE,
    R.pcie.ERR_STS_DL_DOWN, R.pcie.ERR_STS_CPL_TMO, R.pcie.ERR_STS_UR_CA_RX, R.pcie.ERR_STS_POISON_RX,
    R.pcie.ERR_STS_BAR2_UNMAPPED, R.pcie.LINK_STS_DL_UP, R.pcie.LINK_STS_FLIT, R.pcie.LINK_STS_RATE,
    R.pcie.LINK_STS_WIDTH, R.pcie.LINK_STS_LTSSM, R.pcie.HOST_ROLE_CARRIES_OTHER, R.pcie.HOST_ROLE_FUNC,
    R.pcie.HOST_ROLE_PRESENT, R.pcie.HOST_CTL_GIVEBACK, R.pcie.BAR2_SIZE_LOG2, R.pcie.BAR2_BASE_LO_ADDR,
    R.pcie.BAR2_BASE_HI_ADDR, R.pcie.DMA_RD_LO, R.pcie.DMA_RD_HI, R.pcie.DMA_WR_LO, R.pcie.DMA_WR_HI,
    R.pcie.MSI_CNT_COUNT, R.pcie.RESEND_CNT_COUNT, R.pcie.CPL_TMO_MS, R.pcie.EVT_VEC_EN, R.pcie.EVT_VEC_VEC]

/-! THERM page. -/

def R.therm.ERR_STS_TRIPPED : Fld := ⟨0x10, 16, 16, .rw1c, 0, 0, 1, 0, 1⟩
def R.therm.ERR_STS_REMOTE_CRIT : Fld := ⟨0x10, 15, 15, .rw1c, 0, 0, 1, 0, 1⟩
def R.therm.ERR_STS_REMOTE_FAULT : Fld := ⟨0x10, 14, 14, .rw1c, 0, 0, 1, 0, 1⟩
def R.therm.ERR_STS_SENS_EXCL : Fld := ⟨0x10, 13, 13, .rw1c, 0, 0, 1, 0, 1⟩
def R.therm.ERR_STS_DITHER : Fld := ⟨0x10, 12, 12, .rw1c, 0, 0, 1, 0, 1⟩
def R.therm.ERR_STS_SURGE : Fld := ⟨0x10, 11, 11, .rw1c, 0, 0, 1, 0, 1⟩
def R.therm.ERR_STS_CRIT : Fld := ⟨0x10, 10, 10, .rw1c, 0, 0, 1, 0, 1⟩
def R.therm.ERR_STS_THROTTLE : Fld := ⟨0x10, 9, 9, .rw1c, 0, 0, 1, 0, 1⟩
def R.therm.ERR_STS_WARN : Fld := ⟨0x10, 8, 8, .rw1c, 0, 0, 1, 0, 1⟩
def R.therm.DIE_STS_STATE : Fld := ⟨0x100, 31, 28, .rov, 0, 0x4, 36, 0, 1⟩
def R.therm.DIE_STS_SURGE : Fld := ⟨0x100, 27, 27, .rov, 0, 0x4, 36, 0, 1⟩
def R.therm.DIE_STS_HOLD : Fld := ⟨0x100, 26, 26, .rov, 0, 0x4, 36, 0, 1⟩
def R.therm.DIE_STS_EXCL : Fld := ⟨0x100, 23, 16, .rov, 0, 0x4, 36, 0, 1⟩
def R.therm.DIE_STS_NSENS : Fld := ⟨0x100, 15, 8, .ro, 0, 0x4, 36, 0, 1⟩
def R.therm.DIE_STS_DEG_C : Fld := ⟨0x100, 7, 0, .rov, 0, 0x4, 36, 0, 1⟩
def R.therm.SENS_SEL_INDEX : Fld := ⟨0x200, 9, 0, .rw, 0, 0, 1, 0, 1⟩
def R.therm.SENS_VAL_EXCL : Fld := ⟨0x204, 31, 31, .rov, 0, 0, 1, 0, 1⟩
def R.therm.SENS_VAL_TEMP : Fld := ⟨0x204, 15, 0, .rov, 0, 0, 1, 0, 1⟩
def R.therm.SURGE_CNT_COUNT : Fld := ⟨0x208, 31, 0, .rov, 0, 0, 1, 0, 1⟩
def R.therm.DITHER_CNT_COUNT : Fld := ⟨0x20c, 31, 0, .rov, 0, 0, 1, 0, 1⟩
def R.therm.THRESH_TRIP : Fld := ⟨0x210, 31, 24, .ro, 0x73, 0, 1, 0, 1⟩
def R.therm.THRESH_CRIT : Fld := ⟨0x210, 23, 16, .ro, 0x6c, 0, 1, 0, 1⟩
def R.therm.THRESH_THROTTLE : Fld := ⟨0x210, 15, 8, .ro, 0x64, 0, 1, 0, 1⟩
def R.therm.THRESH_WARN : Fld := ⟨0x210, 7, 0, .ro, 0x5f, 0, 1, 0, 1⟩
/-- Fields of the THERM page. -/
def R.therm.all : List Fld :=
  [R.therm.ERR_STS_TRIPPED, R.therm.ERR_STS_REMOTE_CRIT, R.therm.ERR_STS_REMOTE_FAULT, R.therm.ERR_STS_SENS_EXCL,
    R.therm.ERR_STS_DITHER, R.therm.ERR_STS_SURGE, R.therm.ERR_STS_CRIT, R.therm.ERR_STS_THROTTLE,
    R.therm.ERR_STS_WARN, R.therm.DIE_STS_STATE, R.therm.DIE_STS_SURGE, R.therm.DIE_STS_HOLD,
    R.therm.DIE_STS_EXCL, R.therm.DIE_STS_NSENS, R.therm.DIE_STS_DEG_C, R.therm.SENS_SEL_INDEX,
    R.therm.SENS_VAL_EXCL, R.therm.SENS_VAL_TEMP, R.therm.SURGE_CNT_COUNT, R.therm.DITHER_CNT_COUNT,
    R.therm.THRESH_TRIP, R.therm.THRESH_CRIT, R.therm.THRESH_THROTTLE, R.therm.THRESH_WARN]

/-! Sensor hub. -/

def R.thermG.TD_FAULT : Fld := ⟨0x100, 31, 31, .rov, 0, 0x4, 8, 0, 1⟩
def R.thermG.TH_FAULT : Fld := ⟨0x120, 31, 31, .rov, 0, 0x4, 4, 0, 1⟩
def R.thermG.TD_TEMP : Fld := ⟨0x100, 15, 0, .rov, 0, 0x4, 8, 0, 1⟩
def R.thermG.TH_TEMP : Fld := ⟨0x120, 15, 0, .rov, 0, 0x4, 4, 0, 1⟩
def R.thermG.TD_CFG_EN : Fld := ⟨0x130, 31, 31, .rw, 0, 0x4, 8, 0, 1⟩
def R.thermG.TH_CFG_EN : Fld := ⟨0x150, 31, 31, .rw, 0, 0x4, 4, 0, 1⟩
def R.thermG.TD_CFG_CRIT_STOP : Fld := ⟨0x130, 30, 30, .rw, 0, 0x4, 8, 0, 1⟩
def R.thermG.TH_CFG_CRIT_STOP : Fld := ⟨0x150, 30, 30, .rw, 0, 0x4, 4, 0, 1⟩
def R.thermG.TD_CFG_CRIT_C : Fld := ⟨0x130, 23, 16, .rw, 0x6e, 0x4, 8, 0, 1⟩
def R.thermG.TH_CFG_CRIT_C : Fld := ⟨0x150, 23, 16, .rw, 0x3c, 0x4, 4, 0, 1⟩
def R.thermG.TD_CFG_WARN_C : Fld := ⟨0x130, 15, 8, .rw, 0x64, 0x4, 8, 0, 1⟩
def R.thermG.TH_CFG_WARN_C : Fld := ⟨0x150, 15, 8, .rw, 0x2d, 0x4, 4, 0, 1⟩
def R.thermG.TD_CFG_NF : Fld := ⟨0x130, 7, 0, .rw, 8, 0x4, 8, 0, 1⟩
def R.thermG.TH_CFG_NF : Fld := ⟨0x150, 7, 0, .rw, 0, 0x4, 4, 0, 1⟩
def R.thermG.TH_B_B : Fld := ⟨0x160, 13, 0, .rw, 0xd6b, 0x4, 4, 0, 1⟩
def R.thermG.TRIP_INFO_VALID : Fld := ⟨0x170, 31, 31, .rov, 0, 0, 1, 0, 1⟩
def R.thermG.TRIP_INFO_HALF : Fld := ⟨0x170, 16, 16, .rov, 0, 0, 1, 0, 1⟩
def R.thermG.TRIP_INFO_DIE : Fld := ⟨0x170, 15, 8, .rov, 0, 0, 1, 0, 1⟩
def R.thermG.TRIP_INFO_DEG_C : Fld := ⟨0x170, 7, 0, .rov, 0, 0, 1, 0, 1⟩
/-- Fields of the Sensor hub. -/
def R.thermG.all : List Fld :=
  [R.thermG.TD_FAULT, R.thermG.TH_FAULT, R.thermG.TD_TEMP, R.thermG.TH_TEMP, R.thermG.TD_CFG_EN,
    R.thermG.TH_CFG_EN, R.thermG.TD_CFG_CRIT_STOP, R.thermG.TH_CFG_CRIT_STOP, R.thermG.TD_CFG_CRIT_C,
    R.thermG.TH_CFG_CRIT_C, R.thermG.TD_CFG_WARN_C, R.thermG.TH_CFG_WARN_C, R.thermG.TD_CFG_NF,
    R.thermG.TH_CFG_NF, R.thermG.TH_B_B, R.thermG.TRIP_INFO_VALID, R.thermG.TRIP_INFO_HALF,
    R.thermG.TRIP_INFO_DIE, R.thermG.TRIP_INFO_DEG_C]

/-! PWR page. -/

def R.pwr.ERR_STS_RAIL_FAULT : Fld := ⟨0x10, 14, 14, .rw1c, 0, 0, 1, 0, 1⟩
def R.pwr.ERR_STS_NV_TORN : Fld := ⟨0x10, 13, 13, .rw1c, 0, 0, 1, 0, 1⟩
def R.pwr.ERR_STS_OVP : Fld := ⟨0x10, 12, 12, .rw1c, 0, 0, 1, 0, 1⟩
def R.pwr.ERR_STS_UVLO : Fld := ⟨0x10, 11, 11, .rw1c, 0, 0, 1, 0, 1⟩
def R.pwr.ERR_STS_PWR_FAIL : Fld := ⟨0x10, 10, 10, .rw1c, 0, 0, 1, 0, 1⟩
def R.pwr.ERR_STS_VIN_LOW : Fld := ⟨0x10, 9, 9, .rw1c, 0, 0, 1, 0, 1⟩
def R.pwr.ERR_STS_CAP_UNMET : Fld := ⟨0x10, 8, 8, .rw1c, 0, 0, 1, 0, 1⟩
/-- Fields of the PWR page. -/
def R.pwr.all : List Fld :=
  [R.pwr.ERR_STS_RAIL_FAULT, R.pwr.ERR_STS_NV_TORN, R.pwr.ERR_STS_OVP, R.pwr.ERR_STS_UVLO,
    R.pwr.ERR_STS_PWR_FAIL, R.pwr.ERR_STS_VIN_LOW, R.pwr.ERR_STS_CAP_UNMET]

/-! VIN48 input. -/

def R.pwrG.VIN_MV : Fld := ⟨0x100, 31, 16, .rov, 0, 0, 1, 0, 1⟩
def R.pwrG.VIN_W : Fld := ⟨0x100, 15, 0, .rov, 0, 0, 1, 0, 1⟩
def R.pwrG.CAP_REQ_W : Fld := ⟨0x104, 15, 0, .rw, 0, 0, 1, 0, 1⟩
def R.pwrG.CAP_NOW_FLOOR : Fld := ⟨0x108, 31, 16, .rov, 0, 0, 1, 0, 1⟩
def R.pwrG.CAP_NOW_W : Fld := ⟨0x108, 15, 0, .rov, 0, 0, 1, 0, 1⟩
def R.pwrG.LIMIT_STAGE : Fld := ⟨0x10c, 19, 16, .rov, 0, 0, 1, 0, 1⟩
def R.pwrG.LIMIT_PEAK_W : Fld := ⟨0x10c, 15, 0, .rov, 0, 0, 1, 0, 1⟩
def R.pwrG.SHUTDOWN_CAUSE : Fld := ⟨0x110, 3, 0, .rov, 0, 0, 1, 0, 1⟩
def R.pwrG.ENERGY_LO : Fld := ⟨0x114, 31, 0, .rov, 0, 0, 1, 0, 1⟩
def R.pwrG.ENERGY_HI : Fld := ⟨0x118, 31, 0, .rov, 0, 0, 1, 0, 1⟩
def R.pwrG.NV_STS_QUEUED : Fld := ⟨0x11c, 15, 8, .rov, 0, 0, 1, 0, 1⟩
def R.pwrG.NV_STS_TORN : Fld := ⟨0x11c, 7, 0, .rov, 0, 0, 1, 0, 1⟩
/-- Fields of the VIN48 input. -/
def R.pwrG.all : List Fld :=
  [R.pwrG.VIN_MV, R.pwrG.VIN_W, R.pwrG.CAP_REQ_W, R.pwrG.CAP_NOW_FLOOR, R.pwrG.CAP_NOW_W, R.pwrG.LIMIT_STAGE,
    R.pwrG.LIMIT_PEAK_W, R.pwrG.SHUTDOWN_CAUSE, R.pwrG.ENERGY_LO, R.pwrG.ENERGY_HI, R.pwrG.NV_STS_QUEUED,
    R.pwrG.NV_STS_TORN]

/-! Half rails. -/

def R.pwrH.SHARE_LOAD_W : Fld := ⟨0x100, 31, 16, .rov, 0, 0, 1, 0, 1⟩
def R.pwrH.SHARE_SHARE_W : Fld := ⟨0x100, 15, 0, .rov, 0, 0, 1, 0, 1⟩
def R.pwrH.RAIL_MV : Fld := ⟨0x104, 31, 16, .rov, 0, 0x4, 10, 0, 1⟩
def R.pwrH.RAIL_CURRENT : Fld := ⟨0x104, 15, 0, .rov, 0, 0x4, 10, 0, 1⟩
/-- Fields of the Half rails. -/
def R.pwrH.all : List Fld :=
  [R.pwrH.SHARE_LOAD_W, R.pwrH.SHARE_SHARE_W, R.pwrH.RAIL_MV, R.pwrH.RAIL_CURRENT]

/-! CLK page. -/

def R.clk.ERR_STS_AON_COMP : Fld := ⟨0x10, 10, 10, .rw1c, 0, 0, 1, 0, 1⟩
def R.clk.ERR_STS_REFCLK_LOSS : Fld := ⟨0x10, 9, 9, .rw1c, 0, 0, 1, 0, 1⟩
def R.clk.ERR_STS_PLL_UNLOCK : Fld := ⟨0x10, 8, 8, .rw1c, 0, 0, 1, 0, 1⟩
def R.clk.DOM_STATE : Fld := ⟨0x100, 31, 30, .rov, 0, 0x4, 39, 0, 1⟩
def R.clk.DOM_LOCK : Fld := ⟨0x100, 29, 29, .rov, 0, 0x4, 39, 0, 1⟩
def R.clk.DOM_MHZ : Fld := ⟨0x100, 15, 0, .rov, 0, 0x4, 39, 0, 1⟩
def R.clk.CEIL_LIMIT : Fld := ⟨0x1a0, 31, 28, .rov, 0, 0x4, 4, 0, 1⟩
def R.clk.CEIL_DUTY : Fld := ⟨0x1a0, 27, 24, .rov, 0xf, 0x4, 4, 0, 1⟩
def R.clk.CEIL_MHZ : Fld := ⟨0x1a0, 10, 0, .rov, 0x258, 0x4, 4, 0, 1⟩
def R.clk.FMAX_MHZ : Fld := ⟨0x1b0, 10, 0, .rw, 0x4b0, 0, 1, 0, 1⟩
def R.clk.REFCLK_PRESENT : Fld := ⟨0x1b4, 31, 31, .rov, 0, 0, 1, 0, 1⟩
def R.clk.REFCLK_PPM : Fld := ⟨0x1b4, 15, 0, .rov, 0, 0, 1, 0, 1⟩
/-- Fields of the CLK page. -/
def R.clk.all : List Fld :=
  [R.clk.ERR_STS_AON_COMP, R.clk.ERR_STS_REFCLK_LOSS, R.clk.ERR_STS_PLL_UNLOCK, R.clk.DOM_STATE, R.clk.DOM_LOCK,
    R.clk.DOM_MHZ, R.clk.CEIL_LIMIT, R.clk.CEIL_DUTY, R.clk.CEIL_MHZ, R.clk.FMAX_MHZ, R.clk.REFCLK_PRESENT,
    R.clk.REFCLK_PPM]

/-! Always-on domain. -/

def R.clkG.AON_TRACED : Fld := ⟨0x100, 31, 31, .rov, 0, 0, 1, 0, 1⟩
def R.clkG.AON_CALREF : Fld := ⟨0x100, 30, 30, .rov, 0, 0, 1, 0, 1⟩
def R.clkG.AON_ERR : Fld := ⟨0x100, 15, 0, .rov, 0, 0, 1, 0, 1⟩
def R.clkG.KTIME_LO : Fld := ⟨0x104, 31, 0, .rov, 0, 0, 1, 0, 1⟩
def R.clkG.KTIME_HI : Fld := ⟨0x108, 31, 0, .rov, 0, 0, 1, 0, 1⟩
def R.clkG.KFAST_STATE : Fld := ⟨0x10c, 31, 30, .rov, 0, 0, 1, 0, 1⟩
def R.clkG.KFAST_LOCK : Fld := ⟨0x10c, 29, 29, .rov, 0, 0, 1, 0, 1⟩
def R.clkG.KFAST_MHZ : Fld := ⟨0x10c, 15, 0, .rov, 0, 0, 1, 0, 1⟩
/-- Fields of the Always-on domain. -/
def R.clkG.all : List Fld :=
  [R.clkG.AON_TRACED, R.clkG.AON_CALREF, R.clkG.AON_ERR, R.clkG.KTIME_LO, R.clkG.KTIME_HI, R.clkG.KFAST_STATE,
    R.clkG.KFAST_LOCK, R.clkG.KFAST_MHZ]

/-! THERM, PWR and CLK headers (11 Table 11.14). -/

def R.tpc.BLK_CAP_DB_PRESENT : Fld := ⟨0x4, 1, 1, .ro, 0, 0, 1, 0, 1⟩
def R.tpc.BLK_CAP_RESET_OK : Fld := ⟨0x4, 0, 0, .ro, 0, 0, 1, 0, 1⟩
def R.tpc.BLK_CTL_EN : Fld := ⟨0x8, 0, 0, .ro, 1, 0, 1, 0, 1⟩
def R.tpc.BLK_STS_STATE : Fld := ⟨0xc, 11, 8, .rov, 0, 0, 1, 0, 1⟩
/-- Fields of the THERM, PWR and CLK headers (11 Table 11.14). -/
def R.tpc.all : List Fld :=
  [R.tpc.BLK_CAP_DB_PRESENT, R.tpc.BLK_CAP_RESET_OK, R.tpc.BLK_CTL_EN, R.tpc.BLK_STS_STATE]

/-! SEC page. -/

def R.sec.BLK_CAP_DB_PRESENT : Fld := ⟨0x4, 1, 1, .ro, 0, 0, 1, 0, 1⟩
def R.sec.BLK_CAP_RESET_OK : Fld := ⟨0x4, 0, 0, .ro, 0, 0, 1, 0, 1⟩
def R.sec.BLK_CTL_EN : Fld := ⟨0x8, 0, 0, .ro, 1, 0, 1, 0, 1⟩
def R.sec.ERR_STS_LOG_FULL : Fld := ⟨0x10, 14, 14, .rw1c, 0, 0, 1, 0, 1⟩
def R.sec.ERR_STS_CERT_BAD : Fld := ⟨0x10, 13, 13, .rw1c, 0, 0, 1, 0, 1⟩
def R.sec.ERR_STS_PUF_FAIL : Fld := ⟨0x10, 12, 12, .rw1c, 0, 0, 1, 0, 1⟩
def R.sec.ERR_STS_TAG_FAIL : Fld := ⟨0x10, 11, 11, .rw1c, 0, 0, 1, 0, 1⟩
def R.sec.ERR_STS_KX_FAIL : Fld := ⟨0x10, 10, 10, .rw1c, 0, 0, 1, 0, 1⟩
def R.sec.ERR_STS_ROLLBACK : Fld := ⟨0x10, 9, 9, .rw1c, 0, 0, 1, 0, 1⟩
def R.sec.ERR_STS_IMG_REJECT : Fld := ⟨0x10, 8, 8, .rw1c, 0, 0, 1, 0, 1⟩
def R.sec.SEC_STS_DEBUG : Fld := ⟨0x100, 31, 24, .rov, 0, 0, 1, 0, 1⟩
def R.sec.SEC_STS_REVOKED : Fld := ⟨0x100, 23, 20, .rov, 0, 0, 1, 0, 1⟩
def R.sec.SEC_STS_LIFECYCLE : Fld := ⟨0x100, 17, 16, .ro, 0, 0, 1, 0, 1⟩
def R.sec.SEC_STS_LOG_ENTRIES : Fld := ⟨0x100, 15, 0, .rov, 0, 0, 1, 0, 1⟩
def R.sec.SVN_VALUE : Fld := ⟨0x104, 6, 0, .rov, 0, 0x4, 4, 0, 1⟩
def R.sec.IMG_STS_OVL : Fld := ⟨0x114, 19, 16, .rov, 0, 0, 1, 0, 1⟩
def R.sec.IMG_STS_BASE : Fld := ⟨0x114, 15, 12, .rov, 0, 0, 1, 0, 1⟩
def R.sec.IMG_STS_SEQ : Fld := ⟨0x114, 11, 8, .rov, 0, 0, 1, 0, 1⟩
def R.sec.IMG_STS_CTRL : Fld := ⟨0x114, 7, 4, .rov, 0, 0, 1, 0, 1⟩
def R.sec.IMG_STS_KEEPER : Fld := ⟨0x114, 3, 0, .rov, 0, 0, 1, 0, 1⟩
def R.sec.SEC_CTL_ALLOW_DEBUG_PEER : Fld := ⟨0x118, 1, 1, .rw, 0, 0, 1, 0, 1⟩
def R.sec.SEC_CTL_INJ_DIS : Fld := ⟨0x118, 0, 0, .w1s, 0, 0, 1, 0, 1⟩
def R.sec.ENC_REQ_PORTS : Fld := ⟨0x120, 31, 0, .rw, 0, 0x4, 4, 0, 1⟩
def R.sec.ENC_ON_PORTS : Fld := ⟨0x130, 31, 0, .rov, 0, 0x4, 4, 0, 1⟩
def R.sec.KX_CNT_FAIL : Fld := ⟨0x140, 31, 16, .rov, 0, 0, 1, 0, 1⟩
def R.sec.KX_CNT_DONE : Fld := ⟨0x140, 15, 0, .rov, 0, 0, 1, 0, 1⟩
def R.sec.TAG_FAIL_CNT_COUNT : Fld := ⟨0x144, 31, 0, .rov, 0, 0, 1, 0, 1⟩
/-- Fields of the SEC page. -/
def R.sec.all : List Fld :=
  [R.sec.BLK_CAP_DB_PRESENT, R.sec.BLK_CAP_RESET_OK, R.sec.BLK_CTL_EN, R.sec.ERR_STS_LOG_FULL,
    R.sec.ERR_STS_CERT_BAD, R.sec.ERR_STS_PUF_FAIL, R.sec.ERR_STS_TAG_FAIL, R.sec.ERR_STS_KX_FAIL,
    R.sec.ERR_STS_ROLLBACK, R.sec.ERR_STS_IMG_REJECT, R.sec.SEC_STS_DEBUG, R.sec.SEC_STS_REVOKED,
    R.sec.SEC_STS_LIFECYCLE, R.sec.SEC_STS_LOG_ENTRIES, R.sec.SVN_VALUE, R.sec.IMG_STS_OVL, R.sec.IMG_STS_BASE,
    R.sec.IMG_STS_SEQ, R.sec.IMG_STS_CTRL, R.sec.IMG_STS_KEEPER, R.sec.SEC_CTL_ALLOW_DEBUG_PEER,
    R.sec.SEC_CTL_INJ_DIS, R.sec.ENC_REQ_PORTS, R.sec.ENC_ON_PORTS, R.sec.KX_CNT_FAIL, R.sec.KX_CNT_DONE,
    R.sec.TAG_FAIL_CNT_COUNT]

/-! CAL page. -/

def R.cal.BLK_CAP_DB_PRESENT : Fld := ⟨0x4, 1, 1, .ro, 0, 0, 1, 0, 1⟩
def R.cal.BLK_CAP_RESET_OK : Fld := ⟨0x4, 0, 0, .ro, 0, 0, 1, 0, 1⟩
def R.cal.BLK_CTL_EN : Fld := ⟨0x8, 0, 0, .ro, 1, 0, 1, 0, 1⟩
def R.cal.ERR_STS_REC_WRITE_FAIL : Fld := ⟨0x10, 11, 11, .rw1c, 0, 0, 1, 0, 1⟩
def R.cal.ERR_STS_REC_TORN : Fld := ⟨0x10, 10, 10, .rw1c, 0, 0, 1, 0, 1⟩
def R.cal.ERR_STS_REF_ABSENT : Fld := ⟨0x10, 9, 9, .rw1c, 0, 0, 1, 0, 1⟩
def R.cal.ERR_STS_CAL_FAIL : Fld := ⟨0x10, 8, 8, .rw1c, 0, 0, 1, 0, 1⟩
def R.cal.CAL_SEL_INST : Fld := ⟨0x100, 16, 8, .rw, 0, 0, 1, 0, 1⟩
def R.cal.CAL_SEL_ID : Fld := ⟨0x100, 7, 0, .rw, 0, 0, 1, 0, 1⟩
def R.cal.CAL_STS_RESULT : Fld := ⟨0x104, 31, 28, .rov, 0, 0, 1, 0, 1⟩
def R.cal.CAL_STS_TRACED : Fld := ⟨0x104, 27, 27, .rov, 0, 0, 1, 0, 1⟩
def R.cal.CAL_STS_ELEM : Fld := ⟨0x104, 23, 16, .rov, 0, 0, 1, 0, 1⟩
def R.cal.CAL_STS_RUNS : Fld := ⟨0x104, 15, 0, .rov, 0, 0, 1, 0, 1⟩
def R.cal.CAL_Q_QUALITY : Fld := ⟨0x108, 31, 0, .rov, 0, 0, 1, 0, 1⟩
def R.cal.CAL_AGE_S : Fld := ⟨0x10c, 31, 0, .rov, 0xffffffff, 0, 1, 0, 1⟩
def R.cal.CAL_PAUSE_US : Fld := ⟨0x110, 15, 0, .rov, 0, 0, 1, 0, 1⟩
def R.cal.CAL_CTL_HOLD : Fld := ⟨0x114, 8, 8, .rw, 0, 0, 1, 0, 1⟩
def R.cal.CAL_CTL_RUN_NOW : Fld := ⟨0x114, 0, 0, .w1s, 0, 0, 1, 0, 1⟩
def R.cal.REF_STS_CALREF : Fld := ⟨0x118, 31, 31, .rov, 0, 0, 1, 0, 1⟩
def R.cal.REF_STS_CAL_VREF : Fld := ⟨0x118, 30, 30, .rov, 0, 0, 1, 0, 1⟩
def R.cal.REF_STS_VREF_UV : Fld := ⟨0x118, 23, 0, .rov, 0, 0, 1, 0, 1⟩
def R.cal.REC_STS_TORN : Fld := ⟨0x11c, 23, 16, .rov, 0, 0, 1, 0, 1⟩
def R.cal.REC_STS_VALID : Fld := ⟨0x11c, 15, 8, .rov, 0, 0, 1, 0, 1⟩
def R.cal.REC_STS_PENDING : Fld := ⟨0x11c, 7, 0, .rov, 0, 0, 1, 0, 1⟩
/-- Fields of the CAL page. -/
def R.cal.all : List Fld :=
  [R.cal.BLK_CAP_DB_PRESENT, R.cal.BLK_CAP_RESET_OK, R.cal.BLK_CTL_EN, R.cal.ERR_STS_REC_WRITE_FAIL,
    R.cal.ERR_STS_REC_TORN, R.cal.ERR_STS_REF_ABSENT, R.cal.ERR_STS_CAL_FAIL, R.cal.CAL_SEL_INST,
    R.cal.CAL_SEL_ID, R.cal.CAL_STS_RESULT, R.cal.CAL_STS_TRACED, R.cal.CAL_STS_ELEM, R.cal.CAL_STS_RUNS,
    R.cal.CAL_Q_QUALITY, R.cal.CAL_AGE_S, R.cal.CAL_PAUSE_US, R.cal.CAL_CTL_HOLD, R.cal.CAL_CTL_RUN_NOW,
    R.cal.REF_STS_CALREF, R.cal.REF_STS_CAL_VREF, R.cal.REF_STS_VREF_UV, R.cal.REC_STS_TORN, R.cal.REC_STS_VALID,
    R.cal.REC_STS_PENDING]

end Sys2Proof.Machine
end

