-- ==== Sys2Proof/Machine/Pages.lean ====
section
/-! DEFINITION. The block pages of BAR0: where each lies, its block type, its fields, the die it belongs to and the reset values of its
registers (01 R28 to R37). -/

namespace Sys2Proof.Machine

/-- 0 for half A, 1 for half B (00 R11). -/
def halfNo : Half → Nat
  | .A => 0
  | .B => 1

def otherHalf : Half → Half
  | .A => .B
  | .B => .A

def halfOf (n : Nat) : Half := if n = 0 then .A else .B

/-- Base of a half's region (01 R28). -/
def halfBase : Half → Nat
  | .A => 0x01000000
  | .B => 0x08000000

/-- BAR0 offset of a page (01 Tables 1.7, 1.8). -/
def pageBase : Page → Nat
  | .keeper => 0
  | .ck => 0x1000
  | .sec => 0x2000
  | .gTherm => 0x3000
  | .gPwr => 0x4000
  | .gClk => 0x5000
  | .gCal => 0x6000
  | .mbx i => 0x10000 + 0x1000 * i.val
  | .ctrlch h => halfBase h
  | .comb h => halfBase h + 0x1000
  | .fwall h => halfBase h + 0x2000
  | .seq h => halfBase h + 0x3000
  | .pcie h => halfBase h + 0x4000
  | .therm h => halfBase h + 0x5000
  | .pwr h => halfBase h + 0x6000
  | .clk h => halfBase h + 0x7000
  | .cal h => halfBase h + 0x8000
  | .noc h q => halfBase h + 0x10000 + 0x1000 * q.val
  | .hbmc h i => halfBase h + 0x20000 + 0x1000 * i.val
  | .ddrc h c => halfBase h + 0x30000 + 0x1000 * c.val
  | .hinge h b => halfBase h + 0x40000 + 0x1000 * b.val
  | .oe h o => halfBase h + 0x50000 + 0x1000 * o.val
  | .laser h o => halfBase h + 0x60000 + 0x1000 * o.val
  | .ucie h k => halfBase h + 0x80000 + 0x1000 * k.val
  | .oport h i => halfBase h + 0x100000 + 0x1000 * i.val
  | .cell h n => halfBase h + 0x200000 + 0x1000 * n.val

/-- An index below n as a page of a window, none outside. -/
def inst (n : Nat) (f : Fin n → Page) (i : Nat) : Option Page :=
  if hi : i < n then some (f ⟨i, hi⟩) else none

/-- The page of a half at page number k of its region. -/
def halfPageOf (h : Half) (k : Nat) : Option Page :=
  if k < 0x10 then
    match k with
    | 0 => some (.ctrlch h) | 1 => some (.comb h) | 2 => some (.fwall h) | 3 => some (.seq h)
    | 4 => some (.pcie h) | 5 => some (.therm h) | 6 => some (.pwr h) | 7 => some (.clk h)
    | 8 => some (.cal h) | _ => none
  else if k < 0x20 then inst 4 (.noc h) (k - 0x10)
  else if k < 0x30 then inst 12 (.hbmc h) (k - 0x20)
  else if k < 0x40 then inst 8 (.ddrc h) (k - 0x30)
  else if k < 0x50 then inst 16 (.hinge h) (k - 0x40)
  else if k < 0x60 then inst 8 (.oe h) (k - 0x50)
  else if k < 0x70 then inst 8 (.laser h) (k - 0x60)
  else if k < 0x80 then none
  else if k < 0x100 then inst 32 (.ucie h) (k - 0x80)
  else if k < 0x200 then inst 64 (.oport h) (k - 0x100)
  else inst 288 (.cell h) (k - 0x200)

/-- The page that holds BAR0 offset a; none where no block occupies it (01 R29). -/
def pageOf (a : Nat) : Option Page :=
  let k := a / 0x1000
  if k < 0x1000 then
    match k with
    | 0 => some .keeper | 1 => some .ck | 2 => some .sec | 3 => some .gTherm | 4 => some .gPwr
    | 5 => some .gClk | 6 => some .gCal
    | k => if k < 0x10 then none else inst 48 .mbx (k - 0x10)
  else if k < 0x8000 then halfPageOf .A (k - 0x1000)
  else if k < 0x10000 then halfPageOf .B (k - 0x8000)
  else none

/-- Block type code (01 Table 1.18). -/
def typeCode : Page → Nat
  | .keeper => 0x01
  | .ck | .ctrlch _ => 0x02
  | .mbx _ => 0x03
  | .noc _ _ => 0x10
  | .comb _ => 0x11
  | .hbmc _ _ => 0x12
  | .ddrc _ _ => 0x13
  | .hinge _ _ => 0x14
  | .ucie _ _ => 0x15
  | .fwall _ => 0x16
  | .cell _ _ => 0x20
  | .seq _ => 0x21
  | .oe _ _ => 0x30
  | .oport _ _ => 0x31
  | .laser _ _ => 0x32
  | .pcie _ => 0x40
  | .gTherm | .therm _ => 0x50
  | .gPwr | .pwr _ => 0x51
  | .gClk | .clk _ => 0x52
  | .sec => 0x60
  | .gCal | .cal _ => 0x61

/-- Logical instance number of a page. -/
def instNo : Page → Nat
  | .mbx i => i.val
  | .noc _ q => q.val
  | .hbmc _ i => i.val
  | .ddrc _ c => c.val
  | .hinge _ b => b.val
  | .oe _ o => o.val
  | .laser _ o => o.val
  | .ucie _ k => k.val
  | .oport _ i => i.val
  | .cell _ n => n.val
  | _ => 0

/-- The half of a page, none for a global page. -/
def pageHalf : Page → Option Half
  | .keeper | .ck | .sec | .gTherm | .gPwr | .gClk | .gCal | .mbx _ => none
  | .ctrlch h | .comb h | .fwall h | .seq h | .pcie h | .therm h | .pwr h | .clk h | .cal h => some h
  | .noc h _ | .hbmc h _ | .ddrc h _ | .hinge h _ | .oe h _ | .laser h _ | .ucie h _ | .oport h _ | .cell h _ => some h

/-- BLK_ID (01 R31, R32): type, instance modulo 256, version 1.0. -/
def blkId (p : Page) : Nat := typeCode p * 2 ^ 24 + (instNo p % 256) * 2 ^ 16 + 0x0100

/-- ERR_SEV bits that are fixed fatal (02 R80, 04 R141): CS_UE and ME_PARITY of a cell, STACK_FAIL of a stack. -/
def fixedFatal : Page → Nat
  | .cell _ _ => 0xC00
  | .hbmc _ _ => 0x4000
  | _ => 0

/-- ERR_MASK and ERR_SEV (01 R34). -/
def R.hdr.ERR_MASK : Fld := ⟨0x14, 31, 0, .rw, 0, 0, 1, 0, 1⟩
def R.hdr.ERR_SEV : Fld := ⟨0x18, 31, 0, .rw, 0, 0, 1, 0, 1⟩
/-- All of ERR_STS, of ERR_INJ and of BLK_STS as words. -/
def R.hdr.ERR_STS : Fld := ⟨0x10, 31, 0, .rw1c, 0, 0, 1, 0, 1⟩
def R.hdr.ERR_INJ : Fld := ⟨0x1c, 31, 0, .rw, 0, 0, 1, 0, 1⟩

/-- Header fields every page has. -/
def hdrCommon : List Fld :=
  [R.hdr.BLK_CTL_ERR_IRQ_EN, R.hdr.BLK_STS_ERR, R.hdr.BLK_STS_FENCED, R.hdr.BLK_STS_RESET_BUSY, R.hdr.BLK_STS_READY,
    R.hdr.ERR_STS_PARITY, R.hdr.ERR_STS_INJECTED, R.hdr.ERR_STS_LOCK_ERR, R.hdr.ERR_STS_STATE_ERR, R.hdr.ERR_INJ_ARM,
    R.hdr.ERR_INJ_BIT, R.hdr.LOCK_OWNER, R.hdr.LOCK_REL_RELEASE, R.hdr.ERR_MASK, R.hdr.ERR_SEV]

/-- Doorbell fields, on CTRLCH, MBX and SEQ pages alone (01 R37). -/
def hdrDoorbell : List Fld := [R.hdr.DB_SET_SET, R.hdr.DB_MASK_MASK, R.hdr.DB_STS_STS]

/-- BLK_CTL.EN of the keeper page, which has no header table of its own: read-only 1 (DESIGN CHOICE, assumption 7). -/
def keeperEn : Fld := ⟨8, 0, 0, .ro, 1, 0, 1, 0, 1⟩

/-- EN of a UCIE page is RW (05 Table 5.12). -/
def ucieEn : Fld := ⟨8, 0, 0, .rw, 1, 0, 1, 0, 1⟩

/-- The block's own fields. -/
def blockFields : Page → List Fld
  | .keeper => keeperEn :: R.keeper.all
  | .ck | .ctrlch _ => hdrDoorbell ++ R.ctrlch.all
  | .mbx _ => hdrDoorbell ++ R.mbx.all
  | .noc _ _ => R.noc.all
  | .comb _ => R.comb.all
  | .hbmc _ _ => R.hbmc.all
  | .ddrc _ _ => R.ddrc.all
  | .hinge _ _ => R.dlink.all
  | .ucie _ _ => ucieEn :: R.dlink.all
  | .fwall _ => R.fwall.all
  | .cell _ _ => R.cell.all
  | .seq _ => hdrDoorbell ++ R.seq.all
  | .oe _ _ => R.oe.all
  | .oport _ _ => R.oport.all
  | .laser _ _ => R.laser.all
  | .pcie _ => R.pcie.all
  | .gTherm => R.tpc.all ++ R.therm.all.filter (fun f => f.off = 0x10) ++ R.thermG.all
  | .therm _ => R.tpc.all ++ R.therm.all
  | .gPwr => R.tpc.all ++ R.pwr.all ++ R.pwrG.all
  | .pwr _ => R.tpc.all ++ R.pwr.all ++ R.pwrH.all
  | .gClk => R.tpc.all ++ R.clk.all.filter (fun f => f.off = 0x10) ++ R.clkG.all
  | .clk _ => R.tpc.all ++ R.clk.all
  | .sec => R.sec.all
  | .gCal | .cal _ => R.cal.all

/-- All fields of a page. -/
def pageFields (p : Page) : List Fld := hdrCommon ++ blockFields p

/-- A register occupies offset o of the page. -/
def occupied (p : Page) (o : Nat) : Bool := o = 0 || (pageFields p).any (·.at o)

/-- Bits of the register at offset o that have one of the access codes. -/
def accMask (p : Page) (codes : List Acc) (o : Nat) : Nat :=
  (pageFields p).foldl (fun m f => if f.at o && codes.contains f.acc then m ||| f.mask else m) 0

/-- Sum of the reset values of the fields at offset o. -/
def fieldReset (p : Page) (o : Nat) : Nat :=
  (pageFields p).foldl (fun m f => if f.at o then m ||| ((f.rst % 2 ^ f.width) * 2 ^ f.lo) else m) 0

/-- On-die sensors of the die with a code (11 Table 11.9), and the first one's index in its half. -/
def dieSensors (d : Nat) : Nat :=
  if d < 4 then 80 else if d = 4 then 96 else if 8 ≤ d ∧ d < 16 then 12 else if 16 ≤ d ∧ d < 28 then 1 else if 28 ≤ d ∧ d < 36 then 2 else 0
def firstSensor (d : Nat) : Nat := ((List.range d).map dieSensors).sum

/-- Reset value of the register at BAR0 offset a: the tables' values, and the constants of a page that the tables give by
page (PHYS, THIS_CH, PRIV, SPARE, FUNC of the port, thermal sensors of a die). -/
def resetValue (a : Nat) : Word :=
  match pageOf a with
  | none => 0
  | some p =>
    let o := a % 0x1000
    let base := fieldReset p o
    BitVec.ofNat 32 <|
      if o = 0 then blkId p
      else match p with
        | .cell _ n => if o = 0x100 then n.val * 2 ^ 16 else base
        | .ck => if o = 0x104 then 2 else base
        | .ctrlch .B => if o = 0x104 then 1 else base
        | .mbx i => if o = 0x100 && i.val < 4 then 4 else base
        | .hinge _ _ => if o = 4 then base - 0x18 else base
        | .laser _ _ => if o = 0x140 || o = 0x144 then base ||| 2 ^ 28 else base
        | .therm _ => if 0x100 ≤ o && o < 0x190 then base ||| (dieSensors ((o - 0x100) / 4) * 2 ^ 8) else base
        | .keeper => if o = 0x100 then base ||| (Config.stepping.toNat * 2 ^ 8 + Config.assembly.toNat) else base
        | _ => base

/-- Low words of the 64-bit registers, the pairs named _LO and _HI (00 R8; that these pairs are meant: DEDUCED,
assumption 8). -/
def is64Low : Page → Nat → Bool
  | .cell _ _, o => o = 0x118 || o = 0x120
  | .seq _, o => o = 0x100 || o = 0x120
  | .comb _, o => o = 0x108 || o = 0x110 || o = 0x42C || o = 0x44C || o = 0x700 ||
      (0x518 ≤ o && o < 0x618 && (o - 0x518) % 0x20 = 0)
  | .noc _ _, o => o = 0x108
  | .fwall _, o => o = 0x104 || o = 0x10C || o = 0x120
  | .pcie _, o => o = 0x110 || o = 0x118 || o = 0x120
  | .ctrlch _, o | .ck, o => o = 0x108
  | .gPwr, o => o = 0x114
  | .gClk, o => o = 0x104
  | _, _ => false

/-- Dies by number: keeper 0, comb 1 + h, compute 3 + 4 h + q, OE 11 + 8 h + o, laser tile 27 + 8 h + o. -/
def dieComb (h : Half) : Nat := 1 + halfNo h
def dieCd (h : Half) (q : Nat) : Nat := 3 + 4 * halfNo h + q
def dieOe (h : Half) (o : Nat) : Nat := 11 + 8 * halfNo h + o
def dieLaser (h : Half) (o : Nat) : Nat := 27 + 8 * halfNo h + o

/-- The die that carries a page: a cell's page its compute die, OE and OPORT pages the OE die, LASER pages the laser
tile, the half's other pages the comb die, the global pages the keeper (01 Table 1.1, R30). -/
def dieOf : Page → Nat
  | .cell h n => dieCd h (n.val / 72)
  | .oe h o => dieOe h o.val
  | .oport h i => dieOe h (i.val / 8)
  | .laser h o => dieLaser h o.val
  | p => match pageHalf p with
    | none => 0
    | some h => dieComb h

/-- Master IDs (09 Table 9.6). -/
def masterId : Master → Nat
  | .cc => 0x01
  | .keeper => 0x02
  | .seqA => 0x10
  | .seqB => 0x11
  | .mgmt => 0x30
  | .host0 => 0x20
  | .host1 => 0x21
  | .debug => 0x31

/-- The function a host master comes through. -/
def masterFn : Master → Option Fn
  | .host0 => some .f0
  | .host1 => some .companion
  | _ => none

end Sys2Proof.Machine
end

