-- ==== Sys2Proof/Machine/State.lean ====
section
/-! DEFINITION. The state of the KZ9600 as plain data. A register of BAR0 has its home in `regs`, keyed by its BAR0 offset;
what no register shows stands in the structures below. Maps are lists of (key, value) pairs with rising keys; a key that is not listed
has the default the operation that reads it names. -/

namespace Sys2Proof.Machine

/-- Why the machine stops for good. The spec describes no such state of this device (14 R420 gives every failure an
effect that goes on), so no meaning raises one. -/
inductive Fault where
  /-- Raised by nobody: kept so that the type has a name to print. Safe. -/
  | none
deriving DecidableEq, Repr

/-- Why a command has no meaning. -/
inductive Refusal where
  /-- The arm of a command that has no meaning yet. Safe: nothing can be proved of its effect. -/
  | notModelled (mnemonic : String)
  /-- A command whose operands name nothing (`Instr.wf` is false): raised by the meanings of BAD_SIZE_ACCESS and
  LATCHED_LOW_READ when the access is not of the kind the row names. Safe: no agent sends such a command. -/
  | illFormed
deriving DecidableEq, Repr

/-! ## Lands, supplies and dies -/

/-- Lands and supplies (01 R14, R23; 11 R336 to R338). Active-low lands are held as "asserted". -/
structure Pins where
  vAon    : Bool            -- V_AON within its limits
  vin48   : Bool            -- VIN48 above its rising threshold
  por     : Bool            -- POR_N asserted
  pwrFail : Bool            -- PWR_FAIL_N asserted
  perstA  : Bool            -- A.PERST_N asserted
  perstB  : Bool
  refA    : Bool            -- REFCLK of half A present
  refB    : Bool
  priSel  : Bool            -- level of PRI_SEL
  sampled : Bool            -- the latch of PRI_SEL and BRDID holds
  edge    : Bool            -- POR_N has deasserted and no bring-up has started since
  brdid   : BitVec 4
  fault   : Bool            -- FAULT_N asserted
  therm   : Bool            -- THERMTRIP_N asserted
  alert   : Bool            -- ALERT_N asserted
deriving DecidableEq, Repr

/-- What a die is doing (01 R30). -/
inductive DieSt where | off | reset | up | fenced | lost
deriving DecidableEq, Repr

/-! ## Memory (04) -/

/-- A line a comb cache holds: in M where `dirty`; `keep` by HINT 10; the number of its last use, which pseudo-LRU looks at (04 R126). -/
structure CLine where
  keep  : Bool
  dirty : Bool
  use   : Nat
deriving DecidableEq, Repr

/-- Training of a stack (04 R123): the group under training, whether a group's retry has failed, whether every 6.4 Gb/s check so far is good, the
worst eye. -/
structure TrainSt where
  group  : Nat
  failed : Bool
  slowOk : Bool
  eye    : Nat
deriving DecidableEq, Repr

/-- An access that its stack controller holds (04 R122, R123): a line access, a fabric request that has arrived, one of the device to itself, a
read through BAR2. -/
inductive Held where
  | line (r : LineReq)
  | fab  (p : PortId) (m : ReqMsg)
  | own  (h : Half) (tag : Nat) (m : ReqMsg)
  | bar2 (f : Fn) (addr len : Nat) (u : Upset)
deriving DecidableEq, Repr

/-- Device memory. `bytes` is canonical: addresses rise, and outside the rows of `undef` no entry is 0. `undef` gives each
row (12 GiB of HBM, key 72 h + j; a DDR5 tier, key 144 + h) whose contents are undefined the stamp of the event. -/
structure Mem where
  bytes  : List Host.Cell
  undef  : List (Nat × Nat)
  poison : List Nat                     -- poisoned 64-byte sectors, address / 64, rising
  cacheA : List (Nat × CLine)           -- lines of half A's comb cache, address / 128
  cacheB : List (Nat × CLine)
  /-- descriptions of the DIMMs (04 R131), key 8 h + c; SPD bytes 0 to 1,023 -/
  dimms  : List (Nat × List Byte)
  uses   : Nat                          -- uses of cache lines so far
  train  : List (Nat × TrainSt)         -- stacks under training, key 12 h + i
  held   : List Held                    -- oldest first
  /-- sectors with an uncorrectable error before, rising (04 R137 "repeated") -/
  seenUE : List Nat
deriving DecidableEq, Repr

/-! ## Host attach (09) -/

/-- A request of the device to host memory (09 R292); a write with the queue it serves, for the record of a discarded one (R301). -/
inductive HostReq where
  | write (fn : Fn) (addr : Nat) (bytes : List Byte) (ro : Bool) (queue : Option Nat)
  | read  (fn : Fn) (id : Nat) (addr len : Nat)
  | msi   (fn : Fn) (vec : Nat)
deriving DecidableEq, Repr

/-- One PCIe port, by half (09 R296 to R301). -/
structure HPort where
  lost   : Bool
  wasUp  : Bool                 -- its data link has been up since PERST_N
  sent   : List HostReq         -- posted requests sent since the last data-link-down
  reads  : List HostReq         -- reads without a completion
  kept   : List HostReq         -- requests kept for issuing again
  held   : List HostReq         -- requests held: link down, D3hot, takeover
deriving DecidableEq, Repr

/-- Configuration of one function (09 R286 to R296). -/
structure FnSt where
  mse    : Bool                 -- Memory Space Enable
  bme    : Bool                 -- Bus Master Enable
  msixEn : Bool
  d3     : Bool                 -- in D3hot
  roEn   : Bool                 -- Relaxed Ordering Enable
  mps    : Nat
  mrrs   : Nat
  msix   : List (Nat × Word)    -- MSI-X table by word, 4 words a vector
  pba    : List Nat             -- pending vectors, rising
  doe    : Option (List Byte)   -- the DOE object in flight
  aer    : Nat                  -- advisory non-fatal errors logged
deriving DecidableEq, Repr

/-- The identifiers a function presents (09 R287, Table 9.2). -/
structure FnIds where
  vendor   : Nat
  device   : Nat
  cls      : Nat
  revision : Nat
  subsys   : BitVec 32          -- subsystem vendor and ID
  serial   : BitVec 64          -- Device Serial Number
deriving DecidableEq, Repr

/-- What a read of host memory is for: the COPY, and where its bytes go (space 0 device memory, 1 and 2 host). -/
structure HRead where
  half : Half
  q    : Nat
  slot : Nat
  dsp  : Nat
  dst  : Nat
  len  : Nat
deriving DecidableEq, Repr

/-- An error record that waits to be written, or is written (14 Table 14.5). -/
structure ErrRec where
  seq    : Nat
  page   : Nat
  blkid  : Nat
  bit    : Nat
  flags  : Nat
  cost   : Nat
  status : Nat
  count  : Nat
  parts  : Nat
  detail : Nat
  info   : List Byte
  stamp  : Nat                  -- the free values TIME and KTIME of the event
  irq    : Bool                 -- the block's error interrupt is due with the record (14 R428)
deriving DecidableEq, Repr

/-- Error ring of one half (14 R425): next SEQ and the on-die buffer. -/
structure ErrRing where
  seq  : Nat
  held : List ErrRec
deriving DecidableEq, Repr

/-- Coalescing of one page and bit: records in the window, events folded (14 R426). -/
structure Coal where
  written : Nat
  folded  : Nat
deriving DecidableEq, Repr

/-- The keeper's non-volatile store: both NOR devices, the journal records that wait to be programmed, the next SEQNO (11 R360). -/
structure Nv where
  prim  : Nor
  mirr  : Nor
  queue : List (Nat × List Byte)        -- type and body, oldest first
  seqno : Nat
deriving DecidableEq, Repr

/-! ## Cells (02) -/

/-- What the KERNEL descriptor gives a running part (02 R41, 03 Table 3.4). -/
structure KCtx where
  q     : Nat               -- local queue and slot of the descriptor
  slot  : Nat
  part  : Nat               -- partition
  prog  : Nat
  ninst : Nat               -- index of the last instruction
  drnd  : Nat
  dovf  : Nat
deriving DecidableEq, Repr

/-- An instruction queued in a unit: its token, the cell-store lines and the memory bytes it will write (02 R66), its index, and the MMA
passes it completes (02 R80). -/
structure InFl where
  tok    : Option Nat
  lines  : List (Nat × Line)
  stores : List (Nat × List Byte)
  hint   : Nat
  load   : Bool             -- a LOAD or GATHER
  pc     : Nat := 0
  passes : Nat := 0
  spans  : List (Nat × Nat) := []      -- memory it reads: address, bytes
deriving DecidableEq, Repr

/-- One open loop: first and past-the-end instruction, iterations left, iteration index (02 R71). -/
structure LoopLvl where
  first : Nat
  stop  : Nat
  left  : Nat
  iter  : Nat
deriving DecidableEq, Repr

/-- One tensor cell, but for its registers. -/
structure CellSt where
  sregs : List (Nat × DWord)        -- S1 to S31
  cs    : List (Nat × Line)         -- cell store, 65,536 lines
  gen   : DWord                     -- stochastic rounding: state, pool, draws left (02 R57)
  pool  : DWord
  left  : Nat
  me0   : List InFl
  me1   : List InFl
  vu    : List InFl
  lsu   : List InFl
  loops : List LoopLvl              -- innermost first
  pc    : Nat                       -- next instruction
  ctx   : Option KCtx
  ended : Option (Nat × Nat)        -- the part has ended: status and cause
  wait  : Option (Nat × Nat)        -- a WAIT that is not satisfied: semaphore, value
  last  : Option Nat                -- partition of the last part (02 R42)
  retire : Bool                     -- RETIRE_REQ pends
  swap   : Bool                     -- a fixed-fatal error: the swap is due (02 R76)
deriving DecidableEq, Repr

/-! ## Queues (03) -/

/-- The sequencer's copy of a queue context entry (03 Table 3.1). -/
structure QCtx where
  dring : Nat
  cring : Nat
  dlog  : Nat
  clog  : Nat
  dsp   : Nat
  csp   : Nat
  prio  : Nat
  weight : Nat
  cont  : Bool
  vec   : Nat
  vecFn : Nat
  waitTmo : Nat
  kernTmo : Nat
deriving DecidableEq, Repr

/-- A descriptor in flight: its 1,024 bits, and what it has come to. -/
structure Desc where
  slot   : Nat
  raw    : Nat
  done   : Bool             -- has its status; DESCRIPTOR_COMPLETE writes it out
  status : Nat
  detail : Nat
  info   : Nat              -- INFO of the record: bytes written, semaphore value or payload
  cflags : Nat
  fcell  : Nat
  started : Bool            -- KERNEL: parts run
  cells  : List Nat         -- KERNEL: physical cells whose parts have not completed
  pend   : Nat              -- requests to host or fabric without an answer
  stream : Bool             -- holds a DMA stream
deriving DecidableEq, Repr

/-- A work queue (03 R81 to R84). `st` is the code of Table 3.13. -/
structure QueueSt where
  st    : Nat
  ctx   : QCtx
  tail  : Nat
  cons  : Nat
  next  : Nat               -- next slot to dispatch
  fly   : List Desc         -- dispatched and not completed, in slot order
  fin   : List Nat          -- completed slots beyond CONS
  ci    : Nat               -- records written since ENABLE
  credit : Nat              -- dispatches left in the round (03 R90)
  aged  : Bool
  haltDue : Bool            -- a failure in PAUSING: HALTED once no work is in flight (03 Table 3.16)
  /-- failed remote writes since the last FENCE of scope 11: slot, status, detail (03 R96) -/
  bad11 : List (Nat × Nat × Nat)
deriving DecidableEq, Repr

/-! ## Links between dies (05) -/

/-- A flit in a hinge replay buffer: its sequence number, its bytes, what it carries (05 R153). -/
structure HFlit where
  seq   : Nat
  bytes : List Byte
  flow  : HingeFlow
deriving DecidableEq, Repr

/-- One end of a hinge bundle (key 16 h + b) or a UCIe module (key 32 + 32 h + k), but for its registers. -/
structure DLink where
  exp    : Nat              -- expected sequence number
  since  : Nat              -- flits accepted since the last acknowledgement
  bad    : Option (List Byte)   -- the bad copy of the expected flit
  next   : Nat              -- next sequence number to send
  sent   : List HFlit       -- the replay buffer: flits that are not acknowledged, oldest first
  failed : List Nat         -- failed receive lanes, rising
  charge : List (Nat × Nat) -- bit errors charged to lanes (05 R153, R159)
  retry  : Bool             -- firmware's one reset after BROKEN runs (05 R156)
deriving DecidableEq, Repr

/-! ## Optical engines (06) -/

/-- A ring (key 128 port + 64 tx + ring, port 0 to 7): heater in µW and its stored value, last monitor code, parity of the update, consecutive
updates within and beyond the offset limits, locked or parked, and the heaters of its neighbours at its last update. -/
structure RingSt where
  heater : Nat
  home   : Nat
  last   : Int
  odd    : Bool
  good   : Nat
  bad    : Nat
  locked : Bool
  parked : Bool
  ofs    : Int
  seen   : List (Nat × Nat)
deriving DecidableEq, Repr

/-- A port carries channel src on a spare; kept where laser src has retired (06 R193, R195). -/
structure SpareUse where
  port  : Nat
  spare : Nat
  src   : Nat
  kept  : Bool
deriving DecidableEq, Repr

/-- How far one port of a hand-over is. -/
inductive MoveSt where | asked | dup | dupAgain | done | left
deriving DecidableEq, Repr

/-- A port that moves in a hand-over. -/
structure Move where
  port  : Nat
  spare : Nat
  st    : MoveSt
deriving DecidableEq, Repr

/-- A hand-over of laser n (port none), or a substitution of channel n on one port. -/
structure HandOver where
  n     : Nat
  port  : Option Nat
  moves : List Move
deriving DecidableEq, Repr

/-- One OE with its laser tile (key 8 h + o), but for its registers. -/
structure OeSt where
  ho    : Option HandOver
  queue : List (Nat × Option Nat)       -- hand-overs that wait, in trigger order
  dim   : Bool                          -- DIM is requested
  ceil  : Bool                          -- the bias ceiling is lowered: triggers are not evaluated (06 R180)
  rings : List (Nat × RingSt)
  branches : List Nat                   -- open transmit branches, 18 port + laser (06 R173, R178)
  uses  : List SpareUse
  cross : List (Nat × Nat)              -- measured crosstalk in 1/1000, key 1,024 ring + neighbour (06 R188)
  need  : List (Nat × Nat)              -- bias in mA that a laser needs for its setpoint (06 R179)
  monLeft : Nat                         -- sensor samples until the selected monitor's integration ends (06 R191)
deriving DecidableEq, Repr

/-! ## Fabric ports (06, 07, 08) -/

/-- A flit that is not acknowledged: its number, its virtual channel (1 = RSP), its payload. -/
structure TxFlit where
  seq : Nat
  rsp : Bool
  pay : List Byte
  cnt : Nat                 -- its count, and the key that seals it (13 R412)
  key : Nat
deriving DecidableEq, Repr

/-- Link keys of one port (13 R410 to R414). `st`: 0 no encryption, 1 an initial agreement runs, 2 the partner's message is accepted and
KX_SWITCH sent, 3 keys in force, 4 refused, 5 not possible, 6 and 7 as 1 and 2 for a rekey, 8 a refused rekey. -/
structure KxSt where
  st      : Nat
  secret  : Nat              -- number of the ephemeral secret; 0 none
  body    : List Byte        -- the local key message without its signature, and with it
  msg     : List Byte
  pchain  : List Byte        -- the partner's chain
  acked   : Nat              -- fragments acknowledged in order
  got     : Nat              -- fragments received in order
  sentSw  : Bool             -- KX_SWITCH sent, and the partner's one received
  gotSw   : Bool
  cTx     : Nat              -- switch counts
  cRx     : Nat
  cntTx   : Nat              -- data flits numbered, and expected, since the fresh start
  cntRx   : Nat
  keyTx   : Nat              -- keys as numbers: 0 none
  keyRx   : Nat
  nextTx  : Nat              -- keys that wait for their switch count
  nextRx  : Nat
deriving DecidableEq, Repr

/-- One fabric port (key 64 h + i), but for its registers. -/
structure PortSt where
  probing  : Bool
  att      : List (Nat × Nat)           -- attenuation by channel, 0.1 dB
  oma      : List (Nat × BitVec 16)     -- partner-reported OMA by channel
  rxOma    : List (Nat × BitVec 16)     -- OMA measured here
  low      : List (Nat × Nat)           -- consecutive low reports by channel
  cost     : List (Nat × Nat × Nat)     -- cost table of the last search: ring, channel, µW
  lostTx   : List Nat                   -- channels that cannot be transmitted, or received
  lostRx   : List Nat
  hoRx     : Option (Nat × Nat)         -- a receive move from n to s that waits for the duplicate
  fails    : Nat                        -- training: failed steps and failed resets in a row
  resets   : Nat
  trn      : Option TrnParam            -- the partner's TRN_PARAM of this training
  trnW     : Nat                        -- the partner's W of TRN_DONE, or the bound of RETRAIN_REQ; 0 none
  trnRes   : Option Bool                -- the partner's TRN_DONE: resume or fresh start
  retrain  : Bool                       -- an optical retrain is due before the next training (07 R219)
  excl     : Bool                       -- excluded from its bond (07 R216)
  waking   : Bool                       -- a wake that has met no ALIGN flit
  token    : Word                       -- own link token, and the one recorded of the partner
  ptoken   : Word
  far      : Bool
  txReq    : List FabMsg
  txRsp    : List FabMsg
  offReq   : Nat                        -- bytes of the first message already sent
  offRsp   : Nat
  flits    : List TxFlit                -- unacknowledged, oldest first
  msgs     : List (Nat × FabMsg)        -- messages in them, with the number of the flit that ends each
  replay   : Option Nat                 -- next number of a running replay
  rpStart  : Nat                        -- where the last replay began, and replays in a row from there
  rpCount  : Nat
  ackOut   : Nat                        -- the ACK value sent, and flits accepted since it
  sinceAck : Nat
  nakOut   : Bool                       -- a NAK goes out with the next flit
  nakFor   : Option Nat                 -- the E that has drawn a NAK
  ctl      : List (List Byte)           -- control messages that wait, 16 bytes each
  ctlGap   : Nat                        -- slots since the last CTL flit with messages, since the last ALIGN flit
  alignGap : Nat
  alignDue : Bool
  lastRsp  : Bool                       -- the virtual channel that sent last (round robin)
  rxReq    : List Nat                   -- payload bytes of each received flit not yet taken
  rxRsp    : List Nat
  stale    : Bool                       -- 8 µs without a good flit: both channels count as XOFF
  asleep   : Bool                       -- SLEEP_REQ sent, SLEEP_ACK awaited
  sleepOk  : Bool                       -- SLEEP_ACK is held, own flits are not all acknowledged
  xReq     : Bool                       -- XOFF bits this side sends
  xRsp     : Bool
  sleepFor : Bool                       -- a SLEEP_REQ of the partner waits for its answer
  dropRx   : Bool
  crcTx    : Bool
  unlock   : List Nat                   -- lanes out of symbol lock
  hello    : Bool                       -- the partner's HELLO has come in on this link
  kx       : KxSt
deriving DecidableEq, Repr

/-! ## Fabric (08) -/

/-- A partner-table entry (08 R255). -/
structure PEntry where
  fid     : Nat
  uid     : Nat
  session : Nat
  cls     : Nat
  caps    : Nat
  tags    : List Nat
  ver     : Nat
  st      : Nat
  ports   : List Nat        -- UP ports to the neighbour, rising; none: no neighbour
  used    : Nat             -- order of use
deriving DecidableEq, Repr

/-- Whose request a tag holds. -/
inductive Owner where
  | copy (h : Half) (q slot : Nat) (addr : Nat)     -- a message of a remote COPY, and its local address
  | cmd (h : Half) (p slot : Nat)                   -- an entry of a fabric command ring
deriving DecidableEq, Repr

/-- An outstanding request (08 R267). -/
structure FReq where
  msg     : ReqMsg
  part    : Nat
  owner   : Owner
  port    : Option Nat      -- the port it left by; none: it waits for a session or a candidate
  touched : Bool            -- a link drop or PATH_LOST has touched it
  retry   : Bool            -- a RETRY has come; RETRY_RESEND sends it again
deriving DecidableEq, Repr

/-- A remote COPY that runs (08 R262). -/
structure RCopy where
  half   : Half
  q      : Nat
  slot   : Nat
  part   : Nat
  raw    : Nat
  todo   : List (Nat × Nat × Nat)       -- messages not yet issued: local address, target address, bytes
  bytes  : Nat
  fail   : Option (Nat × Nat)
  out    : Nat
deriving DecidableEq, Repr

/-- A result-cache entry (08 R270). -/
structure RcEnt where
  half    : Half
  sfid    : Nat
  session : Nat
  tag     : Nat
  epoch   : Nat
  done    : Bool
  status  : Nat
  data    : List Byte
deriving DecidableEq, Repr

/-- A fabric command in flight: its slot, its 512 bits, and its outcome once known. -/
structure FCmd where
  slot : Nat
  raw  : Nat
deriving DecidableEq, Repr

/-- A loaded fabric context (key 8 h + p; 08 R264). -/
structure FCtx where
  raw  : Nat
  tail : Nat
  next : Nat
  todo : List FCmd          -- read from the ring and not yet started
  fly  : List FCmd
  fin  : List Nat
  ci   : Nat
deriving DecidableEq, Repr

/-- A collective that runs (08 R277). -/
structure CollSt where
  half  : Half
  q     : Nat
  slot  : Nat
  part  : Nat
  raw   : Nat
  rank  : Nat
  fids  : List Nat                      -- members by rank
  going : Bool                          -- the members' entries are ACTIVE: READY and data flow
  ready : List Nat                      -- FIDs whose READY is held
  got   : List (Nat × Nat × Nat)        -- received segments: step or sender, first element, elements
  hold  : List CollMsg                  -- messages that wait for a READY or a candidate, oldest first
  free  : Nat                           -- a free value: STEP of all-to-all data
  bytes : Nat
deriving DecidableEq, Repr

/-! ## Control complex and management (10) -/

/-- The control complex, but for its registers: frame number, next sequence number of each actuator, copies in open windows, the last
accepted command of each actuator. -/
structure CcSt where
  frame  : Nat
  expect : List (Nat × Nat)
  copies : List (Nat × List CmdCopy)
  last   : List (Nat × CmdCopy)
  promo  : List Nat                     -- actuators that hold for a promotion
  injd   : List Nat                     -- channels whose copy an injection has corrupted
deriving DecidableEq, Repr

/-- A management event (10 R332): class, half, detail, the stamp of its keeper time. -/
structure MgmtEvt where
  cls    : Nat
  half   : Nat
  detail : Nat
  stamp  : Nat
deriving DecidableEq, Repr

/-- The I3C target: enabled events (ENEC), maximum read and write lengths, hot-join requested. -/
structure I3cSt where
  events : Nat
  mrl    : Nat
  mwl    : Nat
  hot    : Bool
deriving DecidableEq, Repr

/-! ## Power, clocks, temperature (11) -/

/-- A die or a remote input under watch: its last readings, newest first, the samples at which its state changed, and the state before the
present one. -/
structure WatchSt where
  hist : List Int
  chg  : List Nat
  prev : Nat
deriving DecidableEq, Repr

/-- Ceilings of a compute die in MHz and duties in sixteenths minus 1 (11 R343); 1,500 and 15 do not bind. `rise` is the duty while the load
rises from idle (11 R344). -/
structure CdClk where
  cap    : Nat
  capD   : Nat
  therm  : Nat
  thermD : Nat
  rise   : Nat
  region : Nat
  surge  : Nat
deriving DecidableEq, Repr

/-- What the last run of a calibration instance left (12 Table 12.11), with its failures in a row. -/
structure CalRec where
  result : Nat
  traced : Bool
  elem   : Nat
  runs   : Nat
  q      : Int
  passed : Bool
  pause  : Nat
  fails  : Nat
deriving DecidableEq, Repr

/-! ## Security (13) -/

/-- Security state of the keeper. -/
structure SecSt where
  meas    : List (Nat × List Byte)      -- M1 to M8
  log     : List (List Byte)
  frozen  : Bool                        -- BOOT_DONE has come: M1 to M7 no longer extend
  nonce   : Option Nat                  -- stamp of the debug nonce
  token   : Option Nat                  -- permission mask of a stored token
  mask    : Option Nat                  -- debug is unlocked with this mask
  svn     : List (Nat × Nat)            -- blown fuses of each counter
  revoke  : Nat
  puf     : Bool
  cert    : Bool
  rom     : Bool                        -- the keeper stays in its ROM
  running : List (Region × Image)       -- images in force
deriving DecidableEq, Repr

/-- States of the TAP controller (IEEE 1149.1). -/
inductive TapCtl where
  | reset | idle | selDr | capDr | shDr | ex1Dr | pauDr | ex2Dr | upDr | selIr | capIr | shIr | ex1Ir | pauIr | ex2Ir | upIr
deriving DecidableEq, Repr

/-- The test access port: controller, instruction, the shift register low bit first, TDO. -/
structure TapSt where
  ctl   : TapCtl
  ir    : Nat
  shift : List Bool
  tdo   : Option Bool
deriving DecidableEq, Repr

/-! ## The boundary -/

/-- What has left the device. -/
inductive Out where
  | host (port : Half) (r : HostReq)
  | ids (f : Fn) (x : FnIds)                            -- a function's identifiers, read by its host
  | flush (port : Half)                                 -- the zero-length read of 09 R294
  | readValue (m : Master) (addr : Nat) (value : Nat)   -- the data of a BAR0 read
  | busError (m : Master)                               -- 09 R307
  | bar2Data (f : Fn) (data : List Byte) (ep : Bool)
  | bar2UR (f : Fn)
  | access (h : Half) (src : ReqSrc) (status : Nat) (data : List Byte)   -- the answer to a line access
  | flit (p : PortId) (lanes : List (List Nat))         -- a flit on the lanes of the transmit fibres: each lane's 16-bit words, as scrambled
  | wake (p : PortId)                                   -- the wake pattern on a transmit fibre (07 R238)
  | training (p : PortId) (blocks : List Nat)           -- training blocks on the lanes of a port (07 Table 7.3)
  | light (p : PortId) (on : Bool)                      -- branches of a transmit fibre open, or closed; a probe is both
  | hingeAck (h : Half) (b : Fin 16) (seq : Nat) (nak : Bool)
  | hingeFlit (h : Half) (b : Fin 16) (bytes : List Byte)   -- a flit sent again from a replay buffer
  | irq (p : Page)                                      -- an internal interrupt: the recipient is firmware
  | doe (f : Fn) (data : List Byte)                     -- a DOE response
  | mgmt (b : Binding) (data : List Byte)               -- a management response
  | spdm (t : SpdmTransport) (data : List Byte)
  | i3c (data : List Byte)                              -- data of an I3C read
  | i3cAck (ok : Bool)
  | ibi (cls : Nat)
  | hotJoin
  | actuate (actuator : Nat) (payload : Nat)            -- an accepted command acts
deriving DecidableEq, Repr

/-! ## The machine -/

structure State where
  regs   : List (Nat × Word)
  latch  : List (Nat × Word)            -- high words latched, key (master, offset) (00 R8)
  pins   : Pins
  dies   : List (Nat × DieSt)
  mem    : Mem
  cells  : List (Nat × CellSt)          -- key 288 h + physical number
  swaps  : List Nat                     -- cells whose swap was triggered, in that order, key as in cells (02 R79)
  queues : List (Nat × QueueSt)         -- key 512 h + local number
  rsvA   : List (Nat × Nat)             -- kernels that hold reservations, oldest first: queue, slot (03 R91)
  rsvB   : List (Nat × Nat)
  sems   : List (Nat × Word)            -- semaphores (03 R93)
  dlinks : List (Nat × DLink)
  parts  : List (Nat × OePart)          -- the part behind a UCIe module, key 32 h + k (05 R162)
  arbs   : List (Nat × Nat)             -- mesh arbiters: the slot granted last (05 R150)
  throttled : List (Nat × Nat)          -- pairs of neighbours over a limit, key 36 h + other die than the comb die: the hotter die (05 R168)
  volts  : List (Nat × Nat)             -- supplies at the last sample in mV, key 36 h + die
  fwWins : List (Nat × FwWin)           -- firewall windows, key 17 (8 h + o) + window
  oes    : List (Nat × OeSt)
  ports  : List (Nat × PortSt)
  reqs   : List (Nat × FReq)            -- outstanding requests by tag
  epochs : List (Nat × Nat)             -- uses of each tag
  partners : List (Nat × PEntry)
  transit : List (Nat × List Nat)       -- candidates of a DFID: (bit 7 valid, port)
  rcache : List RcEnt                   -- result cache, oldest first
  fctx   : List (Nat × FCtx)
  rcopies : List RCopy
  colls  : List CollSt
  swarms : List (Nat × Nat)             -- last completed CSEQ + 1 of a swarm on this device
  readys : List (Nat × Nat × Nat)       -- READY held before dispatch: swarm, CSEQ, FID
  aborted : List (Nat × Nat)            -- COLL_ABORT held before dispatch: swarm, CSEQ
  session : Word                        -- own waggle session
  reduced : Bool                        -- reduced service (12 R370)
  bonds  : List (List Nat)              -- configured bonds, global ports
  portA  : HPort
  portB  : HPort
  hreads : List (Nat × HRead)           -- reads of host memory without an answer, by id
  hid    : Nat                          -- next id
  lostQ  : List Nat                     -- queues whose discarded host write has its record (09 R301)
  fwq    : List (Nat × List (List Byte))   -- messages firmware has not yet sent on a pair (09 R308)
  noteSeq : Nat                         -- SEQ of the next EVT_NOTE
  cc     : CcSt
  evq    : List MgmtEvt
  i3c    : I3cSt
  telem  : List Byte                    -- telemetry record
  dimmIn : List (Nat × List (Nat × List Byte))   -- parts of DIMM descriptions, and those kept for the next start
  dimmNext : List (Nat × List Byte)
  spdOut : List Nat                     -- DDR5 channels that stay EMPTY until the next start, key 8 h + c
  sens   : List (Nat × Int)             -- last sample of sensor i of half h, key 540 h + i, in 1/8 °C
  excl   : List Nat
  watch  : List (Nat × WatchSt)         -- dies, key 36 h + d; remote inputs, key 72 + i
  ticks  : List (Nat × Nat)             -- samples taken, by half
  cdclk  : List (Nat × CdClk)           -- key 4 h + q
  ppr    : List (Nat × Nat × Nat)       -- hard PPR over a stack's life, key 12 h + i: repairs, banks spent (04 Table 4.15)
  capHbm : List (Nat × Nat)             -- steps of 10 % by which the cap limits a half's HBM requests
  capHeld : Bool                        -- a request waits in CAP_REQ for the next start or restart
  lostWhy : List (Nat × Nat)            -- why a half is lost: 1 clock, PLL or rail; 2 fence; 3 fence for a lost hinge
  cdHit  : List Nat                     -- compute dies reset before, key 4 h + q
  cals   : List (Nat × CalRec)          -- key 2^17 page + 512 id + instance; page 0 G, 1 A, 2 B
  cfg    : CfgItems                     -- the configuration in force
  sec    : SecSt
  tap    : TapSt
  spdm   : List (Nat × Nat)             -- SPDM connections: 0 and 1 DOE, 2 I3C, 3 and 4 PCIe; requests completed
  fn0    : FnSt
  fn1    : FnSt
  ringA  : ErrRing
  ringB  : ErrRing
  coal   : List (Nat × Coal)
  nv     : Nv
  out    : List Out
  fresh  : Nat
  pending : List Instr
deriving DecidableEq, Repr

/-! ## Reset -/

/-- A function after its reset: payload and read request sizes and Relaxed Ordering as PCI Express resets them (assumption 9). -/
def fnInit : FnSt :=
  { mse := false, bme := false, msixEn := false, d3 := false, roEn := true, mps := 128, mrrs := 512, msix := [], pba := [], doe := none,
    aer := 0 }

def hportInit : HPort := { lost := false, wasUp := false, sent := [], reads := [], kept := [], held := [] }

def norInit : Nor := { ok := false, images := [], cert := [], journal := [], slots := [] }

/-- The machine before V_AON rises (11 Table 11.8): D-OFF, every register at its reset value, memory with nothing listed. -/
def State.reset : State :=
  { regs := []
    latch := []
    pins := { vAon := false, vin48 := false, por := true, pwrFail := false, perstA := true, perstB := true, refA := false, refB := false,
              priSel := false, sampled := false, edge := false, brdid := 0, fault := false, therm := false, alert := false }
    dies := []
    mem := { bytes := [], undef := [], poison := [], cacheA := [], cacheB := [], uses := 0, dimms := [], train := [], held := [], seenUE := [] }
    cells := []
    swaps := []
    queues := []
    rsvA := []
    rsvB := []
    sems := []
    dlinks := []
    parts := []
    arbs := []
    throttled := []
    volts := []
    fwWins := []
    oes := []
    ports := []
    reqs := []
    epochs := []
    partners := []
    transit := []
    rcache := []
    fctx := []
    rcopies := []
    colls := []
    swarms := []
    readys := []
    aborted := []
    session := 0
    reduced := false
    bonds := []
    portA := hportInit
    portB := hportInit
    hreads := []
    hid := 0
    lostQ := []
    fwq := []
    noteSeq := 0
    cc := { frame := 0, expect := [], copies := [], last := [], promo := [], injd := [] }
    evq := []
    i3c := { events := 0, mrl := 0, mwl := 0, hot := false }
    telem := []
    dimmIn := []
    dimmNext := []
    spdOut := []
    sens := []
    excl := []
    watch := []
    ticks := []
    cdclk := []
    ppr := []
    capHbm := []
    capHeld := false
    lostWhy := []
    cdHit := []
    cals := []
    cfg := {}
    sec := { meas := [], log := [], frozen := false, nonce := none, token := none, mask := none, svn := [], revoke := 0, puf := false,
             cert := false, rom := false, running := [] }
    tap := { ctl := .reset, ir := 1, shift := [], tdo := none }
    spdm := []
    fn0 := fnInit
    fn1 := fnInit
    ringA := { seq := 0, held := [] }
    ringB := { seq := 0, held := [] }
    coal := []
    nv := { prim := norInit, mirr := norInit, queue := [], seqno := 0 }
    out := []
    fresh := 0
    pending := [] }

end Sys2Proof.Machine
end

