-- ==== Sys2Proof/Machine/Ops.lean ====
section
/-! DEFINITION. The named operations over registers, free values, the boundary, host messages and raw memory bytes that the meanings
are built from. -/

namespace Sys2Proof.Machine

/-! ## Registers -/

/-- The stored word of the register at BAR0 offset a. -/
def State.reg (s : State) (a : Nat) : Word := mget (resetValue a) s.regs a

/-- Store a word. -/
def State.setReg (s : State) (a : Nat) (v : Word) : State :=
  { s with regs := mset (resetValue a) s.regs a v }

/-- Offset of a field's register. -/
def fldAddr (p : Page) (f : Fld) : Nat := pageBase p + f.off

/-- The value of a field. -/
def State.getF (s : State) (p : Page) (f : Fld) : Nat := bits (s.reg (fldAddr p f)).toNat f.hi f.lo

/-- A one-bit field, or any field, is not 0. -/
def State.isSet (s : State) (p : Page) (f : Fld) : Bool := s.getF p f ≠ 0

/-- A word with bits [hi:lo] replaced by n (taken modulo the width). -/
def putBits (w : Word) (hi lo n : Nat) : Word :=
  BitVec.ofNat 32 (w.toNat - bits w.toNat hi lo * 2 ^ lo + n % 2 ^ (hi + 1 - lo) * 2 ^ lo)

/-- Set a field. -/
def State.setF (s : State) (p : Page) (f : Fld) (n : Nat) : State :=
  s.setReg (fldAddr p f) (putBits (s.reg (fldAddr p f)) f.hi f.lo n)

/-- Set a list of fields of one page. -/
def State.setFs (s : State) (p : Page) (l : List (Fld × Nat)) : State := l.foldl (fun s e => s.setF p e.1 e.2) s

/-- Add to a field, stopping at its largest value. -/
def State.addSat (s : State) (p : Page) (f : Fld) (n : Nat) : State := s.setF p f (satAdd f.width (s.getF p f) n)

/-- Add to a field, wrapping. -/
def State.addWrap (s : State) (p : Page) (f : Fld) (n : Nat) : State := s.setF p f (s.getF p f + n)

/-- Set bits of a field. -/
def State.orF (s : State) (p : Page) (f : Fld) (m : Nat) : State := s.setF p f (s.getF p f ||| m)

/-- A 64-bit register by its low and high field. -/
def State.get64 (s : State) (p : Page) (lo hi : Fld) : Nat := s.getF p lo + 2 ^ 32 * s.getF p hi

def State.set64 (s : State) (p : Page) (lo hi : Fld) (n : Nat) : State :=
  (s.setF p lo (n % 2 ^ 32)).setF p hi (n / 2 ^ 32)

/-- State of a clock domain: 0 OFF, 1 GATED, 2 RUN, 3 FAULT (11 R350). -/
def State.dom (s : State) (h : Half) (k : Nat) : Nat := s.getF (.clk h) (R.clk.DOM_STATE.ix k)
def State.setDom (s : State) (h : Half) (k st : Nat) : State :=
  s.setFs (.clk h) [(R.clk.DOM_STATE.ix k, st), (R.clk.DOM_LOCK.ix k, if st = 1 || st = 2 then 1 else 0)]

/-- A dispatch, an arriving access or an OE wake wakes its domain. -/
def State.wakeDom (s : State) (h : Half) (k : Nat) : State := if s.dom h k ≤ 1 then s.setDom h k 2 else s

/-- Return the registers of a page at 0x100 and above to their reset values (01 R33). -/
def State.resetBlockRegs (s : State) (p : Page) : State :=
  { s with regs := s.regs.filter (fun e => ¬ (pageBase p + 0x100 ≤ e.1 ∧ e.1 < pageBase p + 0x1000)) }

/-- Return all registers of a page to their reset values. -/
def State.resetPage (s : State) (p : Page) : State :=
  { s with regs := s.regs.filter (fun e => ¬ (pageBase p ≤ e.1 ∧ e.1 < pageBase p + 0x1000)) }

/-! ## Free values and the boundary -/

/-- The n-th free value still undrawn. -/
def State.freeAhead (s : State) (n : Nat) : Nat := Config.free (s.fresh + n)

/-- n free values have been drawn. -/
def State.drawn (s : State) (n : Nat) : State := { s with fresh := s.fresh + n }

/-- Something leaves the device. -/
def State.emit (s : State) (o : Out) : State := { s with out := s.out ++ [o] }

/-! ## Dies, halves, pages -/

def State.die (s : State) (d : Nat) : DieSt := mget .off s.dies d

def State.setDie (s : State) (d : Nat) (x : DieSt) : State := { s with dies := mset .off s.dies d x }

/-- A page answers: its die is up, and so is the comb die of its half (01 R30). -/
def State.answers (s : State) (p : Page) : Bool :=
  s.die (dieOf p) = .up && (match pageHalf p with | none => true | some h => s.die (dieComb h) = .up)

/-- The half is up. -/
def State.halfUp (s : State) (h : Half) : Bool := s.die (dieComb h) = .up

/-- The queen half that PRI_SEL latched, and the leading half (01 R14, R15). -/
def State.queen (s : State) : Half := halfOf (s.getF .keeper R.keeper.STRAPS_PRI_SEL)
def State.leader (s : State) : Half := halfOf (s.getF .keeper R.keeper.STRAPS_LEADER)

/-! ## Host attach: messages to the host -/

def State.hport (s : State) : Half → HPort
  | .A => s.portA
  | .B => s.portB

def State.setHport (s : State) (h : Half) (x : HPort) : State :=
  match h with
  | .A => { s with portA := x }
  | .B => { s with portB := x }

def State.fnst (s : State) : Fn → FnSt
  | .f0 => s.fn0
  | .companion => s.fn1

def State.setFnst (s : State) (f : Fn) (x : FnSt) : State :=
  match f with
  | .f0 => { s with fn0 := x }
  | .companion => { s with fn1 := x }

/-- The half whose port presents a function (09 R284). -/
def State.ownPort (s : State) : Fn → Half
  | .f0 => s.queen
  | .companion => otherHalf s.queen

/-- The function a half's port presents. -/
def State.portFn (s : State) (h : Half) : Fn := if h = s.queen then .f0 else .companion

/-- The port that carries a function's traffic; none once both ports are lost (09 R298, R301). -/
def State.carrier (s : State) (f : Fn) : Option Half :=
  let own := s.ownPort f
  let oth := otherHalf own
  if (s.hport own).lost && (s.hport oth).lost then none
  else if s.isSet (.pcie oth) R.pcie.HOST_ROLE_CARRIES_OTHER then some oth
  else some own

/-- A port can send now: data link up, the function presented enabled and not in D3hot (09 R296, R297). -/
def State.portOpen (s : State) (h : Half) : Bool :=
  s.isSet (.pcie h) R.pcie.LINK_STS_DL_UP && !(s.hport h).lost &&
    !(s.fnst (s.portFn h)).d3 && (s.fnst (s.portFn h)).bme

/-- The function of a request. -/
def reqFn : HostReq → Fn
  | .write f _ _ _ _ => f
  | .read f _ _ _ => f
  | .msi f _ => f

/-- Send a request on a port now: it carries the function the port presents (09 R298); written bytes and messages are
counted. -/
def State.sendOn (s : State) (h : Half) (r : HostReq) : State :=
  let f := s.portFn h
  let hp := s.hport h
  match r with
  | .write _ a b ro q =>
    let r' := HostReq.write f a b ro q
    ((s.setHport h { hp with sent := hp.sent ++ [r'] }).set64 (.pcie h) R.pcie.DMA_WR_LO R.pcie.DMA_WR_HI
      (s.get64 (.pcie h) R.pcie.DMA_WR_LO R.pcie.DMA_WR_HI + b.length)).emit (.host h r')
  | .read _ i a l =>
    let r' := HostReq.read f i a l
    (s.setHport h { hp with reads := hp.reads ++ [r'] }).emit (.host h r')
  | .msi _ v =>
    let r' := HostReq.msi f v
    ((s.setHport h { hp with sent := hp.sent ++ [r'] }).addSat (.pcie h) R.pcie.MSI_CNT_COUNT 1).emit (.host h r')

/-- Issue a request: on the port that carries its function, held there where the port cannot send; dropped once both ports
are lost (09 R292, R296 to R301). -/
def State.hostIssue (s : State) (r : HostReq) : State :=
  match s.carrier (reqFn r) with
  | none => s
  | some h =>
    if s.portOpen h then s.sendOn h r
    else
      let hp := s.hport h
      if hp.held.contains r && (match r with | .msi _ _ => true | _ => false) then s
      else s.setHport h { hp with held := hp.held ++ [r] }

/-- Word w of a vector's MSI-X entry; the vector control word resets to 1, masked (assumption 9). -/
def msixWord (x : FnSt) (v w : Nat) : Word := mget (if w = 3 then 1 else 0) x.msix (4 * v + w)

/-- The vector's message cannot be sent: MSI-X disabled, vector masked, or a zero address (09 R294). -/
def msixBlocked (x : FnSt) (v : Nat) : Bool :=
  !x.msixEn || bit (msixWord x v 3).toNat 0 || (msixWord x v 0 = 0 && msixWord x v 1 = 0)

/-- Raise a vector of a function (09 R294): blocked or in D3hot it pends; else one message leaves on the port that carries
the function. -/
def State.raiseVec (s : State) (f : Fn) (v : Nat) : State :=
  match s.carrier f with
  | none => s
  | some h =>
    let f' := s.portFn h
    let x := s.fnst f'
    if msixBlocked x v || x.d3 then s.setFnst f' { x with pba := sadd x.pba v }
    else s.hostIssue (.msi f v)

/-- The function a VEC_FN bit names. -/
def fnOf (n : Nat) : Fn := if n = 0 then .f0 else .companion

/-! ## Raw memory bytes -/

def hbmBase : Half → Nat
  | .A => 0
  | .B => 0x10000000000

def scratchBase : Half → Nat
  | .A => 0x20000000000
  | .B => 0x20010000000

def tierBase : Half → Nat
  | .A => 0x100000000000
  | .B => 0x140000000000

/-- Bytes of HBM of a half, of one row (04 Table 4.1, R112), of a DDR5 tier window and of a scratch window. -/
def hbmSize : Nat := 864 * 2 ^ 30
def rowSize : Nat := 12 * 2 ^ 30
def tierWin : Nat := 4 * 2 ^ 40
def scratchWin : Nat := 2 ^ 28

/-- The row or tier an address lies in, as a key of `Mem.undef`: 72 h + j for HBM, 144 + h for a tier; 146 elsewhere. -/
def undefKey (a : Nat) : Nat :=
  if a < hbmSize then a / rowSize
  else if hbmBase .B ≤ a && a < hbmBase .B + hbmSize then 72 + (a - hbmBase .B) / rowSize
  else if tierBase .A ≤ a && a < tierBase .A + tierWin then 144
  else if tierBase .B ≤ a && a < tierBase .B + tierWin then 145
  else 146

/-- What an unlisted address reads as: 0 (scratch by 04 R129, else assumption 4), a free byte in a row whose contents are
undefined (04 R115). -/
def memBg (m : Mem) (a : Nat) : Byte :=
  if mhas m.undef (undefKey a) then Config.freeAt (mget 0 m.undef (undefKey a)) a else 0

/-- The byte at an address. -/
def Mem.rd (m : Mem) (a : Nat) : Byte := mget (memBg m a) m.bytes a

/-- Store a byte; the list stays canonical. -/
def Mem.wr (m : Mem) (a : Nat) (v : Byte) : Mem :=
  if mhas m.undef (undefKey a) then { m with bytes := mput m.bytes a v }
  else { m with bytes := mset 0 m.bytes a v }

/-- n bytes from an address. -/
def Mem.rdN (m : Mem) (a : Nat) : Nat → List Byte
  | 0 => []
  | n + 1 => m.rd a :: m.rdN (a + 1) n

/-- Store a string of bytes. -/
def Mem.wrN (m : Mem) (a : Nat) : List Byte → Mem
  | [] => m
  | b :: t => (m.wr a b).wrN (a + 1) t

/-- The canonical form of the byte list. -/
def Mem.wf (m : Mem) : Bool :=
  keysRise m.bytes && m.bytes.all (fun e => mhas m.undef (undefKey e.1) || e.2 ≠ 0)

def State.rd (s : State) (a n : Nat) : List Byte := s.mem.rdN a n

def State.wr (s : State) (a : Nat) (b : List Byte) : State := { s with mem := s.mem.wrN a b }

end Sys2Proof.Machine
end

