-- ==== Sys2Proof/Machine/Place.lean ====
section
/-! DEFINITION. The address map with interleave, windows, poison and the comb caches with their directory (04 R111 to R129, R136; 05 R145). -/

namespace Sys2Proof.Machine

/-! ## Address map (R111 to R114) -/

/-- A place in the address map. -/
inductive Place where
  | hbm (h : Half) (off : Nat) | scratch (h : Half) (off : Nat) | tier (h : Half) (off : Nat) | nowhere
deriving DecidableEq, Repr

/-- The channel numbers of a half's tier that are mapped, ascending. -/
def State.tierChans (s : State) (h : Half) : List Nat := bitList 8 (s.getF (.comb h) R.comb.TIER_CFG_DDR_CH)

def ddrPage (h : Half) (c : Nat) : Page := .ddrc h (Fin.ofNat 8 c)

/-- Mapped bytes of channel c. -/
def State.chanCap (s : State) (h : Half) (c : Nat) : Nat := s.getF (ddrPage h c) R.ddrc.DIMM_CFG_CAP_GIB * 2 ^ 30

/-- Mapped bytes of a half's tier (R132). -/
def State.tierCap (s : State) (h : Half) : Nat := ((s.tierChans h).map (s.chanCap h)).sum

/-- Mapped bytes of a half's scratch (R129). -/
def State.scratchCap (s : State) (h : Half) : Nat := s.getF (.comb h) R.comb.CC_CFG_SCRATCH_SEGS * 2 ^ 23

/-- Table 4.1. An HBM address is served by HBM and a tier address by the tier, for every agent: nothing pages or redirects (R134). -/
def State.place (s : State) (a : Nat) : Place :=
  if a < hbmSize then .hbm .A a
  else if hbmBase .B ≤ a && a < hbmBase .B + hbmSize then .hbm .B (a - hbmBase .B)
  else if scratchBase .A ≤ a && a < scratchBase .A + s.scratchCap .A then .scratch .A (a - scratchBase .A)
  else if scratchBase .B ≤ a && a < scratchBase .B + s.scratchCap .B then .scratch .B (a - scratchBase .B)
  else if tierBase .A ≤ a && a < tierBase .A + s.tierCap .A then .tier .A (a - tierBase .A)
  else if tierBase .B ≤ a && a < tierBase .B + s.tierCap .B then .tier .B (a - tierBase .B)
  else .nowhere

def State.mapped (s : State) (a : Nat) : Bool := s.place a ≠ .nowhere

/-- The home half of a place (R116). -/
def placeHalf : Place → Option Half
  | .hbm h _ | .scratch h _ | .tier h _ => some h
  | .nowhere => none

def State.homeOf (s : State) (a : Nat) : Option Half := placeHalf (s.place a)

/-- The ILV field of row j: rows 0 to 63 in ILV0 to ILV3, 64 to 71 in ILV4 (Table 4.13). -/
def ilvFld (j : Nat) : Fld :=
  if j < 64 then { R.comb.ILV_ROW.ix (j / 16) with hi := 2 * (j % 16) + 1, lo := 2 * (j % 16) }
  else { R.comb.ILV4_ROW with hi := 2 * (j - 64) + 1, lo := 2 * (j - 64) }

/-- Interleave mode of row j: 0 NONE, 1 QUAD, 2 HALF. -/
def State.ilvMode (s : State) (h : Half) (j : Nat) : Nat := s.getF (.comb h) (ilvFld j)

/-- Table 4.2: offset o of row j under a mode gives logical stack and stack-local address. -/
def decodeRow (mode j o : Nat) : Nat × Nat :=
  let gib := 2 ^ 30
  if mode = 0 then (o / gib, j * gib + o % gib)
  else if mode = 1 then
    let g := o % (3 * gib) / 4096
    (3 * (o / (3 * gib)) + g % 3, j * gib + g / 3 * 4096 + o % 4096)
  else
    let g := o / 4096
    (g % 12, j * gib + g / 12 * 4096 + o % 4096)

/-- Stack and stack-local address of an HBM offset. -/
def State.hbmDecode (s : State) (h : Half) (off : Nat) : Nat × Nat :=
  let j := off / rowSize
  decodeRow (s.ilvMode h j) j (off % rowSize)

/-- Channel of a stack-local address: 2 a[12:9] + a[8] (R121). -/
def hbmChannel (a : Nat) : Nat := 2 * bits a 12 9 + bits a 8 8

/-- The stacks of the interleave set that holds stack s under a mode. -/
def ilvSet (mode st : Nat) : List Nat :=
  if mode = 0 then [st]
  else if mode = 1 then [3 * (st / 3), 3 * (st / 3) + 1, 3 * (st / 3) + 2]
  else List.range 12

def hbmPage (h : Half) (i : Nat) : Page := .hbmc h (Fin.ofNat 12 i)

/-- The RET_MASK field and bit of slice j. -/
def retMask (j : Nat) : Fld :=
  if j < 32 then R.hbmc.RET_MASK0_SLICES else if j < 64 then R.hbmc.RET_MASK1_SLICES else R.hbmc.RET_MASK2_SLICES

def State.retired (s : State) (h : Half) (st j : Nat) : Bool := bit (s.getF (hbmPage h st) (retMask j)) (j % 32)

/-- Retired slices of a stack. -/
def State.retiredCount (s : State) (h : Half) (st : Nat) : Nat :=
  ((List.range 72).filter (s.retired h st)).length

/-- Channel of a tier offset (R132): granules across the channels under ILV, one channel after another under LINEAR. -/
def tierWalk (s : State) (h : Half) : List Nat → Nat → Nat
  | [], _ => 0
  | [c], _ => c
  | c :: t, off => if off < s.chanCap h c then c else tierWalk s h t (off - s.chanCap h c)

def State.tierChan (s : State) (h : Half) (off : Nat) : Nat :=
  let cs := s.tierChans h
  if s.isSet (.comb h) R.comb.TIER_CFG_ILV then nth 0 cs (off / 4096 % cs.length) else tierWalk s h cs off

/-- An access to the place is refused because its interleave set, channel or tier is retired (R137, R138), or its DDR5 channel trains again
(12 R378). -/
def State.refused (s : State) : Place → Bool
  | .hbm h off =>
    let j := off / rowSize
    (ilvSet (s.ilvMode h j) (s.hbmDecode h off).1).any (fun st => s.retired h st j)
  | .tier h off =>
    if s.isSet (.comb h) R.comb.TIER_CFG_ILV then
      (s.tierChans h).any (fun c => s.getF (ddrPage h c) R.ddrc.BLK_STS_STATE = 3) ||
        s.getF (ddrPage h (s.tierChan h off)) R.ddrc.BLK_STS_STATE = 1
    else
      s.getF (ddrPage h (s.tierChan h off)) R.ddrc.BLK_STS_STATE = 3 || s.getF (ddrPage h (s.tierChan h off)) R.ddrc.BLK_STS_STATE = 1
  | _ => false

/-- Place of a tier offset within its channel's DIMM (R132). -/
def tierRest (s : State) (h : Half) : List Nat → Nat → Nat
  | [], off => off
  | c :: t, off => if t.isEmpty || off < s.chanCap h c then off else tierRest s h t (off - s.chanCap h c)

def State.tierLocal (s : State) (h : Half) (off : Nat) : Nat :=
  let cs := s.tierChans h
  if s.isSet (.comb h) R.comb.TIER_CFG_ILV then off / 4096 / cs.length * 4096 + off % 4096 else tierRest s h cs off

/-- The page of the controller that serves a place. -/
def State.placePage (s : State) (a : Nat) : Page :=
  match s.place a with
  | .hbm h off => hbmPage h (s.hbmDecode h off).1
  | .tier h off => ddrPage h (s.tierChan h off)
  | .scratch h _ => .comb h
  | .nowhere => .comb .A

/-- INFO of a memory event (14 Table 14.6): address of the line, stack or channel, slice. -/
def State.memInfo (s : State) (a : Nat) : List Byte :=
  match s.place a with
  | .hbm h off => bytesOf 8 (a / 128 * 128) ++ bytesOf 1 (s.hbmDecode h off).1 ++ bytesOf 1 (off / rowSize)
  | .tier h off => bytesOf 8 (a / 128 * 128) ++ bytesOf 1 (s.tierChan h off)
  | _ => bytesOf 8 (a / 128 * 128)

/-! ## Windows (R119) -/

/-- Window w of partition p holds the 2 MiB unit u, as the pages of half h show it. -/
def State.winHas (s : State) (h : Half) (p w u : Nat) : Bool :=
  s.isSet (.comb h) (R.comb.WIN_BASE_VALID.ix2 p w) &&
    decide (s.getF (.comb h) (R.comb.WIN_BASE_BASE.ix2 p w) ≤ u) &&
    decide (u ≤ s.getF (.comb h) (R.comb.WIN_LIMIT_LIMIT.ix2 p w))

/-- The n bytes from a lie wholly within one valid window of partition p. -/
def State.inWindow (s : State) (h : Half) (p a n : Nat) : Bool :=
  (List.range 4).any (fun w => s.winHas h p w (a / 2 ^ 21) && s.winHas h p w ((a + n - 1) / 2 ^ 21))

/-- Every line of the n bytes from a lies in some window of p: windows are whole 2 MiB units, so it is enough that each
unit does. -/
def State.inWindows (s : State) (h : Half) (p a n : Nat) : Bool :=
  if n = 0 then true
  else
    let u0 := a / 2 ^ 21
    let u1 := (a + n - 1) / 2 ^ 21
    decide (u1 < 2 ^ 31) && (List.range (u1 + 1 - u0)).all (fun k => (List.range 4).any (fun w => s.winHas h p w (u0 + k)))

/-- The first address of the n bytes from a that lies in no window of p. -/
def State.firstOut (s : State) (h : Half) (p a n : Nat) : Option Nat :=
  if n = 0 then none
  else
    let u0 := a / 2 ^ 21
    let u1 := min ((a + n - 1) / 2 ^ 21) (max u0 (2 ^ 31))
    ((List.range (u1 + 1 - u0)).find? (fun k => !(List.range 4).any (fun w => s.winHas h p w (u0 + k)))).map
      (fun k => max a (2 ^ 21 * (u0 + k)))

/-! ## Poison and retirement -/

/-- The 64-byte sectors that n bytes from a touch. -/
def sectors (a n : Nat) : List Nat :=
  if n = 0 then [] else (List.range ((a + n - 1) / 64 + 1 - a / 64)).map (· + a / 64)

def State.poisoned (s : State) (a n : Nat) : Bool := (sectors a n).any (s.mem.poison.contains ·)

/-- Poison a sector. -/
def State.poisonSec (s : State) (k : Nat) : State := { s with mem := { s.mem with poison := sadd s.mem.poison k } }

/-- Poison both sectors of a line (address / 128) at its home and count it (R136, R139). -/
def State.poisonLine (s : State) (l : Nat) : State :=
  let s := (s.poisonSec (2 * l)).poisonSec (2 * l + 1)
  match s.homeOf (128 * l) with
  | some h => s.addSat (.comb h) R.comb.POISON_CNT_COUNT 1
  | none => s

/-- A write of n bytes at a clears the poison of the sectors it covers whole (R136). -/
def State.unpoison (s : State) (a n : Nat) : State :=
  let whole := (sectors a n).filter (fun k => decide (a ≤ 64 * k) && decide (64 * k + 64 ≤ a + n))
  { s with mem := { s.mem with poison := s.mem.poison.filter (fun k => !whole.contains k) } }

/-- Address range (GiB within the row) of the interleave set of stack st under a mode (Table 4.2). -/
def setSpan (mode st : Nat) : Nat × Nat :=
  if mode = 0 then (st, st + 1) else if mode = 1 then (3 * (st / 3), 3 * (st / 3) + 3) else (0, 12)

/-- Partitions with a valid window that meets [a, b). -/
def State.partsIn (s : State) (h : Half) (a b : Nat) : Nat :=
  bitsOf <| (List.range 8).filter fun p => (List.range 4).any fun w =>
    s.isSet (.comb h) (R.comb.WIN_BASE_VALID.ix2 p w) &&
      decide (s.getF (.comb h) (R.comb.WIN_BASE_BASE.ix2 p w) * 2 ^ 21 < b) &&
      decide (a < (s.getF (.comb h) (R.comb.WIN_LIMIT_LIMIT.ix2 p w) + 1) * 2 ^ 21)

/-- Range of addresses refused when slice j of stack st is retired. -/
def State.sliceSpan (s : State) (h : Half) (st j : Nat) : Nat × Nat :=
  let sp := setSpan (s.ilvMode h j) st
  let b := hbmBase h + j * rowSize
  (b + sp.1 * 2 ^ 30, b + sp.2 * 2 ^ 30)

def State.cache (s : State) : Half → List (Nat × CLine)
  | .A => s.mem.cacheA
  | .B => s.mem.cacheB

def State.setCache (s : State) (h : Half) (c : List (Nat × CLine)) : State :=
  match h with
  | .A => { s with mem := { s.mem with cacheA := c } }
  | .B => { s with mem := { s.mem with cacheB := c } }

/-- Drop the lines of [a, b) from both caches, dirty or not. -/
def State.dropLines (s : State) (a b : Nat) : State :=
  let keep := fun (e : Nat × CLine) => !(decide (a ≤ 128 * e.1) && decide (128 * e.1 < b))
  (s.setCache .A (s.mem.cacheA.filter keep)).setCache .B (s.mem.cacheB.filter keep)

/-- DIR_STS.REMOTE_LINES of both halves: lines homed here that the other cache holds. -/
def State.dirSts (s : State) : State :=
  let count := fun (h : Half) =>
    ((s.cache (otherHalf h)).filter (fun e => s.homeOf (128 * e.1) = some h)).length
  (s.setF (.comb .A) R.comb.DIR_STS_REMOTE_LINES (count .A)).setF (.comb .B) R.comb.DIR_STS_REMOTE_LINES (count .B)

/-- Mark slice j of a stack retired and drop the lines of its set (R138). -/
def State.markRetired (s : State) (h : Half) (st j : Nat) : State :=
  let sp := s.sliceSpan h st j
  ((s.orF (hbmPage h st) (retMask j) (2 ^ (j % 32))).dropLines sp.1 sp.2).dirSts

/-! ## Comb caches (R126, R127) -/

/-- Cache segments of a half: the ways of a set. -/
def State.ways (s : State) (h : Half) : Nat := s.getF (.comb h) R.comb.CC_CFG_CACHE_SEGS

/-- The hinge carries traffic itself (10 Table 10.10, CC_STS.HINGE 00). -/
def State.hingeOk (s : State) : Bool := s.getF .ck R.ctrlch.CC_STS_HINGE = 0

def cached (c : List (Nat × CLine)) (l : Nat) : Bool := mhas c l

/-- Quadrant and bank of half h's comb cache that hold a line: beside the stack that serves a line of the half's HBM, else by the device address
(05 R145). -/
def State.bankOf (s : State) (h : Half) (l : Nat) : Nat × Nat :=
  let a := 128 * l
  match s.place a with
  | .hbm home off =>
    if home = h then let d := s.hbmDecode h off; (d.1 / 3, bits d.2 12 9) else (bits a 14 13, bits a 12 9)
  | _ => (bits a 14 13, bits a 12 9)

/-- Two lines share a set: one bank, and one of its 1,024 sets. -/
def State.sameSet (s : State) (h : Half) (l k : Nat) : Bool :=
  let set := fun (n : Nat) => Config.cacheSet (BitVec.ofNat 52 n) % 1024
  s.bankOf h l = s.bankOf h k && set l = set k

/-- Lines of the set of line l that half h holds. -/
def State.setLines (s : State) (h : Half) (l : Nat) : List (Nat × CLine) := (s.cache h).filter (fun e => s.sameSet h l e.1)

/-- No line. -/
def clNone : CLine := { keep := false, dirty := false, use := 0 }

/-- A use of a line: the newest of all. -/
def State.useLine (s : State) (h : Half) (l : Nat) (keep dirty : Bool) : State :=
  let s := { s with mem := { s.mem with uses := s.mem.uses + 1 } }
  s.setCache h (mput (s.cache h) l { keep := keep, dirty := dirty, use := s.mem.uses })

/-- Insert line l into a half's cache: a full set first gives up a victim, a keep line only when every way holds one; a keep
mark is dropped when half the ways, rounded down, hold keep lines (R126). -/
def State.fillLine (s : State) (h : Half) (l : Nat) (keep dirty : Bool) : State :=
  let ss := s.setLines h l
  let w := s.ways h
  if w = 0 then s
  else
    let keeps := ss.filter (fun e => e.2.keep)
    let s := if ss.length < w then s
      else
        let cand := if keeps.length = ss.length then ss else ss.filter (fun e => !e.2.keep)
        let n := Config.victim (cand.map (fun e => (e.1, e.2.use)))
        s.setCache h (merase (s.cache h) (nth 0 (cand.map (·.1)) (n % cand.length)))
    s.useLine h l (keep && decide (keeps.length < w / 2)) dirty

/-- A line leaves a half's cache. -/
def State.evict (s : State) (h : Half) (l : Nat) : State := s.setCache h (merase (s.cache h) l)

/-- Count a hit or a miss of a half's cache. -/
def State.countHit (s : State) (h : Half) (hit : Bool) : State :=
  if hit then s.set64 (.comb h) R.comb.HIT_LO R.comb.HIT_HI (s.get64 (.comb h) R.comb.HIT_LO R.comb.HIT_HI + 1)
  else s.set64 (.comb h) R.comb.MISS_LO R.comb.MISS_HI (s.get64 (.comb h) R.comb.MISS_LO R.comb.MISS_HI + 1)

/-- Which cache serves an access to a line homed on `home`: the requester's for a cell across the hinge that has cache
segments, else the home's (R127). -/
def State.servingHalf (s : State) (req home : Half) (src : ReqSrc) : Half :=
  if req ≠ home && src = .cell && decide (s.ways req > 0) && s.hingeOk then req else home

/-- The coherence actions of an access and the serving cache's entry (R126 to R128): the answer is the state and whether the
serving cache hit, and on a dirty line. Scratch is never cached. -/
def State.cacheTouch (s : State) (req home : Half) (src : ReqSrc) (write : Bool) (hint l : Nat) :
    State × Bool × Bool :=
  let sv := s.servingHalf req home src
  let oth := otherHalf sv
  let mine := mget clNone (s.cache sv) l
  let hit := cached (s.cache sv) l
  -- the other cache: a write invalidates its line, a read recalls a copy in M; the home's own line is no copy
  let theirs := mget clNone (s.cache oth) l
  let s := if cached (s.cache oth) l && (write || (theirs.dirty && oth ≠ home)) then s.evict oth l else s
  let s := s.countHit sv hit
  let s :=
    if hit then
      s.useLine sv l (mine.keep || (hint = 2 : Bool)) (mine.dirty || write)
    else if hint = 1 then s
    else s.fillLine sv l (hint = 2) write
  (s.dirSts, hit, mine.dirty)

/-! ## Held accesses (R122, R123, R139) -/

/-- The controller holds an access to this address: its stack is OFF, or the access's channel group trains. An access that is refused, or whose
home half is lost, is not held. -/
def State.isHeld (s : State) (a : Nat) : Bool :=
  match s.place a with
  | .hbm h off =>
    let d := s.hbmDecode h off
    let st := s.getF (hbmPage h d.1) R.hbmc.BLK_STS_STATE
    s.halfUp h && !s.refused (.hbm h off) &&
      (st = 0 || (st = 2 && (match s.mem.train.find? (fun e => e.1 = 12 * halfNo h + d.1) with
        | some e => e.2.group = hbmChannel d.2 / 8
        | none => false)))
  | _ => false

/-- The lines n bytes from a are split into (R113): address and length of each. -/
def splitLines : Nat → Nat → Nat → List (Nat × Nat)
  | 0, _, _ => []
  | k + 1, a, n =>
    if n = 0 then []
    else
      let m := min n (128 - a % 128)
      (a, m) :: splitLines k (a + m) (n - m)

def linesOf (a n : Nat) : List (Nat × Nat) := splitLines (n / 128 + 2) a n

/-- Some stack of a half is OFF or trains. -/
def State.stackBusy (s : State) (h : Half) : Bool :=
  (List.range 12).any (fun i =>
    let st := s.getF (hbmPage h i) R.hbmc.BLK_STS_STATE
    st = 0 || st = 2)

/-- Some line of the spans is held. -/
def State.holds (s : State) (l : List (Nat × Nat)) : Bool :=
  (s.stackBusy .A || s.stackBusy .B) && l.any (fun e => (linesOf e.1 e.2).any (fun e => s.isHeld e.1))

/-- What a held access touches: address and bytes. -/
def heldSpan : Held → Nat × Nat
  | .line r => (r.addr.toNat, r.len)
  | .fab _ m | .own _ _ m => (m.addr.toNat, m.len.toNat)
  | .bar2 _ a n _ => (a, n)

def heldAddr (x : Held) : Nat := (heldSpan x).1

/-- The half that asks, where it is the device. -/
def heldReq : Held → Option Half
  | .line r => some r.half
  | .fab _ _ => none
  | .own h _ _ => some h
  | .bar2 _ _ _ _ => none

end Sys2Proof.Machine
end

