-- ==== Sys2Proof/Machine/Events.lean ====
section
/-! DEFINITION. Error events with their records, management events, and what a register reads (01 R34; 14 R423 to R428; 10 R332). -/

namespace Sys2Proof.Machine

/-! ## Error events (01 R34, 14 R423 to R428) -/

/-- What an event says of itself. -/
structure Ev where
  cost   : Nat := 0
  status : Nat := 0
  parts  : Nat := 0
  detail : Nat := 0
  count  : Nat := 1
  info   : List Byte := []
  inj    : Bool := false
  coal   : Bool := false
deriving DecidableEq, Repr

/-- The half whose ring takes the records of a page: its own, the leading half for a global page or a lost half
(14 R425). -/
def State.ringHalf (s : State) (p : Page) : Half :=
  match pageHalf p with
  | none => s.leader
  | some h => if s.die (dieComb h) = .lost || s.die (dieComb h) = .fenced then s.leader else h

def State.ring (s : State) : Half → ErrRing
  | .A => s.ringA
  | .B => s.ringB

def State.setRing (s : State) (h : Half) (x : ErrRing) : State :=
  match h with
  | .A => { s with ringA := x }
  | .B => { s with ringB := x }

/-- Records written and not yet consumed, modulo 2^32. -/
def State.ringUsed (s : State) (h : Half) : Nat :=
  (s.getF (.comb h) R.comb.ERR_PROD_PROD + 2 ^ 32 - s.getF (.comb h) R.comb.ERR_CONS_CONS) % 2 ^ 32

def State.ringSize (s : State) (h : Half) : Nat := 2 ^ s.getF (.comb h) R.comb.ERR_RING_CTL_LOG2

/-- The ring accepts a record: enabled and not full. -/
def State.ringOpen (s : State) (h : Half) : Bool :=
  s.isSet (.comb h) R.comb.ERR_RING_CTL_ENABLE && s.ringUsed h ≠ s.ringSize h

/-- The 64 bytes of a record (14 Table 14.5). TIME and KTIME are free values (assumption 1). -/
def recBytes (r : ErrRec) : List Byte :=
  bytesOf 8 r.seq ++ bytesOf 8 (Config.free r.stamp) ++ bytesOf 4 (Config.free (r.stamp + 1)) ++
    bytesOf 4 r.page ++ bytesOf 4 r.blkid ++ bytesOf 1 r.bit ++ bytesOf 1 r.flags ++ bytesOf 1 r.cost ++
    bytesOf 1 r.status ++ bytesOf 4 r.count ++ bytesOf 1 r.parts ++ bytesOf 1 r.detail ++ bytesOf 2 0 ++ padTo 24 r.info

/-- Show the ring's fill in ERR_RING_STS (14 Table 14.10). -/
def State.ringSts (s : State) (h : Half) : State :=
  (s.setF (.comb h) R.comb.ERR_RING_STS_HELD (s.ring h).held.length).setF (.comb h) R.comb.ERR_RING_STS_FULL
    (if s.ringUsed h = s.ringSize h then 1 else 0)

/-- Raise ERR_VEC of a half where it is enabled (14 R428). -/
def State.raiseErrVec (s : State) (h : Half) : State :=
  if s.isSet (.comb h) R.comb.ERR_VEC_EN then
    s.raiseVec (fnOf (s.getF (.comb h) R.comb.ERR_VEC_FN)) (s.getF (.comb h) R.comb.ERR_VEC_VEC)
  else s

/-- Number a record, and hold it in the buffer of 255, or drop it into LOST. -/
def State.holdRec (s : State) (h : Half) (r : ErrRec) : State :=
  let rg := s.ring h
  if rg.held.length < 255 then (s.setRing h { seq := rg.seq + 1, held := rg.held ++ [{ r with seq := rg.seq }] }).ringSts h
  else s.addSat (.comb h) R.comb.ERR_RING_STS_LOST 1

/-- ALL_CNT and FATAL_CNT count a record. -/
def State.countRec (s : State) (h : Half) (fatal : Bool) : State :=
  let s := s.addSat (.comb h) R.comb.ALL_CNT_COUNT 1
  if fatal then s.addSat (.comb h) R.comb.FATAL_CNT_COUNT 1 else s

/-- Fence a block (01 R34): FENCED set, READY 0 (R433). -/
def State.fence (s : State) (p : Page) : State :=
  (s.setF p R.hdr.BLK_STS_FENCED 1).setF p R.hdr.BLK_STS_READY 0

/-- The severity that applies to an ERR_STS bit is fatal. -/
def State.fatalBit (s : State) (p : Page) (n : Nat) : Bool :=
  bit (s.getF p R.hdr.ERR_SEV ||| fixedFatal p) n

/-- The write of a record at address a is discarded, with an event of a page: a bit of ERR_STS, or 0xFF for a firmware record. That event's own
record waits in the buffer (DESIGN CHOICE, assumption 82): the ring would discard it too. -/
def State.ringDrop (s : State) (h : Half) (p : Page) (n a : Nat) : State :=
  let sts := decide (n < 32)
  let s := if sts then s.orF p R.hdr.ERR_STS (2 ^ n) else s
  let fatal := sts && s.fatalBit p n
  let s := if fatal then s.fence p else s
  if sts && bit (s.getF p R.hdr.ERR_MASK) n then s
  else
    let r : ErrRec :=
      { seq := 0, page := pageBase p, blkid := blkId p, bit := n, flags := if fatal then 1 else 0, cost := 0, status := 0, count := 1, parts := 0,
        detail := 0, info := s.memInfo a, stamp := s.fresh, irq := s.isSet p R.hdr.BLK_CTL_ERR_IRQ_EN }
    ((s.drawn 2).countRec h fatal).holdRec h r

/-- The device writes bytes of an error record within a line: at the line's home, over every copy; at an unmapped address, on a lost half or in a
refused set they are discarded (04 R111, R138, R139). -/
def State.ringStore (s : State) (h : Half) (a : Nat) (b : List Byte) : State :=
  match s.homeOf a with
  | none => s.ringDrop h (.comb h) 14 a
  | some home =>
    if !s.halfUp home then s.ringDrop h (.comb home) 0xFF a
    else if s.refused (s.place a) then
      (match s.place a with
       | .hbm k off => s.ringDrop h (hbmPage k (s.hbmDecode k off).1) 12 a
       | _ => s.ringDrop h (s.placePage a) 0xFF a)
    else
      let s := if cached (s.cache (otherHalf home)) (a / 128) then (s.evict (otherHalf home) (a / 128)).dirSts else s
      (s.unpoison a b.length).wr a b

/-- Write a record to the ring, then advance ERR_PROD, then raise the vector where it is due. -/
def State.ringWrite (s : State) (h : Half) (r : ErrRec) : State :=
  let prod := s.getF (.comb h) R.comb.ERR_PROD_PROD
  let base := s.getF (.comb h) R.comb.ERR_RING_LO_ADDR * 2 ^ 12 + s.getF (.comb h) R.comb.ERR_RING_HI_ADDR * 2 ^ 32
  let was := s.ringUsed h * 4 > s.ringSize h * 3
  let s := s.ringStore h (base + prod % s.ringSize h * 64) (recBytes r)
  let s := (s.addWrap (.comb h) R.comb.ERR_PROD_PROD 1).ringSts h
  if r.irq || bit r.flags 0 || (!was && s.ringUsed h * 4 > s.ringSize h * 3) then s.raiseErrVec h else s

/-- A record of a half: numbered, counted, written to the ring or held in the buffer of 255, dropped into LOST where
that is full. -/
def State.pushRec (s : State) (h : Half) (r : ErrRec) : State :=
  let s := s.countRec h (bit r.flags 0)
  let rg := s.ring h
  if s.ringOpen h && rg.held.isEmpty then (s.setRing h { rg with seq := rg.seq + 1 }).ringWrite h { r with seq := rg.seq }
  else s.holdRec h r

/-- Queue a record to the NV journal (11 R360); without its keeper nothing is queued. -/
def State.journal (s : State) (type : Nat) (body : List Byte) : State :=
  if s.die 0 = .up then
    let s := { s with nv := { s.nv with queue := s.nv.queue ++ [(type, body)] } }
    s.setF .gPwr R.pwrG.NV_STS_QUEUED (min s.nv.queue.length 255)
  else s

/-- Write an error record: fatal, or of class JOB or SERVICE, it is also journaled (14 R427). `kind` is 0 for ERR_STS, 1 for
LINK_EVT, 2 for FAB_EVT, 3 for a record that names no bit. Non-fatal events of a bit beyond 64 of a window are folded (14 R426). -/
def State.record (s : State) (p : Page) (bitNo kind : Nat) (fatal irq : Bool) (e : Ev) : State :=
  let h := s.ringHalf p
  let jr := fatal || decide (e.cost ≥ 5)
  let r : ErrRec :=
    { seq := 0, page := pageBase p, blkid := blkId p, bit := bitNo,
      flags := (if fatal then 1 else 0) + (if e.inj then 2 else 0) + (if e.coal then 4 else 0) + (if jr then 8 else 0) +
        (if kind = 1 then 16 else 0) + (if kind = 2 then 32 else 0),
      cost := e.cost, status := e.status, count := e.count, parts := e.parts, detail := e.detail, info := e.info,
      stamp := s.fresh, irq := irq }
  let s := s.drawn 2
  let key := pageBase p + kind * 32 + bitNo
  let c := mget ⟨0, 0⟩ s.coal key
  if !fatal && !e.coal && kind ≠ 3 && decide (c.written ≥ 64) then
    ({ s with coal := mset ⟨0, 0⟩ s.coal key { c with folded := c.folded + 1 } }).addSat (.comb h) R.comb.COALESCED_COUNT 1
  else
    let s := if fatal || e.coal || kind = 3 then s
      else { s with coal := mset ⟨0, 0⟩ s.coal key { c with written := c.written + 1 } }
    let r := { r with seq := (s.ring h).seq }
    let s := s.pushRec h r
    if jr then s.journal 6 (recBytes r) else s

/-- A record that firmware writes about a page, not tied to an ERR_STS bit (14 R423). -/
def State.fwRecord (s : State) (p : Page) (fatal : Bool) (e : Ev := {}) : State := s.record p 0xFF 3 fatal false e

/-- An ERR_STS event (01 R34): the bit is set; a fatal event fences the block, masked or not; an unmasked event is
recorded and raises the block's interrupt where it is enabled. -/
def State.err (s : State) (p : Page) (n : Nat) (e : Ev := {}) : State :=
  let s := s.orF p R.hdr.ERR_STS (2 ^ n)
  let s := if e.inj then s.setF p R.hdr.ERR_STS_INJECTED 1 else s
  let fatal := s.fatalBit p n
  let s := if fatal then s.fence p else s
  if bit (s.getF p R.hdr.ERR_MASK) n then s
  else s.record p n 0 fatal (s.isSet p R.hdr.BLK_CTL_ERR_IRQ_EN) e

/-- A command legal in itself in a state that does not accept it: no effect, STATE_ERR (03 R101). -/
def State.stateErr (s : State) (p : Page) : State := s.err p 0 { status := 1 }

/-! ## The control complex as its pages show it, and management events (10) -/

/-- Store a field of the complex, which reads the same on the three CTRLCH pages (10 R335). -/
def State.setCc (s : State) (f : Fld) (n : Nat) : State :=
  ((s.setF .ck f n).setF (.ctrlch .A) f n).setF (.ctrlch .B) f n

/-- The I3C interface may raise IBIs: enabled, with an address. -/
def State.ibiOn (s : State) : Bool := bit s.i3c.events 0 && s.isSet .ck R.ctrlch.MGMT_ADDR_DA_VALID

/-- Queue a management event (10 R332); the detail, and the half of an event that has none, are free values. A full queue gives up its oldest
event, and keeps one of class 8 at its head. -/
def State.mgmtEvt (s : State) (cls : Nat) (h : Option Half) : State :=
  if s.die 0 ≠ .up then s
  else
    let half := match h with
      | some h => halfNo h
      | none => s.freeAhead 0 % 256
    let e : MgmtEvt := { cls := cls, half := half, detail := s.freeAhead 1 % 65536, stamp := s.fresh + 2 }
    let q := if s.evq.length < 64 then s.evq ++ [e]
      else
        (match s.evq with
         | x :: t => (if x.cls = 8 then x else { e with cls := 8 }) :: t.drop 1
         | [] => []) ++ [e]
    let first := s.evq.isEmpty
    let s := ({ s.drawn 3 with evq := q, pins := { s.pins with alert := true } }).setCc R.ctrlch.EVT_PEND_COUNT q.length
    if first && s.ibiOn then s.emit (.ibi cls) else s

/-! ## What a register reads -/

/-- The word a read of an answering register gives: constants, stored bits and the header's derived bits; W1S, WO and
RSVD bits read 0; while RESET_BUSY is 1, offsets from 0x100 read reset values (00 R9, R10; 01 R33, R34). -/
def State.readReg (s : State) (p : Page) (o : Nat) : Word :=
  let a := pageBase p + o
  let shown := accMask p [.ro, .rov, .rw, .rw1c] o
  if o = 0 then BitVec.ofNat 32 (blkId p)
  else if o = 0x18 then BitVec.ofNat 32 ((s.reg a).toNat ||| fixedFatal p)
  else if o = 0xC then
    let live := (s.getF p R.hdr.ERR_STS &&& (s.getF p R.hdr.ERR_MASK ^^^ 0xFFFFFFFF)) ≠ 0 ||
      s.isSet p R.hdr.ERR_STS_INJECTED
    BitVec.ofNat 32 (((s.reg a).toNat &&& shown) ||| (if live then 8 else 0))
  else if 0x100 ≤ o && s.isSet p R.hdr.BLK_STS_RESET_BUSY then
    BitVec.ofNat 32 ((resetValue a).toNat &&& shown)
  else BitVec.ofNat 32 ((s.reg a).toNat &&& shown)

end Sys2Proof.Machine
end

