-- ==== Sys2Proof/Machine/Images.lean ====
section
/-! DEFINITION. Images and measurements (13 R394 to R401): the checks of an image, loading it from the two devices, the measurement registers
and their log. -/

namespace Sys2Proof.Machine

/-! ## Image checks (R395, R396) -/

/-- TYPE of a region's image, its size, and the counter of its group (Tables 13.1 to 13.3). -/
def regionType : Region → Nat
  | .keeper => 1
  | .control => 2
  | .sequencer => 3
  | .base => 4
  | .overlay _ => 5
def regionSize : Region → Nat
  | .base => 0x100000
  | .overlay _ => 0x10000
  | .keeper | .control | .sequencer => 0x400000
def regionGroup : Region → Nat
  | .keeper => 0
  | .control | .sequencer => 1
  | .base => 2
  | .overlay _ => 3

def allRegions : List Region := [.keeper, .control, .sequencer, .base] ++ (allFin 16).map .overlay

/-- Bytes 0 to 31 of an image. -/
def headBytes (x : Image) : List Byte :=
  bytesOf 4 x.magic.toNat ++ bytesOf 1 x.type.toNat ++ bytesOf 1 x.key.toNat ++ bytesOf 1 x.svn.toNat ++ bytesOf 1 x.flags.toNat ++
    bytesOf 4 x.version.toNat ++ bytesOf 4 x.len.toNat ++ bytesOf 8 x.bind.toNat ++ bytesOf 8 0

/-- The value of an anti-rollback counter (R393). -/
def State.svn (s : State) (i : Nat) : Nat := mget 0 s.sec.svn i

/-- Debug-only images may load: debug is unlocked with bit 2 of its mask (R396, R406). -/
def State.debugImages (s : State) : Bool :=
  match s.sec.mask with
  | some m => bit m 2
  | none => false

/-- The checks of Table 13.4, in its order: 0 accepted, else the cause. -/
def State.imageCause (s : State) (r : Region) (x : Image) : Nat :=
  let k := x.key.toNat
  if !(x.magic.toNat = 0x4B5A494D && x.type.toNat = regionType r && x.rsvdOk && decide (k < 4) && decide (x.svn.toNat ≤ 64) &&
      x.flags.toNat / 2 % 8 = 0 && decide (x.len.toNat ≤ regionSize r - 512) && decide (x.len.toNat ≤ x.body.length)) then 1
  else if !(Config.shake256 x.pubkey = Config.rootHash k && !bit s.sec.revoke k) then 2
  else if x.digest ≠ Config.shake256 (headBytes x ++ x.body.take x.len.toNat) then 3
  else if !Config.verify x.pubkey x.digest x.sig then 4
  else if x.svn.toNat < s.svn (regionGroup r) then 5
  else if !((x.bind = 0 || x.bind = Config.uid) && (!bit x.flags.toNat 0 || s.debugImages)) then 6
  else 0

/-! ## The devices (R394, R398) -/

/-- The image of a region on a device; a failed device holds none. -/
def norImage (n : Nor) (r : Region) : Option Image :=
  if n.ok then (n.images.find? (fun e => e.1 = r)).map (·.2) else none

/-- Write a region of a device. -/
def putImage (n : Nor) (r : Region) (x : Image) : Nor :=
  if n.ok then { n with images := n.images.filter (fun e => e.1 ≠ r) ++ [(r, x)] } else n

/-- Cause of a device's copy of a region; an empty region fails FORMAT. -/
def State.copyCause (s : State) (n : Nor) (r : Region) : Nat :=
  match norImage n r with
  | some x => s.imageCause r x
  | none => 1

/-- IMG_STS of a region's image type. -/
def imgFld : Region → Fld
  | .keeper => R.sec.IMG_STS_KEEPER
  | .control => R.sec.IMG_STS_CTRL
  | .sequencer => R.sec.IMG_STS_SEQ
  | .base => R.sec.IMG_STS_BASE
  | .overlay _ => R.sec.IMG_STS_OVL

/-- The cause of a check shows in IMG_STS; a rejection is an error of SEC. -/
def State.showCause (s : State) (r : Region) (c : Nat) : State :=
  let s := s.setF .sec (imgFld r) c
  let s := if c = 0 then s else s.err .sec 8
  if c = 5 then s.err .sec 9 else s

/-- The bytes of an image as a region holds them, its body up to the last byte written. -/
def imageBytes (x : Image) : List Byte :=
  let rsvd : Nat := if x.rsvdOk then 0 else 1
  (headBytes x).take 24 ++ bytesOf 8 rsvd ++ padTo 64 x.digest ++ padTo 57 x.pubkey ++ bytesOf 7 0 ++ padTo 114 x.sig ++ bytesOf 238 0 ++ x.body

/-- What an image's bytes say (Table 13.3). -/
def parseImage (b : List Byte) : Image :=
  let at_ := fun (i n : Nat) => (b.drop i).take n
  let zero := fun (i n : Nat) => (at_ i n).all (· = 0)
  let body := b.drop 512
  let len := natOf (at_ 12 4)
  { magic := BitVec.ofNat 32 (natOf (at_ 0 4))
    type := BitVec.ofNat 8 (natOf (at_ 4 1))
    key := BitVec.ofNat 8 (natOf (at_ 5 1))
    svn := BitVec.ofNat 8 (natOf (at_ 6 1))
    flags := BitVec.ofNat 8 (natOf (at_ 7 1))
    version := BitVec.ofNat 32 (natOf (at_ 8 4))
    len := BitVec.ofNat 32 len
    bind := BitVec.ofNat 64 (natOf (at_ 16 8))
    rsvdOk := zero 24 8 && zero 153 7 && zero 274 238
    digest := at_ 32 64
    pubkey := at_ 96 57
    sig := at_ 160 114
    body := body
    baseVersion := BitVec.ofNat 32 (Config.cfgBaseVersion (body.take len))
    items := (Config.cfgParse (body.take len)).getD {} }

/-- Take an image from the primary device, else from the mirror (12 R365). -/
def State.loadImage (s : State) (r : Region) : State × Option Image :=
  let c := s.copyCause s.nv.prim r
  let s := s.showCause r c
  if c = 0 then (s, norImage s.nv.prim r)
  else
    let d := s.copyCause s.nv.mirr r
    let s := s.showCause r d
    if d = 0 then (s.setF .keeper R.keeper.BOOT_STS_FW_MIRROR 1, norImage s.nv.mirr r) else (s, none)

/-- The image of a region that is in force. -/
def State.inForce (s : State) (r : Region) : Option Image := (s.sec.running.find? (fun e => e.1 = r)).map (·.2)
def State.setInForce (s : State) (r : Region) (x : Image) : State :=
  { s with sec := { s.sec with running := s.sec.running.filter (fun e => e.1 ≠ r) ++ [(r, x)] } }

/-- Where exactly one copy of an image is valid, it is copied over the other (R398). -/
def State.mendImages (s : State) : State :=
  foldOver allRegions (fun r s =>
    match s.copyCause s.nv.prim r, s.copyCause s.nv.mirr r with
    | 0, 0 => s
    | 0, _ =>
      match norImage s.nv.prim r with
      | some x => { s with nv := { s.nv with mirr := putImage s.nv.mirr r x } }
      | none => s
    | _, 0 =>
      match norImage s.nv.mirr r with
      | some x => { s with nv := { s.nv with prim := putImage s.nv.prim r x } }
      | none => s
    | _, _ => s) s

/-! ## Measurements (R400, R401) -/

def zeros64 : List Byte := List.replicate 64 0
/-- Measurement register M1 to M8. -/
def State.meas (s : State) (m : Nat) : List Byte := mget zeros64 s.sec.meas m

/-- Append a log entry; a full log sets LOG_FULL. -/
def State.logEntry (s : State) (m kind version : Nat) (digest : List Byte) : State :=
  let n := s.sec.log.length
  if n < 1024 then
    let e := bytesOf 1 m ++ bytesOf 1 kind ++ bytesOf 2 n ++ bytesOf 4 (s.freeAhead 0) ++ bytesOf 4 version ++ bytesOf 4 0 ++ padTo 64 digest ++
      bytesOf 16 0
    let s := { s.drawn 1 with sec := { s.sec with log := s.sec.log ++ [e] } }
    s.setF .sec R.sec.SEC_STS_LOG_ENTRIES (n + 1)
  else if bit (s.getF .sec R.hdr.ERR_STS) 14 then s
  else s.err .sec 14

/-- Extend a register and log it. M1 to M7 are frozen after BOOT_DONE; without its keeper nothing extends. -/
def State.extend (s : State) (m kind version : Nat) (digest : List Byte) : State :=
  if s.die 0 ≠ .up || (s.sec.frozen && decide (m < 8)) then s
  else
    let v := Config.shake256 (s.meas m ++ digest)
    ({ s with sec := { s.sec with meas := mset zeros64 s.sec.meas m v } }).logEntry m kind version digest

/-- M8: an OE die has negotiated. The digest is over its global number, PARTNER_ID, PARTNER_CAP and rate of its first active module. -/
def State.measureOe (s : State) (h : Half) (o : Fin 8) (rate : Nat) : State :=
  match ((List.range 4).map (fun k => Page.ucie h (Fin.ofNat 32 (4 * o.val + k)))).find? (fun p => s.getF p R.dlink.BLK_STS_STATE = 3) with
  | some p =>
    s.extend 8 3 0 (Config.shake256 (bytesOf 1 (8 * halfNo h + o.val) ++
      bytesOf 4 (s.reg (fldAddr p R.dlink.PARTNER_ID_VENDOR)).toNat ++ bytesOf 4 (s.reg (fldAddr p R.dlink.PARTNER_CAP_CAPS)).toNat ++
      bytesOf 1 rate))
  | none => s

end Sys2Proof.Machine
end

