-- ==== Sys2Proof/Machine/Bundles.lean ====
section
/-! DEFINITION. Links between dies as registers show them, and the bundle that a piece of hinge traffic takes (05 R154, R155). -/

namespace Sys2Proof.Machine

def dlInit : DLink := { exp := 0, since := 0, bad := none, next := 0, sent := [], failed := [], charge := [], retry := false }
def dlKey : DieLink → Nat
  | .hinge h b => 16 * halfNo h + b.val
  | .ucie h k => 32 + 32 * halfNo h + k.val
def dlPage : DieLink → Page
  | .hinge h b => .hinge h b
  | .ucie h k => .ucie h k
def State.dl (s : State) (l : DieLink) : DLink := mget dlInit s.dlinks (dlKey l)
def State.setDl (s : State) (l : DieLink) (x : DLink) : State := { s with dlinks := mset dlInit s.dlinks (dlKey l) x }
def State.dlState (s : State) (l : DieLink) : Nat := s.getF (dlPage l) R.dlink.BLK_STS_STATE

/-- States of a bundle, and of a module (Table 5.12). -/
def hgDOWN : Nat := 0
def hgTRAINING : Nat := 1
def hgFULL : Nat := 2
def hgHALF : Nat := 3
def hgBROKEN : Nat := 4
def ucRESET : Nat := 0
def ucACTIVE : Nat := 3
def ucBROKEN : Nat := 5
def ucDISABLED : Nat := 6

/-- The other end of a bundle. -/
def farEnd (h : Half) (b : Fin 16) : DieLink := .hinge (otherHalf h) b

def allBundles : List (Fin 16) := allFin 16

def State.bundleUp (s : State) (b : Fin 16) : Bool :=
  s.dlState (.hinge .A b) = hgFULL || s.dlState (.hinge .A b) = hgHALF

/-- Role of a bundle: 0 MEM, 1 CTL, 2 FAB, 3 OFF. -/
def State.role (s : State) (b : Fin 16) : Nat := s.getF (.hinge .A b) R.dlink.BLK_STS_RATE_ROLE

/-- UP bundles of a role, in ascending number. -/
def State.roleBundles (s : State) (r : Nat) : List (Fin 16) := allBundles.filter (fun b => s.bundleUp b && s.role b = r)

/-- The bundle hash of an address over n bundles (R155). -/
def hingeHash (a n : Nat) : Nat := (bits a 13 7 ^^^ bits a 20 14) % n

/-- The UP bundle of a role that the hash of an address picks. -/
def State.hashBundle (s : State) (r a : Nat) : Option (Fin 16) :=
  let bs := s.roleBundles r
  bs[hingeHash a bs.length]?

/-- The bundle a piece of traffic takes (R155). -/
def State.pickBundle (s : State) : HingeFlow → Option (Fin 16)
  | .mem a => s.hashBundle 0 a.toNat
  | .coh a => s.hashBundle 1 a.toNat
  | .ctl => (s.roleBundles 1).head?
  | .fab p fid => s.hashBundle 2 (Config.flowAddr p.val fid.toNat)

/-- An access of half req to a line of the other half finds its way: a bundle of the MEM role, or a bypass while the hinge is lost (10 R328). -/
def State.crosses (s : State) (req home : Half) (a : Nat) : Bool :=
  req = home || s.getF .ck R.ctrlch.CC_STS_HINGE ≠ 0 || (s.pickBundle (.mem (BitVec.ofNat 52 a))).isSome

/-- BLK_STS.READY as R433 has it: 0 while RESET_BUSY or FENCED is 1. -/
def State.setReady (s : State) (p : Page) : State :=
  s.setF p R.hdr.BLK_STS_READY (if s.isSet p R.hdr.BLK_STS_RESET_BUSY || s.isSet p R.hdr.BLK_STS_FENCED then 0 else 1)

def State.setRole (s : State) (b : Fin 16) (r : Nat) : State :=
  (s.setF (.hinge .A b) R.dlink.BLK_STS_RATE_ROLE r).setF (.hinge .B b) R.dlink.BLK_STS_RATE_ROLE r

def State.setBundle (s : State) (b : Fin 16) (st : Nat) : State :=
  (s.setF (.hinge .A b) R.dlink.BLK_STS_STATE st).setF (.hinge .B b) R.dlink.BLK_STS_STATE st

end Sys2Proof.Machine
end

