-- ==== Sys2Proof/Machine/Memory.lean ====
section
/-! DEFINITION. Memory (04): denied windows, retirement, the line access, training, scrub, the tier, and the commands of the memory family. -/

namespace Sys2Proof.Machine

/-! ## Windows and retirement (R119, R137) -/

/-- An access outside every window: WIN_DENY on the requester's half (R119). `code` is the check code, or the cause in a cell
(14 Table 14.5). -/
def State.winDeny (s : State) (h : Half) (p a : Nat) (code : Nat := 0x86) : State :=
  s.err (.comb h) 14 { status := 3, parts := 2 ^ p, detail := code, info := s.memInfo a }

/-- A check that fails with DETAIL 0x86 sets WIN_DENY on the sequencer's half (04 R119); the record names the first address that no
window holds. -/
def State.denySpans (s : State) (h : Half) (p code : Nat) (l : List (Nat × Nat)) : State :=
  if code ≠ 0x86 then s
  else
    match l.findSome? (fun e => s.firstOut h p e.1 e.2) with
    | some a => s.winDeny h p a
    | none => s

/-- Retire slice j of a stack; the retirement is journaled as type 0x03 (R137; the body's layout: assumption 11). -/
def State.retireSlice (s : State) (h : Half) (st j : Nat) : State :=
  (s.markRetired h st j).journal 3 (bytesOf 1 (halfNo h) ++ bytesOf 1 st ++ bytesOf 1 j)

/-- A stack fails (R137): STATE FAILED, all slices retired, STACK_FAIL with class JOB for the partitions that hold its
sets. -/
def State.failStack (s : State) (h : Half) (st : Nat) (inj : Bool := false) : State :=
  let p := hbmPage h st
  let parts := (List.range 72).foldl (fun m j => let sp := s.sliceSpan h st j; m ||| s.partsIn h sp.1 sp.2) 0
  let fresh := (List.range 72).filter (fun j => !s.retired h st j)
  let s := (s.setF p R.hbmc.BLK_STS_STATE 5).setF p R.hbmc.HBM_CFG_RATE 0
  let s := foldOver fresh (fun j s => s.markRetired h st j) s
  let s := s.journal 3 (bytesOf 1 (halfNo h) ++ bytesOf 1 st ++ bytesOf 1 0xFF)
  let s := { s with mem := { s.mem with train := merase s.mem.train (12 * halfNo h + st) } }
  s.err p 14 { cost := 5, parts := parts, info := bytesOf 8 0 ++ bytesOf 1 st, inj := inj }

/-! ## The line access (R119, R136, R138) -/

/-- An armed injection on a page that waits for a data event (01 R35, 14 R429). -/
def State.armed (s : State) (p : Page) (n : Nat) : Bool :=
  s.isSet p R.hdr.ERR_INJ_ARM && s.getF p R.hdr.ERR_INJ_BIT = n

def State.disarm (s : State) (p : Page) : State := s.setF p R.hdr.ERR_INJ_ARM 0

/-- A corrected error of a controller (R135): counted, written back. -/
def State.corrected (s : State) (a : Nat) (inj : Bool) : State :=
  let p := s.placePage a
  match s.place a with
  | .hbm _ _ => (s.addSat p R.hbmc.CE_CNT_COUNT 1).err p 8 { info := s.memInfo a, inj := inj }
  | .tier _ _ => (s.addSat p R.ddrc.CE_CNT_COUNT 1).err p 8 { info := s.memInfo a, inj := inj }
  | _ => s.err p 8 { info := s.memInfo a, inj := inj }

/-- An uncorrectable sector (R136): counted, recorded, poisoned. -/
def State.uncorrectable (s : State) (a : Nat) (inj : Bool) : State :=
  let p := s.placePage a
  let s := s.poisonSec (a / 64)
  match s.place a with
  | .hbm _ _ => (s.addSat p R.hbmc.UE_CNT_COUNT 1).err p 9 { cost := 4, status := 7, info := s.memInfo a, inj := inj }
  | .tier _ _ => (s.addSat p R.ddrc.UE_CNT_COUNT 1).err p 9 { cost := 4, status := 7, info := s.memInfo a, inj := inj }
  | _ => (s.addSat p R.comb.POISON_CNT_COUNT 1).err p 10 { cost := 4, status := 7, info := s.memInfo a, inj := inj }

/-- What the stored line meets on a read: the operand's upset, or an injection armed on the controller. -/
def State.readUpset (s : State) (a : Nat) (u : Upset) : Upset × Bool × State :=
  match s.place a with
  | .hbm _ _ | .tier _ _ =>
    let p := s.placePage a
    if s.armed p 9 then (.uncorrectable, true, s.disarm p)
    else if s.armed p 8 then (if u = .uncorrectable then u else .corrected, true, s.disarm p)
    else (u, false, s)
  | _ => (u, false, s)

/-- An access that reaches a memory controller wakes its domain (11 R350). -/
def State.wakeMem (s : State) (a : Nat) : State :=
  match s.place a with
  | .hbm h off => s.wakeDom h (8 + (s.hbmDecode h off).1)
  | .tier h off => s.wakeDom h (20 + s.tierChan h off)
  | _ => s

/-- Serve a read of n bytes at a mapped, unrefused address at its home. `tag` is a corrected error of a tag or a directory entry (R135). -/
def State.serveRead (s : State) (req home : Half) (src : ReqSrc) (a n hint : Nat) (u : Upset) : State × Nat × List Byte :=
  let l := a / 128
  let scratch := match s.place a with | .scratch _ _ => true | _ => false
  let s := if u = .tag then s.err (.comb (s.servingHalf req home src)) 11 { info := s.memInfo a } else s
  if scratch then
    match u with
    | .uncorrectable => (s.uncorrectable a false, 7, [])
    | .corrected => if s.poisoned a n then (s.corrected a false, 7, []) else (s.corrected a false, 0, s.rd a n)
    | .none | .tag => if s.poisoned a n then (s, 7, []) else (s, 0, s.rd a n)
  else
    let t := s.cacheTouch req home src false hint l
    let sv := s.servingHalf req home src
    let s := t.1
    let hit := t.2.1
    let dirty := t.2.2
    let injClean := hit && !dirty && s.armed (.comb sv) 9
    let injDirty := hit && dirty && s.armed (.comb sv) 10
    if hit then
      -- an error of the cache's own line
      if injDirty || (decide (u = .uncorrectable) && dirty) then
        let s := if injDirty then s.disarm (.comb sv) else s
        let s := ((s.poisonLine l).evict sv l).dirSts
        (s.err (.comb sv) 10 { cost := 4, status := 7, info := s.memInfo a, inj := injDirty }, 7, [])
      else if injClean || decide (u = .uncorrectable) then
        let s := if injClean then s.disarm (.comb sv) else s
        let s := s.err (.comb sv) 9 { info := s.memInfo a, inj := injClean }
        if s.poisoned a n then (s, 7, []) else (s, 0, s.rd a n)
      else
        let s := if u = .corrected then s.err (.comb sv) 8 { info := s.memInfo a } else s
        if s.poisoned a n then (s, 7, []) else (s, 0, s.rd a n)
    else
      let r := (s.wakeMem a).readUpset a u
      let s := r.2.2
      match r.1 with
      | .uncorrectable => (s.uncorrectable a r.2.1, 7, [])
      | .corrected =>
        let s := s.corrected a r.2.1
        if s.poisoned a n then (s, 7, []) else (s, 0, s.rd a n)
      | .none | .tag => if s.poisoned a n then (s, 7, []) else (s, 0, s.rd a n)

/-- Serve a write at a mapped, unrefused address: stored, poison of whole sectors cleared. -/
def State.serveWrite (s : State) (req home : Half) (src : ReqSrc) (a hint : Nat) (b : List Byte) : State :=
  let scratch := match s.place a with | .scratch _ _ => true | _ => false
  let s := if scratch then s
    else
      let t := s.cacheTouch req home src true hint (a / 128)
      if t.2.1 then t.1 else t.1.wakeMem a
  (s.unpoison a b.length).wr a b

/-- One line access of a requester that has passed its window check, or needs none: state, status, data. -/
def State.lineOp (s : State) (req : Half) (src : ReqSrc) (write : Bool) (a hint : Nat) (b : List Byte) (n : Nat)
    (u : Upset) : State × Nat × List Byte :=
  match s.homeOf a with
  | none =>   -- R111
    let s := s.err (.comb req) 14 { status := if write then 0 else 7, info := s.memInfo a }
    (s, if write then 0 else 7, [])
  | some home =>
    let local_ := !write && src = .cell && cached (s.cache req) (a / 128)
    if !(s.halfUp home && (local_ || s.crosses req home a)) then   -- R139, 05 R149
      if write then (s.fwRecord (.comb home) false { cost := 5, info := s.memInfo a }, 0, []) else (s, 7, [])
    else if s.refused (s.place a) then   -- R138
      if write then
        (match s.place a with
         | .hbm h off => s.err (hbmPage h (s.hbmDecode h off).1) 12 { info := s.memInfo a }
         | _ => s.fwRecord (s.placePage a) false { info := s.memInfo a }, 0, [])
      else (s, 7, [])
    else if write then (s.serveWrite req home src a hint b, 0, [])
    else s.serveRead req home src a n hint u

/-- Read n bytes for an agent on a half: state, the first status other than OK, the data. -/
def State.memRead (s : State) (req : Half) (src : ReqSrc) (hint a n : Nat) : State × Nat × List Byte :=
  (linesOf a n).foldl (fun acc e =>
    let r := acc.1.lineOp req src false e.1 hint [] e.2 .none
    (r.1, if acc.2.1 = 0 then r.2.1 else acc.2.1, acc.2.2 ++ padTo e.2 r.2.2)) (s, 0, [])

/-- Write bytes for an agent on a half. -/
def State.memWrite (s : State) (req : Half) (src : ReqSrc) (hint a : Nat) (b : List Byte) : State :=
  (linesOf a b.length).foldl (fun s e => (s.lineOp req src true e.1 hint ((b.drop (e.1 - a)).take e.2) e.2 .none).1) s

/-- Serve one access and answer it. -/
def State.serveReq (s : State) (r : LineReq) : State :=
  let a := r.addr.toNat
  let x := s.lineOp r.half r.src r.write a r.hint.toNat r.data r.len r.upset
  x.1.emit (.access r.half r.src x.2.1 x.2.2)

/-- An access waits in its controller. -/
def State.hold (s : State) (x : Held) : State := { s with mem := { s.mem with held := s.mem.held ++ [x] } }

/-- MEMORY_ACCESS: the window check where a partition's windows cover the access, then the home, held while the controller
holds it. -/
def memoryAccess (r : LineReq) (s : State) : State :=
  let a := r.addr.toNat
  let denied := match r.part with
    | some p => !s.inWindow r.half p.val a r.len
    | none => false
  if denied then
    (s.winDeny r.half (match r.part with | some p => p.val | none => 0) a
      (match r.src with | .cell => 9 | _ => 0x86)).emit (.access r.half r.src 3 [])
  else if s.isHeld a then s.hold (.line r)
  else s.serveReq r

/-! ## Scrub, PPR, retirement (R135 to R137) -/

/-- PATROL_SCRUB of a 64-byte sector: corrected errors are written back and counted, uncorrectable sectors poisoned and
reported without a reader. The comb cache's own scrub reports on the COMB page. POS and PASSES follow the address. -/
def patrolScrub (t : ScrubTarget) (addr : BitVec 52) (u : Upset) (s : State) : State :=
  let a := addr.toNat
  match t with
  | .hbm h i =>
    let p : Page := .hbmc h i
    if s.answers p && s.placePage a = p then
      let pos := match s.place a with | .hbm hh off => (s.hbmDecode hh off).2 / 2 ^ 22 | _ => 0
      let s := if pos < s.getF p R.hbmc.SCRUB_POS then s.addWrap p R.hbmc.SCRUB_PASSES 1 else s
      let s := s.setF p R.hbmc.SCRUB_POS pos
      match u with
      | .none | .tag => s
      | .corrected => s.corrected a false
      | .uncorrectable => s.uncorrectable a false
    else s
  | .ddr h c =>
    let p : Page := .ddrc h c
    if s.answers p && s.placePage a = p then
      let pos := s.tierLocal h (a - tierBase h) / 2 ^ 23
      let s := if pos < s.getF p R.ddrc.SCRUB_POS then s.addWrap p R.ddrc.SCRUB_PASSES 1 else s
      let s := s.setF p R.ddrc.SCRUB_POS pos
      match u with
      | .none | .tag => s
      | .corrected => s.corrected a false
      | .uncorrectable => s.uncorrectable a false
    else s
  | .comb h =>
    if s.answers (.comb h) then
      match s.place a, u with
      | _, .none => s
      | _, .tag => s.err (.comb h) 11 { info := s.memInfo a }
      | .scratch home _, _ =>
        if home ≠ h then s else if u = .corrected then s.corrected a false else s.uncorrectable a false
      | _, .corrected => s.err (.comb h) 8 { info := s.memInfo a }
      | _, .uncorrectable =>
        let l := a / 128
        if cached (s.cache h) l then
          if (mget clNone (s.cache h) l).dirty then
            (((s.poisonLine l).evict h l).dirSts).err (.comb h) 10 { cost := 4, info := s.memInfo a }
          else ((s.evict h l).dirSts).err (.comb h) 9 { info := s.memInfo a }
        else s
    else s

/-- Hard PPR of a stack over its life: repairs, and banks whose last resource is spent (Table 4.15). -/
def State.pprOf (s : State) (h : Half) (i : Nat) : Nat × Nat := mget (0, 0) s.ppr (12 * halfNo h + i)

/-- Banks of a stack with a hard PPR resource left. -/
def State.pprLeft (s : State) (h : Half) (i : Nat) : Nat := min 255 (Config.pprBanks (12 * halfNo h + i)) - (s.pprOf h i).2

/-- HARD_PPR of the row of a sector whose uncorrectable error repeats: a resource of the bank is used, the sector's poison remains, PPR_DONE is
set (R137). A stack without a resource left repairs nothing (SLICE_RETIRE follows). The spec counts no resources of a DIMM. -/
def hardPpr (h : Half) (t : PprTarget) (addr : BitVec 52) (s : State) : State :=
  let a := addr.toNat
  match t with
  | .hbm i =>
    let p : Page := .hbmc h i
    if s.answers p && s.placePage a = p && s.mem.poison.contains (a / 64) && s.pprLeft h i.val ≠ 0 then
      let x := s.pprOf h i.val
      let key := 12 * halfNo h + i.val
      let s := { s with ppr := mput s.ppr key (min 255 (x.1 + 1), x.2 + (if Config.pprLast key x.1 then 1 else 0)) }
      s.err p 10 { info := s.memInfo a }
    else s
  | .ddr c =>
    let p : Page := .ddrc h c
    if s.answers p && s.placePage a = p && s.mem.poison.contains (a / 64) then s.err p 10 { info := s.memInfo a } else s

/-- DIMM_FAIL: the channel is retired (under ILV an access to the half's tier is then refused as a whole, R137); the
retirement is journaled as type 0x04. No ERR_STS bit names the failure: a firmware record of class JOB (14 Table 14.2). -/
def dimmFail (h : Half) (c : Fin 8) (s : State) : State :=
  let p : Page := .ddrc h c
  if s.answers p && s.getF p R.ddrc.BLK_STS_STATE = 2 then
    let parts := s.partsIn h (tierBase h) (tierBase h + s.tierCap h)
    let s := s.setF p R.ddrc.BLK_STS_STATE 3
    let s := (s.dropLines (tierBase h) (tierBase h + s.tierCap h)).dirSts
    let s := s.journal 4 (bytesOf 1 (halfNo h) ++ bytesOf 1 c.val)
    s.fwRecord p false { cost := 5, parts := parts, info := bytesOf 8 0 ++ bytesOf 1 c.val }
  else s

/-! ## DDR5 training and the tier (R131, R132, 12 R377) -/

/-- Byte n of an SPD image. -/
def spdAt (b : List Byte) (n : Nat) : Nat := (nth 0 b n).toNat

/-- What an SPD image says of a supported module (Table 4.9): capacity in GiB, logical ranks, device width, rate in 100 MT/s. The byte
positions are those of JEDEC's DDR5 SPD (PRESUMED, assumption 23). -/
def spdInfo (b : List Byte) : Option (Nat × Nat × Nat × Nat) :=
  let die := spdAt b 4
  let dens := if die % 32 = 4 then 16 else if die % 32 = 5 then 24 else if die % 32 = 6 then 32 else 0
  let stack := if die / 32 = 0 then 1 else if die / 32 = 2 then 2 else if die / 32 = 3 then 4 else 0
  let width := if spdAt b 6 / 32 = 0 then 4 else if spdAt b 6 / 32 = 1 then 8 else 0
  let ranks := bits (spdAt b 234) 5 3 + 1
  let tck := spdAt b 20 + 256 * spdAt b 21
  let mts := if tck = 0 then 0 else if tck ≤ 313 then 64 else if tck ≤ 358 then 56 else if tck ≤ 417 then 48 else 0
  let cap := if width = 0 then 0 else 2 * (32 / width) * dens * stack * ranks / 8
  if spdAt b 2 = 0x12 && spdAt b 3 = 1 && spdAt b 235 = 0x32 && dens ≠ 0 && stack ≠ 0 && ranks ≤ 2 && mts ≠ 0 && 32 ≤ cap && cap ≤ 512 then
    some (cap, ranks * stack, width, mts)
  else none

def chanKey (h : Half) (c : Nat) : Nat := 8 * halfNo h + c

/-- The training step of a channel: with the description of a supported module it trains; one of another module leaves it EMPTY with
TRAIN_FAIL; with none it waits, and the management interface is told (R131). -/
def State.ddrStart (s : State) (h : Half) (c : Nat) : State :=
  let p := ddrPage h c
  match s.mem.dimms.find? (fun e => e.1 = chanKey h c) with
  | none => s.mgmtEvt 6 (some h)
  | some e =>
    match spdInfo e.2 with
    | some i => s.setFs p [(R.ddrc.BLK_STS_STATE, 1), (R.ddrc.DIMM_CFG_RANKS, i.2.1), (R.ddrc.DIMM_CFG_DEV_WIDTH, i.2.2.1),
        (R.ddrc.DIMM_CFG_MTS, i.2.2.2)]
    | none => ({ s with spdOut := sadd s.spdOut (chanKey h c) }).err p 11 { info := bytesOf 8 0 ++ bytesOf 1 c }

/-- DDR_TRAIN_DONE of a channel in TRAINING. -/
def ddrTrainDone (h : Half) (c : Fin 8) (pass : Bool) (eye t100 : BitVec 8) (s : State) : State :=
  let p : Page := .ddrc h c
  if s.answers p && s.getF p R.ddrc.BLK_STS_STATE = 1 then
    let s := s.setFs p [(R.ddrc.TRAIN_Q_EYE_MIN, eye.toNat), (R.ddrc.TRAIN_Q_TRAIN_100MS, t100.toNat)]
    if pass then s.setF p R.ddrc.BLK_STS_STATE 2
    else (s.setF p R.ddrc.BLK_STS_STATE 3).err p 11 { cost := 5, info := bytesOf 8 0 ++ bytesOf 1 c.val }
  else s

/-- SPD_WAIT_TIMEOUT: a channel without a description stays EMPTY and sets NO_SPD. -/
def spdWaitTimeout (h : Half) (c : Fin 8) (s : State) : State :=
  let p : Page := .ddrc h c
  if s.answers p && s.getF p R.ddrc.BLK_STS_STATE = 0 && !mhas s.mem.dimms (chanKey h c.val) && !s.spdOut.contains (chanKey h c.val) then
    ({ s with spdOut := sadd s.spdOut (chanKey h c.val) }).err p 12
  else s

/-- Windows of the configuration that meet a half's tier window: partition, window, first and last unit. -/
def tierWindows (parts : List PartCfg) (h : Half) : List (Nat × Nat × Nat × Nat) :=
  (parts.map fun pc => ((List.range pc.windows.length).zip pc.windows).filterMap fun e =>
    if decide (e.2.1 * 2 ^ 21 < tierBase h + tierWin) && decide (tierBase h < (e.2.2 + 1) * 2 ^ 21) then
      some (pc.id.val, e.1, e.2.1, e.2.2)
    else none).flatten

/-- Show a window on both halves' COMB pages (R119). -/
def State.showWindow (s : State) (p w first last : Nat) (valid : Bool) : State :=
  foldOver [Half.A, Half.B] (fun h s =>
    s.setFs (.comb h) [(R.comb.WIN_BASE_VALID.ix2 p w, if valid then 1 else 0), (R.comb.WIN_BASE_BASE.ix2 p w, first),
      (R.comb.WIN_LIMIT_LIMIT.ix2 p w, last)]) s

/-- The channels that training passed are mapped: interleaved where asked for and the population allows it (R132). -/
def State.mapTier (s : State) (h : Half) (wantIlv : Bool) (parts : List PartCfg) : State :=
  let up := (List.range 8).filter (fun c => s.getF (ddrPage h c) R.ddrc.BLK_STS_STATE = 2)
  let s := foldOver up (fun c s => s.setF (ddrPage h c) R.ddrc.DIMM_CFG_CAP_GIB
    (((spdInfo (mget [] s.mem.dimms (chanKey h c))).map (·.1)).getD 0)) s
  let caps := up.map (fun c => s.getF (ddrPage h c) R.ddrc.DIMM_CFG_CAP_GIB)
  let equal := match caps with
    | [] => false
    | x :: t => t.all (· = x)
  let ilv := wantIlv && equal && [1, 2, 4, 8].contains up.length
  let s := s.setFs (.comb h) [(R.comb.TIER_CFG_DDR_CH, bitsOf up), (R.comb.TIER_CFG_ILV, if ilv then 1 else 0)]
  foldOver (tierWindows parts h) (fun e s =>
    let first := e.2.2.1
    let last := e.2.2.2
    if decide (tierBase h ≤ first * 2 ^ 21) && decide ((last + 1) * 2 ^ 21 ≤ tierBase h + s.tierCap h) then
      s.showWindow e.1 e.2.1 first last true
    else s.fwRecord (.comb h) false { cost := 3, parts := 2 ^ e.1, info := bytesOf 8 (first * 2 ^ 21) }) s

/-- TIER_MAP, once: every channel of the half is UP, FAILED or EMPTY for good. -/
def tierMap (h : Half) (s : State) : State :=
  let st := fun (c : Nat) => s.getF (ddrPage h c) R.ddrc.BLK_STS_STATE
  if s.answers (.comb h) && (s.tierChans h).isEmpty &&
      (List.range 8).all (fun c => st c = 2 || st c = 3 || (st c = 0 && s.spdOut.contains (chanKey h c))) then
    let ilv := match s.cfg.ddrIlv with
      | some e => if h = .A then e.1 else e.2
      | none => true
    s.mapTier h ilv (s.cfg.parts.getD [])
  else s

/-- DDR_CA_ALERT: up to three retries; when they fail the access completes MEM_UNCORR and DIMM_ALERT is set (R139). -/
def ddrCaAlert (h : Half) (c : Fin 8) (addr : BitVec 52) (retriesFail : Bool) (s : State) : State :=
  let p : Page := .ddrc h c
  if s.answers p && retriesFail then
    (s.err p 13 { cost := 4, status := 7, info := bytesOf 8 (addr.toNat / 128 * 128) ++ bytesOf 1 c.val }).emit
      (.access h .device 7 [])
  else s

/-! ## The hinge lost (R139) -/

/-- Lines a half's cache holds in M for the other half are poisoned at their home; copies are dropped. -/
def State.loseCopies (s : State) (h : Half) : State :=
  let oth := otherHalf h
  let mine := (s.cache h).filter (fun e => s.homeOf (128 * e.1) = some oth)
  let dirty := mine.filter (fun e => e.2.dirty)
  let s := foldOver dirty (fun e s => s.poisonLine e.1) s
  let s := s.setCache h ((s.cache h).filter (fun e => s.homeOf (128 * e.1) ≠ some oth))
  let s := s.dirSts
  if dirty.isEmpty then s else s.err (.comb oth) 12 { cost := 4, count := dirty.length }

def State.hingeLostMem (s : State) : State := (s.loseCopies .A).loseCopies .B

end Sys2Proof.Machine
end

