-- ==== Sys2Proof/Machine/CalCore.lean ====
section
/-! DEFINITION. The outcome of one calibration run (12 R382 to R384, R392, Table 12.5). -/

namespace Sys2Proof.Machine

def calInit : CalRec := { result := 0, traced := false, elem := 0, runs := 0, q := 0, passed := false, pause := 0, fails := 0 }

/-- Key of an instance: the page (0 G, 1 A, 2 B), the ID, the instance. -/
def calPageNo : Page → Nat
  | .cal .A => 1
  | .cal .B => 2
  | _ => 0
def calKey (p : Page) (id inst : Nat) : Nat := 2 ^ 17 * calPageNo p + 512 * id + inst
def State.calRec (s : State) (p : Page) (id inst : Nat) : CalRec := mget calInit s.cals (calKey p id inst)
def State.setCal (s : State) (p : Page) (id inst : Nat) (x : CalRec) : State := { s with cals := mset calInit s.cals (calKey p id inst) x }

/-- The quality figure meets its limit (Table 12.5). -/
def calMeets (id : Nat) (q : Int) : Bool :=
  let within := fun (n : Nat) => decide (q.natAbs ≤ n)
  match id with
  | 0x01 => within 2000
  | 0x02 => within 20000
  | 0x03 => within 50
  | 0x04 => within 200000
  | 0x10 => within 5000
  | 0x11 => within 500000
  | 0x12 | 0x13 => decide (q ≥ 77)
  | 0x14 | 0x15 => decide (q ≥ 64)
  | 0x16 => decide (q ≤ 50)
  | _ => decide (q ≤ 250)

/-- Calibrations that need one of the two references of R382, and those that are traced to it. -/
def calNeedsRef (id : Nat) : Bool := [0x01, 0x02, 0x03, 0x04, 0x11].contains id
def calTraces (id : Nat) : Bool := calNeedsRef id || id = 0x10

/-- REF_STS as a run finds the references. -/
def State.showRef (s : State) (id : Nat) (ok : Bool) : State :=
  let b := if ok then 1 else 0
  if id = 0x01 || id = 0x10 then s.setF .gCal R.cal.REF_STS_CALREF b
  else if calNeedsRef id then
    (s.setFs .gCal [(R.cal.REF_STS_CAL_VREF, b), (R.cal.REF_STS_VREF_UV, if ok then s.freeAhead 0 else 0)]).drawn 1
  else s

/-- A run that fails: RESULT, CAL_FAIL, and at the third run in a row a fatal record. -/
def State.calFails (s : State) (p : Page) (id inst : Nat) (x : CalRec) (result : Nat) (inj : Bool) : State :=
  let s := s.setCal p id inst { x with result := result, runs := min (x.runs + 1) 65535, fails := x.fails + 1 }
  let s := s.err p 8 { inj := inj }
  if x.fails + 1 = 3 then s.fwRecord p true else s

/-- A run ends as what it met says; an armed injection makes it time out (R392). The flag says whether it passed. -/
def State.calEnd (s : State) (p : Page) (id inst : Nat) (o : CalObs) : State × Bool :=
  let x := s.calRec p id inst
  let inj := s.armed p 8 && s.getF p R.cal.CAL_SEL_ID = id && s.getF p R.cal.CAL_SEL_INST = inst
  let s := (if inj then s.disarm p else s).showRef id o.refOk
  if calNeedsRef id && !o.refOk then
    ((s.setCal p id inst { x with result := 2, traced := false, runs := min (x.runs + 1) 65535, fails := 0 }).err p 9,
      false)
  else if inj then
    -- the injected time-out and one of the run itself are two records (01 R35)
    let s := s.calFails p id inst x 3 true
    (if o.timeout then s.err p 8 else s, false)
  else if o.timeout then (s.calFails p id inst x 3 false, false)
  else if !calMeets id o.quality then (s.calFails p id inst { x with q := o.quality, pause := min o.pauseUs 65535 } 4 false, false)
  else
    (s.setCal p id inst
      { result := 1, traced := calTraces id && o.refOk, elem := o.elem.toNat, runs := min (x.runs + 1) 65535, q := o.quality, passed := true,
        pause := min o.pauseUs 65535, fails := 0 }, true)

/-- Calibration 0x17 of an OE start: the highest K sum of its rings, in 1/1000 (06 R188). -/
def State.cal17 (s : State) (h : Half) (o : Fin 8) (sum : Nat) : State :=
  (s.calEnd (.cal h) 0x17 o.val { refOk := true, timeout := false, elem := 0, quality := sum, pauseUs := 0 }).1

end Sys2Proof.Machine
end

