-- ==== Sys2Proof/Machine/Operands.lean ====
section
/-! DEFINITION. Number formats of the cells (02 R43 to R48): exact values, decoding of every element format, LB4 codes, and exact
arithmetic on decoded values. -/

namespace Sys2Proof.Machine

/-- A decoded value: NaN, an infinity, or exactly (−1)^neg · m · 2^e. -/
inductive Num where
  | nan
  | inf (neg : Bool)
  | fin (neg : Bool) (m : Nat) (e : Int)
deriving DecidableEq, Repr

/-- A floating-point format (Table 2.3): exponent and mantissa bits, bias, largest finite code, code of +infinity where it has
one, NaN code where it has one. -/
structure FpFmt where
  eb : Nat
  mb : Nat
  bias : Nat
  maxCode : Nat
  infCode : Option Nat
  nanCode : Option Nat
deriving DecidableEq, Repr

def fp32 : FpFmt := ⟨8, 23, 127, 0x7F7FFFFF, some 0x7F800000, some 0x7FC00000⟩
def fp16 : FpFmt := ⟨5, 10, 15, 0x7BFF, some 0x7C00, some 0x7E00⟩
def bf16 : FpFmt := ⟨8, 7, 127, 0x7F7F, some 0x7F80, some 0x7FC0⟩
def e4m3 : FpFmt := ⟨4, 3, 7, 0x7E, none, some 0x7F⟩
def e5m2 : FpFmt := ⟨5, 2, 15, 0x7B, some 0x7C, some 0x7F⟩
def e2m3 : FpFmt := ⟨2, 3, 1, 0x1F, none, none⟩
def e3m2 : FpFmt := ⟨3, 2, 3, 0x1F, none, none⟩
def e2m1 : FpFmt := ⟨2, 1, 1, 0x7, none, none⟩

/-- The floating-point element format of a selector (Table 2.2); none for integers and LB4. -/
def fpOf : Nat → Option FpFmt
  | 0 => some fp32
  | 1 => some bf16
  | 2 => some fp16
  | 3 | 5 => some e4m3
  | 4 | 6 => some e5m2
  | 7 => some e2m3
  | 8 => some e3m2
  | 9 => some e2m1
  | _ => none

/-- Element bits of a selector. -/
def fmtBits (f : Nat) : Nat :=
  if f = 0 || f = 13 then 32 else if f = 1 || f = 2 then 16
  else if f = 7 || f = 8 then 6 else if f = 9 || f = 12 then 4 else 8

/-- Bytes of a 32-element chunk. -/
def chunkBytes (f : Nat) : Nat := 4 * fmtBits f

/-- The format carries one E8M0 scale per block of 32. -/
def isBlock (f : Nat) : Bool := 5 ≤ f && f ≤ 10 || f = 12

/-- Selectors of Table 2.2 that are not reserved. -/
def fmtOk (f : Nat) : Bool := f ≤ 13

/-- Decode an element of a floating-point format (R44). -/
def decodeFp (f : FpFmt) (c : Nat) : Num :=
  let neg := bit c (f.eb + f.mb)
  let ex := c / 2 ^ f.mb % 2 ^ f.eb
  let mn := c % 2 ^ f.mb
  let mag := c % 2 ^ (f.eb + f.mb)
  match f.infCode, f.nanCode with
  | some i, _ =>
    if mag = i then .inf neg
    else if mag > i then .nan
    else if ex = 0 then .fin neg mn (1 - (f.bias : Int) - f.mb) else .fin neg (2 ^ f.mb + mn) (ex - (f.bias : Int) - f.mb)
  | none, some n =>
    if mag = n then .nan
    else if ex = 0 then .fin neg mn (1 - (f.bias : Int) - f.mb) else .fin neg (2 ^ f.mb + mn) (ex - (f.bias : Int) - f.mb)
  | none, none =>
    if ex = 0 then .fin neg mn (1 - (f.bias : Int) - f.mb) else .fin neg (2 ^ f.mb + mn) (ex - (f.bias : Int) - f.mb)

/-- Two's complement of w bits as an integer. -/
def toSigned (w v : Nat) : Int := if v % 2 ^ w < 2 ^ (w - 1) then (v % 2 ^ w : Nat) else (v % 2 ^ w : Nat) - (2 ^ w : Int)

def numOfInt (i : Int) (e : Int) : Num := .fin (i < 0) i.natAbs e

/-- FP32 code values of the LB4 codes (Table 2.4), and 2^(1/2) for the step past code 7 (R57). -/
def lb4Code : Nat → Nat
  | 0 => 0
  | 1 => 0x3E000000
  | 2 => 0x3E3504F3
  | 3 => 0x3E800000
  | 4 => 0x3EB504F3
  | 5 => 0x3F000000
  | 6 => 0x3F3504F3
  | 7 => 0x3F800000
  | _ => 0x3FB504F3

def negNum : Num → Num
  | .nan => .nan
  | .inf n => .inf (!n)
  | .fin n m e => .fin (!n) m e

/-- An LB4 element as its FP32 code value (R47): 0b1000 reads as zero. -/
def decodeLb4 (c : Nat) : Num :=
  let v := decodeFp fp32 (lb4Code (c % 8))
  if c % 8 = 0 then .fin false 0 0 else if bit c 3 then negNum v else v

/-- An element of any format, before its block scale (R44, R45, R47). -/
def decodeElem (f c : Nat) : Num :=
  match fpOf f with
  | some ff => decodeFp ff (c % 2 ^ fmtBits f)
  | none =>
    if f = 12 then decodeLb4 c
    else if f = 10 then numOfInt (toSigned 8 c) (-6)
    else if f = 11 then numOfInt (toSigned 8 c) 0
    else numOfInt (toSigned 32 c) 0

/-- Apply an E8M0 scale byte: 0xFF makes the element NaN (R46). -/
def scaleNum (x : Nat) (n : Num) : Num :=
  if x = 255 then .nan
  else match n with
    | .fin s m e => .fin s m (e + x - 127)
    | n => n

/-- An exact value as a signed multiple of 2^e. -/
def numSigned (neg : Bool) (m : Nat) : Int := if neg then -(m : Int) else m

/-- Exact sum; a zero sum of opposite signs is +0, of two −0 is −0 (IEEE 754 for every mode used here). -/
def addNum : Num → Num → Num
  | .nan, _ => .nan
  | _, .nan => .nan
  | .inf a, .inf b => if a = b then .inf a else .nan
  | .inf a, _ => .inf a
  | _, .inf b => .inf b
  | .fin a m e, .fin b n g =>
    let q := min e g
    let i := numSigned a m * 2 ^ (e - q).toNat + numSigned b n * 2 ^ (g - q).toNat
    if i = 0 then .fin (a && b) 0 q else .fin (i < 0) i.natAbs q

/-- Exact product. -/
def mulNum : Num → Num → Num
  | .nan, _ => .nan
  | _, .nan => .nan
  | .inf a, .inf b => .inf (a ^^ b)
  | .inf a, .fin b n _ => if n = 0 then .nan else .inf (a ^^ b)
  | .fin a m _, .inf b => if m = 0 then .nan else .inf (a ^^ b)
  | .fin a m e, .fin b n g => .fin (a ^^ b) (m * n) (e + g)

/-- Order of two finite or infinite values: a < b, with −0 < +0 (R68). -/
def ltNum : Num → Num → Bool
  | .inf a, .inf b => a && !b
  | .inf a, _ => a
  | _, .inf b => !b
  | .fin a m e, .fin b n g =>
    let q := min e g
    let x := numSigned a m * 2 ^ (e - q).toNat
    let y := numSigned b n * 2 ^ (g - q).toNat
    if x = 0 && y = 0 then a && !b else x < y
  | _, _ => false

/-- NaN-propagating maximum and minimum. -/
def maxNum (x y : Num) : Num := if x = .nan || y = .nan then .nan else if ltNum x y then y else x
def minNum (x y : Num) : Num := if x = .nan || y = .nan then .nan else if ltNum y x then y else x

/-- Integer square root, bit by bit: the largest r < 2^k with r² ≤ n. -/
def isqrt (n : Nat) : Nat → Nat → Nat
  | 0, r => r
  | k + 1, r => let t := r + 2 ^ k; isqrt n k (if t * t ≤ n then t else r)

/-- The square root of m · 2^e with enough bits that rounding it once to FP32 is right; the lowest bit is sticky. -/
def sqrtExact (m : Nat) (e : Int) : Nat × Int :=
  let odd := e % 2 ≠ 0
  let m := if odd then 2 * m else m
  let e := if odd then e - 1 else e
  let k : Nat := 60
  let n := m * 2 ^ (2 * k)
  let r := isqrt n ((Nat.log2 n) / 2 + 1) 0
  (2 * r + (if r * r = n then 0 else 1), e / 2 - k - 1)

/-- The quotient a / b of two values with enough bits; the lowest bit is sticky (b ≠ 0). -/
def divExact (a b : Nat) (ea eb : Int) : Nat × Int :=
  let k := 64 + Nat.log2 b
  let n := a * 2 ^ k
  (2 * (n / b) + (if n % b = 0 then 0 else 1), ea - eb - k - 1)

/-- Operand pairs MMA permits, with pmin and the scale window W (Table 2.5); none where the pair is not permitted. The FP32 path
(BF16, FP16) has no window. -/
def pairWindow (fa fb : Nat) : Option (Int × Nat) :=
  let fp8 := fun f => f = 3 || f = 4
  let mx8 := fun f => f = 5 || f = 6
  if (fa = 1 && fb = 1) || (fa = 2 && fb = 2) then some (0, 0)
  else if (fp8 fa && fp8 fb) || (mx8 fa && mx8 fb) then
    let n5 := (if fa = 4 || fa = 6 then 1 else 0) + (if fb = 4 || fb = 6 then 1 else 0)
    if n5 = 0 then some (-18, 47) else if n5 = 1 then some (-25, 33) else some (-32, 19)
  else if (fa = 7 || fa = 8) && (fb = 7 || fb = 8) then
    if fa = 7 && fb = 7 then some (-6, 71) else if fa = 8 && fb = 8 then some (-8, 65) else some (-7, 68)
  else if fa = 9 && fb = 9 then some (-2, 75)
  else if fa = 11 && fb = 11 then some (0, 68)
  else if fa = 10 && fb = 10 then some (-12, 68)
  else if fa = 12 && fb = 12 then some (-6, 28)
  else none

/-- The dense positions a 2:4 metadata code keeps; none for codes 6 to 15 (R62). -/
def metaPos : Nat → Option (Nat × Nat)
  | 0 => some (0, 1)
  | 1 => some (0, 2)
  | 2 => some (0, 3)
  | 3 => some (1, 2)
  | 4 => some (1, 3)
  | 5 => some (2, 3)
  | _ => none

end Sys2Proof.Machine
end

