-- ==== Sys2Proof/Machine/Flags.lean ====
section
/-! DEFINITION. Rounding, overflow and CELL_FLAGS (02 R56 to R61): converting exact values to every destination format, with the flags
each conversion sets. -/

namespace Sys2Proof.Machine

/-- Bits of CELL_FLAGS (Table 2.19). -/
def flAccInexact : Nat := 1
def flOvfSat : Nat := 2
def flOvfInf : Nat := 4
def flNanOut : Nat := 8
def flUnderflow : Nat := 16
def flIntSat : Nat := 32
def flScaleClamp : Nat := 64

/-- Rounding modes (R56); SR carries its draw (R57). -/
inductive RMode where
  | rne | rtz | sr (draw : Nat)
deriving DecidableEq, Repr

/-- Overflow modes (R56). -/
inductive OMode where
  | sat | inf
deriving DecidableEq, Repr

/-- m · 2^e rounded to a multiple of 2^q, as that multiple. SR rounds up when the draw is below the 16 bits under the
last place (R57). -/
def rquant (mode : RMode) (m : Nat) (e q : Int) : Nat :=
  if q ≤ e then m * 2 ^ (e - q).toNat
  else
    let sh := (q - e).toNat
    let n := m / 2 ^ sh
    let rem := m % 2 ^ sh
    let up := match mode with
      | .rne => decide (2 * rem > 2 ^ sh) || (decide (2 * rem = 2 ^ sh) && n % 2 = 1)
      | .rtz => false
      | .sr r => decide (r < 65536 * rem / 2 ^ sh)
    if up then n + 1 else n

/-- Is n · 2^q above k · 2^l? -/
def magGt (n : Nat) (q : Int) (k : Nat) (l : Int) : Bool :=
  let b := min q l
  n * 2 ^ (q - b).toNat > k * 2 ^ (l - b).toNat

/-- The largest finite magnitude of a format. -/
def maxMag (f : FpFmt) : Nat × Int :=
  (2 ^ f.mb + f.maxCode % 2 ^ f.mb, (f.maxCode / 2 ^ f.mb : Nat) - (f.bias : Int) - f.mb)

/-- The magnitude code of n · 2^q, where n has at most mb + 2 bits and q is at least the subnormal step. -/
def encodeMag (f : FpFmt) (n : Nat) (q : Int) : Nat :=
  if n < 2 ^ f.mb then n
  else
    let k := Nat.log2 n - f.mb
    let field := (q + k + f.mb + f.bias).toNat
    field * 2 ^ f.mb + (n / 2 ^ k - 2 ^ f.mb)

/-- Outcome of an overflow (Table 2.6): magnitude code and flags; RTZ never makes an infinity or a NaN (R58). -/
def overflowTo (f : FpFmt) (rtz : Bool) (o : OMode) (neg : Bool) : Nat × Nat :=
  let sgn := if neg then 2 ^ (f.eb + f.mb) else 0
  if o = .sat || rtz then (sgn + f.maxCode, flOvfSat)
  else match f.infCode, f.nanCode with
    | some i, _ => (sgn + i, flOvfInf)
    | none, some n => (n, flOvfInf + flNanOut)
    | none, none => (sgn + f.maxCode, flOvfSat)

/-- Convert an exact value to a floating-point format: code and flags (R44, R58, R59). A NaN into a format without one is 0 here;
the block rules of R59 stand with the block writers. -/
def toFp (f : FpFmt) (mode : RMode) (o : OMode) : Num → Nat × Nat
  | .nan => match f.nanCode with
    | some n => (n, flNanOut)
    | none => (0, flNanOut)
  | .inf neg => match f.infCode with
    | some i => ((if neg then 2 ^ (f.eb + f.mb) else 0) + i, 0)
    | none => overflowTo f false o neg
  | .fin neg m e =>
    let sgn := if neg then 2 ^ (f.eb + f.mb) else 0
    if m = 0 then (sgn, 0)
    else
      let q := max ((Nat.log2 m : Int) + e - f.mb) (1 - (f.bias : Int) - f.mb)
      let n := rquant mode m e q
      let mx := maxMag f
      if magGt n q mx.1 mx.2 then overflowTo f (mode = .rtz) o neg
      else if n = 0 then (sgn, flUnderflow)
      else (sgn + encodeMag f n q, 0)

/-- Convert to a two's complement integer of w bits (R58, R59): clamped with INT_SAT, NaN is 0. -/
def toInt (w : Nat) (mode : RMode) : Num → Nat × Nat
  | .nan => (0, flNanOut)
  | .inf neg => ((if neg then 2 ^ (w - 1) else 2 ^ (w - 1) - 1), flIntSat)
  | .fin neg m e =>
    let n := rquant mode m e 0
    let fl := if n = 0 && m ≠ 0 then flUnderflow else 0
    if neg then (if n > 2 ^ (w - 1) then (2 ^ (w - 1), flIntSat) else ((2 ^ w - n) % 2 ^ w, fl))
    else if n > 2 ^ (w - 1) - 1 then (2 ^ (w - 1) - 1, flIntSat) else (n, fl)

/-- Convert to an unscaled destination format (Table 2.13, CVT and vector outputs). -/
def toFmt (f : Nat) (mode : RMode) (o : OMode) (n : Num) : Nat × Nat :=
  match fpOf f with
  | some ff => toFp ff mode o n
  | none => if f = 11 then toInt 8 mode n else toInt 32 mode n

/-- An FP32 code rounded to nearest-even with the overflow mode. -/
def toFp32 (o : OMode) (n : Num) : Nat × Nat := toFp fp32 .rne o n

/-! ## LB4 rounding (R57, R61) -/

/-- u ≥ 2^(k/4) for u = m · 2^e: compare fourth powers. -/
def geQuarter (m : Nat) (e k : Int) : Bool :=
  let l := 4 * e
  let b := min l k
  m ^ 4 * 2 ^ (l - b).toNat ≥ 2 ^ (k - b).toNat

/-- u > 2^(k/4). -/
def gtQuarter (m : Nat) (e k : Int) : Bool :=
  let l := 4 * e
  let b := min l k
  m ^ 4 * 2 ^ (l - b).toNat > 2 ^ (k - b).toNat

/-- Round u = m · 2^e (m ≠ 0) to an LB4 code and whether it overflowed. -/
def lb4Round (mode : RMode) (m : Nat) (e : Int) : Nat × Bool :=
  match mode with
  | .rne =>
    -- boundaries 2^((c - 7)/2 + 1/4) between c and c + 1; 2^-4 between 0 and 1, on which u rounds to 0
    if !gtQuarter m e (-16) then (0, false)
    else
      let c := 1 + ((List.range 6).filter (fun j => geQuarter m e (2 * ((j : Int) + 1 - 7) + 1))).length
      (c, geQuarter m e 1)
  | .rtz => (((List.range 7).filter (fun j => geQuarter m e (2 * ((j : Int) + 1 - 7)))).length, false)
  | .sr r =>
    let u := decodeFp fp32 (toFp fp32 .rne .sat (.fin false m e)).1
    match u with
    | .fin _ um ue =>
      let c := ((List.range 7).filter (fun j => !ltNum u (decodeFp fp32 (lb4Code (j + 1))))).length
      let lo := decodeFp fp32 (lb4Code c)
      let hi := decodeFp fp32 (lb4Code (c + 1))
      let d := decodeFp fp32 (toFp fp32 .rne .sat (addNum (.fin false um ue) (negNum lo))).1
      let w := addNum hi (negNum lo)
      match d, w with
      | .fin _ dm de, .fin _ wm we =>
        let qq := divExact dm wm de we
        match decodeFp fp32 (toFp fp32 .rne .sat (.fin false qq.1 qq.2)).1 with
        | .fin _ fm fe =>
          let f := min (rquant .rtz fm (fe + 16) 0) 65535
          let c' := if r < f then c + 1 else c
          (min c' 7, decide (c' > 7))
        | _ => (c, false)
      | _, _ => (c, false)
    | _ => (7, false)

/-! ## Block destinations of QUANT (R60, Table 2.7) -/

/-- floor(log2 amax) of a finite non-zero value. -/
def floorLog2 (m : Nat) (e : Int) : Int := (Nat.log2 m : Int) + e

/-- ceil(log2 amax). -/
def ceilLog2 (m : Nat) (e : Int) : Int :=
  if m = 2 ^ Nat.log2 m then floorLog2 m e else floorLog2 m e + 1

/-- Exponent the scale takes off, by destination. -/
def scaleOff (fd : Nat) (m : Nat) (e : Int) : Int :=
  if fd = 5 then floorLog2 m e - 8
  else if fd = 6 then floorLog2 m e - 15
  else if fd = 7 then floorLog2 m e - 2
  else if fd = 8 then floorLog2 m e - 4
  else if fd = 9 then floorLog2 m e - 2
  else if fd = 10 then floorLog2 m e
  else ceilLog2 m e

/-- The finite value of largest magnitude in a block. -/
def amaxOf (l : List Num) : Nat × Int :=
  l.foldl (fun a n => match n with
    | .fin _ m e => if magGt m e a.1 a.2 then (m, e) else a
    | _ => a) (0, 0)

/-- The scale byte and flags QUANT computes for a block (SM = 0). -/
def blockScale (fd : Nat) (l : List Num) : Nat × Nat :=
  let a := amaxOf l
  let hasInf := l.any (fun n => n = .inf true || n = .inf false)
  if l.contains .nan || (hasInf && fd ≠ 6) then (255, 0)
  else if a.1 = 0 then (0, 0)
  else
    let x := scaleOff fd a.1 a.2
    if x < -127 then (0, flScaleClamp) else if x > 127 then (254, flScaleClamp) else ((x + 127).toNat, 0)

/-- One element of a block with scale X (not 0xFF): code and flags. Elements saturate (R60). The overflow test of R61 decides for an infinity that
becomes LB4 too. -/
def blockElem (fd x : Nat) (mode : RMode) (n : Num) : Nat × Nat :=
  let scaled : Num := match n with
    | .fin s m e => .fin s m (e + 127 - x)
    | n => n
  match fpOf fd with
  | some ff => toFp ff mode .sat scaled
  | none =>
    match scaled with
    | .fin neg m e =>
      if fd = 10 then
        let k := rquant mode m e (-6)
        if k > 127 then ((if neg then 129 else 127), flOvfSat)
        else ((if neg then (256 - k) % 256 else k), if k = 0 && m ≠ 0 then flUnderflow else 0)
      else if m = 0 then (0, 0)
      else
        let c := lb4Round mode m e
        if c.1 = 0 then (0, flUnderflow)
        else (c.1 + (if neg then 8 else 0), if c.2 then flOvfSat else 0)
    | .inf neg =>
      if fd = 10 then ((if neg then 129 else 127), flOvfSat)
      else ((if neg then 15 else 7), match mode with
        | .rne => flOvfSat
        | .rtz => 0
        | .sr r => if r < 65535 then flOvfSat else 0)
    | .nan => (0, flNanOut)

/-- The default rounding and overflow modes of a KERNEL (Table 3.4), and an instruction's RND and OVF fields (R56). -/
def rndField (drnd f : Nat) : Nat := if f = 0 then (if drnd ≤ 1 then 1 else drnd) else f

def ovfMode (dovf f : Nat) : OMode :=
  if f = 1 then .sat else if f = 2 then .inf else if dovf = 2 then .inf else .sat

end Sys2Proof.Machine
end

