-- ==== Sys2Proof/Machine/Ceil.lean ====
section
/-! DEFINITION. Ceilings of a compute die's clock and its issue duty (11 R342 to R344). -/

namespace Sys2Proof.Machine

/-- No ceiling binds. -/
def cdInit : CdClk := { cap := 1500, capD := 15, therm := 1500, thermD := 15, rise := 15, region := 1500, surge := 1500 }
def cdKey (h : Half) (q : Nat) : Nat := 4 * halfNo h + q
def State.cd (s : State) (h : Half) (q : Nat) : CdClk := mget cdInit s.cdclk (cdKey h q)
def State.fmaxOf (s : State) (h : Half) : Nat := s.getF (.clk h) R.clk.FMAX_MHZ

/-- The lowest ceiling of a die. -/
def State.ceilOf (s : State) (h : Half) (q : Nat) : Nat :=
  let x := s.cd h q
  min (s.fmaxOf h) (min (min x.cap x.therm) (min x.region x.surge))

/-- Show a die's ceilings; a lowered ceiling takes the clock down at once. -/
def State.showClock (s : State) (h : Half) (q : Nat) : State :=
  let x := s.cd h q
  let f := s.fmaxOf h
  let b := fun (c n : Nat) => if c < f then n else 0
  s.setFs (.clk h) [(R.clk.CEIL_LIMIT.ix q, b x.cap 1 + b x.therm 2 + b x.region 4 + b x.surge 8),
    (R.clk.CEIL_DUTY.ix q, min (min x.capD x.thermD) x.rise), (R.clk.CEIL_MHZ.ix q, min (s.getF (.clk h) (R.clk.CEIL_MHZ.ix q)) (s.ceilOf h q))]

def State.setCd (s : State) (h : Half) (q : Nat) (x : CdClk) : State :=
  ({ s with cdclk := mset cdInit s.cdclk (cdKey h q) x }).showClock h q

/-- A part runs on compute die q. -/
def State.dieBusy (s : State) (h : Half) (q : Nat) : Bool :=
  s.cells.any (fun e => e.1 / 72 = cdKey h q && e.2.ctx.isSome)

/-- Cells of a die start from idle: its issue duty starts at 1/16 (R344). -/
def State.rampDuty (s : State) (h : Half) (q : Nat) : State :=
  if s.dieBusy h q then s else s.setCd h q { s.cd h q with rise := 0 }

end Sys2Proof.Machine
end

