-- ==== Sys2Proof/Machine/QState.lean ====
section
/-! DEFINITION. Queues and their descriptors in flight as data (03 R84, R102, Table 3.18). -/

namespace Sys2Proof.Machine

/-- A queue after its half's reset: DISABLED. -/
def qInit : QueueSt :=
  { st := 0
    ctx := { dring := 0, cring := 0, dlog := 0, clog := 0, dsp := 0, csp := 0, prio := 0, weight := 0, cont := false, vec := 0,
             vecFn := 0, waitTmo := 0, kernTmo := 0 }
    tail := 0, cons := 0, next := 0, fly := [], fin := [], ci := 0, credit := 0, aged := false, haltDue := false, bad11 := [] }

def qKey (h : Half) (q : Nat) : Nat := 512 * halfNo h + q

def State.queue (s : State) (h : Half) (q : Nat) : QueueSt := mget qInit s.queues (qKey h q)

def State.setQueue (s : State) (h : Half) (q : Nat) (x : QueueSt) : State :=
  { s with queues := mset qInit s.queues (qKey h q) x }

/-- Codes of Table 3.13 and of Table 3.2. -/
def qDISABLED : Nat := 0
def qACTIVE : Nat := 1
def qPAUSING : Nat := 2
def qPAUSED : Nat := 3
def qDRAINING : Nat := 4
def qHALTED : Nat := 5

def dKERNEL : Nat := 1
def dCOPY : Nat := 2
def dFILL : Nat := 3
def dCOLL : Nat := 4
def dFENCE : Nat := 5
def dSIGNAL : Nat := 6
def dWAIT : Nat := 7
def dEVENT : Nat := 8

def Desc.type (d : Desc) : Nat := bits d.raw 7 0

/-- Show a queue in its Q_DB register (Table 3.18). -/
def State.showQ (s : State) (h : Half) (q : Nat) : State :=
  let x := s.queue h q
  s.setFs (.seq h) [(R.seq.Q_DB_R_STATE.ix q, x.st), (R.seq.Q_DB_R_CONS.ix q, x.cons)]

/-- Move a queue to a state. -/
def State.qState (s : State) (h : Half) (q st : Nat) : State :=
  (s.setQueue h q { s.queue h q with st := st }).showQ h q

/-- Change one descriptor in flight. -/
def State.updDesc (s : State) (h : Half) (q slot : Nat) (f : Desc → Desc) : State :=
  let x := s.queue h q
  s.setQueue h q { x with fly := x.fly.map (fun d => if d.slot = slot then f d else d) }

def State.desc (s : State) (h : Half) (q slot : Nat) : Option Desc := (s.queue h q).fly.find? (fun d => d.slot = slot)

/-- Give a descriptor its status; the first one stays. -/
def Desc.finish (status detail info : Nat) (d : Desc) : Desc :=
  if d.done then d else { d with done := true, status := status, detail := detail, info := info }

end Sys2Proof.Machine
end

