-- ==== Sys2Proof/Machine/Cell.lean ====
section
/-! DEFINITION. Cells (02): cell store, tokens, units, the issue of an instruction with its checks, errors of a program, and
completion. -/

namespace Sys2Proof.Machine

/-- A cell as it is before any part has run. -/
def cellInit : CellSt :=
  { sregs := [], cs := [], gen := 1, pool := 0, left := 0, me0 := [], me1 := [], vu := [], lsu := [], loops := [],
    pc := 0, ctx := none, ended := none, wait := none, last := none, retire := false, swap := false }

def cellKey (h : Half) (c : Nat) : Nat := 288 * halfNo h + c

def cellPage (h : Half) (c : Nat) : Page := .cell h (Fin.ofNat 288 c)

def State.cell (s : State) (h : Half) (c : Nat) : CellSt := mget cellInit s.cells (cellKey h c)

def State.setCell (s : State) (h : Half) (c : Nat) (x : CellSt) : State :=
  { s with cells := mset cellInit s.cells (cellKey h c) x }

/-- Scalar register i; S0 reads 0 (R41). -/
def sreg (x : CellSt) (i : Nat) : Nat := if i = 0 then 0 else (mget (0 : DWord) x.sregs i).toNat

/-- Write a scalar register; writes to S0 are ignored. -/
def putSreg (x : CellSt) (i v : Nat) : CellSt :=
  if i = 0 then x else { x with sregs := mset 0 x.sregs i (BitVec.ofNat 64 v) }

def unitQ (x : CellSt) : CUnit → List InFl
  | .me0 => x.me0
  | .me1 => x.me1
  | .vu => x.vu
  | .lsu => x.lsu

def setUnitQ (x : CellSt) (u : CUnit) (l : List InFl) : CellSt :=
  match u with
  | .me0 => { x with me0 := l }
  | .me1 => { x with me1 := l }
  | .vu => { x with vu := l }
  | .lsu => { x with lsu := l }

def allUnits : List CUnit := [.me0, .me1, .vu, .lsu]

/-- Every unit is idle. -/
def unitsIdle (x : CellSt) : Bool := allUnits.all (fun u => (unitQ x u).isEmpty)

/-- The value the youngest entry of a queue will write to line l. -/
def pendLine (q : List InFl) (l : Nat) : Option Line :=
  q.foldl (fun a e => if mhas e.lines l then some (mget 0 e.lines l) else a) none

/-- Line l as an instruction of unit u sees it (R66, R79): its own unit's earlier writes; a line that another unit has in
flight is wholly old or wholly new, freely. -/
def lineSeen (x : CellSt) (u : Option CUnit) (stamp l : Nat) : Line :=
  let old := mget (0 : Line) x.cs l
  let own := match u with
    | some u => pendLine (unitQ x u) l
    | none => none
  match own with
  | some v => v
  | none =>
    let others := (allUnits.filter (fun v => u ≠ some v)).filterMap (fun v => pendLine (unitQ x v) l)
    match others with
    | [] => old
    | v :: _ => if (Config.freeAt stamp l).toNat % 2 = 0 then old else v

/-- n bytes of cell store from a line. -/
def csBytes (x : CellSt) (u : Option CUnit) (stamp line n : Nat) : List Byte :=
  ((List.range ((n + 63) / 64)).flatMap (fun i => bytesOf 64 (lineSeen x u stamp (line + i)).toNat)).take n

/-- The lines a string of bytes covers from a line; the rest of a last line in part keeps what the unit sees there. -/
def csLines (x : CellSt) (u : Option CUnit) (stamp line : Nat) (b : List Byte) : List (Nat × Line) :=
  (List.range ((b.length + 63) / 64)).map fun i =>
    let part := (b.drop (64 * i)).take 64
    let rest := (bytesOf 64 (lineSeen x u stamp (line + i)).toNat).drop part.length
    (line + i, BitVec.ofNat 512 (natOf (part ++ rest)))

/-- Element i of a flat array in a format (R46, R72). -/
def elemAt (f : Nat) (b : List Byte) (i : Nat) : Nat :=
  let cb := chunkBytes f
  bits (natOf ((b.drop (i / 32 * cb)).take cb)) (fmtBits f * (i % 32) + fmtBits f - 1) (fmtBits f * (i % 32))

/-- Lines of n bytes. -/
def linesFor (n : Nat) : Nat := (n + 63) / 64

/-- First line of a cell-store operand (R67). -/
def csOperand (x : CellSt) (v : Nat) : Nat := (sreg x (v / 2 ^ 16) + v % 2 ^ 16) % 65536

/-- Two extents share a line. -/
def overlap (a n b m : Nat) : Bool := decide (a < b + m) && decide (b < a + n) && decide (0 < n) && decide (0 < m)

/-- Overlap that R73 forbids between a destination and a source extent: any, unless the extents are equal. -/
def badOverlap (d n s m : Nat) : Bool := overlap d n s m && !(d = s && n = m)

/-! ## Stochastic rounding draws (R57) -/

/-- The generator's seed of a part. -/
def srSeed (seed : Nat) (h : Half) (lid : Nat) : DWord :=
  let v := BitVec.ofNat 64 seed ^^^ BitVec.ofNat 64 ((halfNo h * 256 + lid + 1) * 0x9E3779B97F4A7C15)
  if v = 0 then 1 else v

/-- One step of the generator. -/
def srStep (g : DWord) : DWord :=
  let g := g ^^^ (g <<< 13)
  let g := g ^^^ (g >>> 7)
  g ^^^ (g <<< 17)

/-- State, pool and draws left. -/
abbrev Gen := DWord × DWord × Nat

def nextDraw (g : Gen) : Nat × Gen :=
  let g := if g.2.2 = 0 then let n := srStep g.1; (n, n, 4) else g
  (g.2.1.toNat % 65536, (g.1, g.2.1 >>> 16, g.2.2 - 1))

def genOf (x : CellSt) : Gen := (x.gen, x.pool, x.left)

def setGen (x : CellSt) (g : Gen) : CellSt := { x with gen := g.1, pool := g.2.1, left := g.2.2 }

/-- The rounding mode of one element: SR takes a draw. 1 RNE, 2 RTZ, 3 SR. -/
def elemMode (m : Nat) (g : Gen) : RMode × Gen :=
  if m = 3 then let d := nextDraw g; (.sr d.1, d.2) else (if m = 2 then .rtz else .rne, g)

/-- Convert elements in order, each with its mode: codes, flags, generator. -/
def convAll (m : Nat) (f : RMode → Num → Nat × Nat) : List Num → Gen → List Nat × Nat × Gen
  | [], g => ([], 0, g)
  | n :: t, g =>
    let e := elemMode m g
    let c := f e.1 n
    let r := convAll m f t e.2
    (c.1 :: r.1, c.2 ||| r.2.1, r.2.2)

/-- Codes as bytes, a chunk of 32 at a time (R46). -/
def packChunk (f : Nat) (l : List Nat) : List Byte :=
  bytesOf (chunkBytes f) (l.reverse.foldl (fun a c => a * 2 ^ fmtBits f + c % 2 ^ fmtBits f) 0)

def packAll (f : Nat) : Nat → List Nat → List Byte
  | 0, _ => []
  | n + 1, l => packChunk f (l.take 32) ++ packAll f n (l.drop 32)

/-! ## Issue -/

/-- What an instruction is issued with: where, its 128 bits, its index, the cell and the kernel's context, a stamp for free
choices, and what the hardware met. -/
structure Iss where
  h : Half
  c : Nat
  w : Nat
  pc : Nat
  x : CellSt
  k : KCtx
  stamp : Nat
  e : HwEvent
deriving DecidableEq, Repr

/-- Opcodes of Table 2.11. -/
def knownOps : List Nat :=
  [0x00, 0x01, 0x04, 0x05, 0x06, 0x07, 0x08, 0x09, 0x10, 0x11, 0x12, 0x13, 0x14, 0x15, 0x16, 0x17, 0x18, 0x1C, 0x1D, 0x20,
    0x28, 0x29, 0x2A, 0x2B, 0x2C, 0x30, 0x31, 0x33, 0x38, 0x39, 0x3A]

/-- Scalar-class opcodes. -/
def isScalar (op : Nat) : Bool := op = 0 || 0x28 ≤ op

/-- The unit an opcode goes to; none for scalar-class instructions and PREFETCH, which completes at issue (R66, R68). -/
def unitOf (op w : Nat) : Option CUnit :=
  if op = 1 then some (if bit w 17 then .me1 else .me0)
  else if op = 4 || op = 5 || op = 6 || op = 7 || op = 8 || op = 9 then some .lsu
  else if 0x10 ≤ op && op ≤ 0x20 then some .vu
  else none

/-- BLK_STS.BUSY of a cell follows its units. -/
def State.showBusy (s : State) (h : Half) (c : Nat) : State :=
  let x := s.cell h c
  let b := fun (l : List InFl) (n : Nat) => if l.isEmpty then 0 else n
  s.setF (cellPage h c) R.cell.BLK_STS_BUSY (b x.me0 1 + b x.me1 2 + b x.vu 4 + b x.lsu 8)

/-- The instruction after npc - 1: at the end of a loop body the loop repeats, or is left (R71). -/
def nextOf : List LoopLvl → Nat → List LoopLvl × Nat
  | [], n => ([], n)
  | l :: t, n =>
    if n = l.stop then
      if l.left > 1 then ({ l with left := l.left - 1, iter := l.iter + 1 } :: t, l.first) else nextOf t n
    else (l :: t, n)

/-- The PC register shows the instruction issued; the next one follows. -/
def State.issued (s : State) (i : Iss) (x : CellSt) (npc : Nat) : State :=
  let n := nextOf x.loops npc
  (s.setCell i.h i.c { x with loops := n.1, pc := n.2 }).setF (cellPage i.h i.c) R.cell.PC i.pc

/-- Status of a cause (Table 2.15), and the ERR_STS bit it sets. -/
def causeStatus (c : Nat) : Nat :=
  if c ≤ 8 then 2 else if c = 9 || c = 0xB then 3 else if c = 0xA then 7 else 6

def causeBit (c : Nat) : Nat := if c ≤ 8 then 8 else if c ≤ 0xB then 13 else if c = 0xC then 10 else 11

/-- The logical ID a physical cell holds. -/
def State.logicalId (s : State) (h : Half) (c : Nat) : Nat := s.getF (cellPage h c) R.cell.CELL_ID_LOGICAL_ID

/-- Aborted instructions leave undefined data at their destinations: free bytes (R74). -/
def State.abortUnits (s : State) (h : Half) (c : Nat) : State :=
  let x := s.cell h c
  let es := allUnits.flatMap (fun u => unitQ x u)
  let st := s.fresh
  let cs := es.foldl (fun cs e => e.lines.foldl (fun cs l =>
    mset (0 : Line) cs l.1 (BitVec.ofNat 512 (natOf ((List.range 64).map (fun i => Config.freeAt st (64 * l.1 + i)))))) cs) x.cs
  let s := es.foldl (fun s e => e.stores.foldl (fun s p =>
    s.memWrite h .cell e.hint p.1 ((List.range p.2.length).map (fun i => Config.freeAt (st + 1) (p.1 + i)))) s) s
  let x := { x with cs := cs, me0 := [], me1 := [], vu := [], lsu := [] }
  ((s.setCell h c x).drawn 2).showBusy h c

/-- Spares of a cell's die: cells in state GATED. -/
def State.spares (s : State) (h : Half) (q : Nat) : List Nat :=
  (List.range 72).filterMap (fun k =>
    if s.getF (cellPage h (72 * q + k)) R.cell.BLK_STS_STATE = 0 then some (72 * q + k) else none)

/-- Cost class of a cell's fixed-fatal error: a spare takes over, or capacity is lost (14 Table 14.2). -/
def State.faultCost (s : State) (h : Half) (c : Nat) : Nat := if (s.spares h (c / 72)).isEmpty then 3 else 4

/-- A fixed-fatal injection that meets a genuine error of its kind: an event of its own (01 R35). -/
def State.injFatal (s : State) (h : Half) (c cause : Nat) : State :=
  let p := cellPage h c
  if s.armed p (causeBit cause) then
    (s.disarm p).err p (causeBit cause)
      { cost := s.faultCost h c, status := 6, detail := cause, inj := true,
        info := bytesOf 1 (s.logicalId h c) ++ bytesOf 1 cause ++ bytesOf 3 (s.getF p R.cell.PC) }
  else s

/-- A part of a running kernel has failed: the first failure gives the kernel its status, cause and FCELL (03 R92, R100). -/
def State.noteFail (s : State) (h : Half) (k : KCtx) (st cause lid : Nat) : State :=
  if st = 0 then s
  else s.updDesc h k.q k.slot (fun d =>
    if d.done || d.status ≠ 0 then d else { d with status := st, detail := cause, fcell := lid })

/-- A cell's swap is due: it takes its place in the order of its die (R79). -/
def State.queueSwap (s : State) (h : Half) (c : Nat) : State :=
  if s.swaps.contains (cellKey h c) then s else { s with swaps := s.swaps ++ [cellKey h c] }

/-- An error of a program (R74): ERR_INFO takes the first error's cause and PC, in-flight instructions are aborted, the part
ends with the cause's status; a fixed-fatal cause makes the swap due (R76). -/
def State.progError (s : State) (h : Half) (c cause pc : Nat) (inj : Bool := false) : State :=
  let p := cellPage h c
  let held := s.getF p R.cell.ERR_INFO_CAUSE
  let keep := held ≠ 0 && bit (s.getF p R.hdr.ERR_STS) (causeBit held)
  let s := if keep then s else s.setFs p [(R.cell.ERR_INFO_CAUSE, cause), (R.cell.ERR_INFO_PC, pc)]
  let x := s.cell h c
  let fatal := cause = 0xC || cause = 0xD
  let cost := if fatal then s.faultCost h c else 0
  let s := s.err p (causeBit cause)
    { cost := cost, status := (if x.ctx.isSome then causeStatus cause else 0), detail := cause, inj := inj,
      parts := (match x.ctx with | some k => 2 ^ k.part | none => 0),
      info := bytesOf 1 (s.logicalId h c) ++ bytesOf 1 cause ++ bytesOf 3 pc }
  let s := s.abortUnits h c
  let s := if fatal then s.queueSwap h c else s
  let x := s.cell h c
  let x := { x with swap := x.swap || fatal, wait := none }
  match x.ctx, x.ended with
  | some k, none =>
    ((s.setCell h c { x with ended := some (causeStatus cause, cause) }).setF p R.cell.BLK_STS_STATE 4).noteFail h k (causeStatus cause) cause
      (s.logicalId h c)
  | _, _ => s.setCell h c x

/-- A memory address outside the partition: cause 0x09, with WIN_DENY on the cell's half (04 R119). -/
def State.cellDeny (s : State) (i : Iss) (a : Nat) : State := (s.winDeny i.h i.k.part a 9).progError i.h i.c 9 i.pc

/-- The lowest of the causes met. -/
def lowest (l : List Nat) : Option Nat :=
  l.foldl (fun a c => match a with
    | none => some c
    | some b => some (min b c)) none

/-- Causes as a list from conditions. -/
def causes (l : List (Bool × Nat)) : List Nat := (l.filter (·.1)).map (·.2)

/-- Go on with an instruction that met no error, else end the program with its lowest cause, whatever status each cause has (R74's last words on
one instruction, not its order of statuses: DEDUCED, assumption 74). -/
def Iss.guard (i : Iss) (cs : List Nat) (ok : State → State) (s : State) : State :=
  match lowest cs with
  | some c => s.progError i.h i.c c i.pc
  | none => ok s

/-- Token and unit of an issued instruction: its token is cleared, its entry queued (R66). -/
def State.enqueue (s : State) (i : Iss) (u : CUnit) (x : CellSt) (e : InFl) : State :=
  let p := cellPage i.h i.c
  let tok := if bit i.w 105 then some (bits i.w 104 101) else none
  let x := setUnitQ x u (unitQ x u ++ [{ e with tok := tok, pc := i.pc }])
  let s := match tok with
    | some t => s.setF p R.cell.TOKENS_DONE (s.getF p R.cell.TOKENS_DONE &&& (0xFFFF ^^^ 2 ^ t))
    | none => s
  (s.issued i x (i.pc + 1)).showBusy i.h i.c

/-- The destination of an instruction in cell store, or in memory: what is undefined if the instruction fails while it runs (R74). -/
def lineDst (line n : Nat) : InFl :=
  { tok := none, lines := (List.range n).map (fun k => (line + k, 0)), stores := [], hint := 0, load := false }

def memDst (rows : List Nat) (n hint : Nat) : InFl :=
  { tok := none, lines := [], stores := rows.map (fun a => (a, List.replicate n 0)), hint := hint, load := false }

/-- An instruction that has begun meets an error: it is aborted with the others in flight, so its destination is undefined too. -/
def Iss.failRun (i : Iss) (u : CUnit) (d : InFl) (cause : Nat) (inj : Bool) (s : State) : State :=
  (s.enqueue i u i.x d).progError i.h i.c cause i.pc inj

/-- Cell-store errors an instruction that reads cell store meets: the operand's event, or an injection with BIT 9 or 10 (R80). `fail` ends
the program with a cause. -/
def Iss.readCell (i : Iss) (fail : Bool → State → State) (ok : State → State) (s : State) : State :=
  let p := cellPage i.h i.c
  if i.e = .csUE then fail false (s.injFatal i.h i.c 0xC)
  else if s.armed p 10 then fail true (s.disarm p)
  else
    let s := if i.e = .csCE then s.err p 9 else s
    if s.armed p 9 then ok ((s.disarm p).err p 9 { inj := true }) else ok s

/-- The same for an instruction of a unit with a destination. -/
def Iss.readCs (i : Iss) (u : CUnit) (d : InFl) (ok : State → State) (s : State) : State :=
  i.readCell (fun inj s => i.failRun u d 0xC inj s) ok s

/-- Set flags in CELL_FLAGS. -/
def State.cellFlags (s : State) (h : Half) (c fl : Nat) : State :=
  s.setReg (fldAddr (cellPage h c) R.cell.CELL_FLAGS_ACC_INEXACT)
    (s.reg (fldAddr (cellPage h c) R.cell.CELL_FLAGS_ACC_INEXACT) ||| BitVec.ofNat 32 fl)

/-- END, or running past the last instruction: once every unit is idle the part has ended with OK (R68, 03 R87). -/
def State.endNow (s : State) (h : Half) (c : Nat) : State :=
  let x := s.cell h c
  if unitsIdle x then
    (s.setCell h c { x with ended := some (0, 0) }).setF (cellPage h c) R.cell.BLK_STS_STATE 4
  else s

/-- Issue the cell's next instruction where it is one of opcode op: fetch (each fetch checked, 03 R87), opcode, tokens, the unit's
place; a stall (the fetch too is held while its HBM group
trains, 04 R123), or another instruction, leaves the state. -/
def issue (op : Nat) (h : Half) (c : Fin 288) (e : HwEvent) (act : Iss → State → State) (s : State) : State :=
  let p := cellPage h c.val
  let x := s.cell h c.val
  match x.ctx, x.ended, x.wait with
  | some k, none, none =>
    if !(s.answers p && s.getF p R.cell.BLK_STS_STATE = 3) then s
    else if x.pc > k.ninst then (if op = 0x33 then s.endNow h c.val else s)
    else
      let a := k.prog + 16 * x.pc
      let i0 : Iss := ⟨h, c.val, 0, x.pc, x, k, s.fresh, e⟩
      if !s.inWindow h k.part a 16 then s.cellDeny i0 a
      else if s.holds [(a, 16)] then s
      else
        let f := s.memRead h .cell 0 a 16
        if f.2.1 ≠ 0 || e = .fetchUE then f.1.progError h c.val 0xA x.pc
        else
          let w := natOf f.2.2
          let o := bits w 127 122
          let waits := bits w 121 106
          let done := s.getF p R.cell.TOKENS_DONE
          if !knownOps.contains o then f.1.progError h c.val 1 x.pc
          else if o ≠ op then s
          else if waits &&& done ≠ waits then s
          else if !isScalar o && bit w 105 && !bit done (bits w 104 101) then s
          else if (match unitOf o w with | some u => decide ((unitQ x u).length ≥ 8) | none => false) then s
          else act { i0 with w := w, stamp := f.1.fresh } (f.1.drawn 1)
  | _, _, _ => s

/-- INSTRUCTION_COMPLETE: the oldest instruction of a unit completes: unless a stack controller holds one of its accesses
(04 R123): its lines and stores land, its token is done (R66), its passes count. An armed
injection with BIT 13 turns a load into an uncorrectable one (R80). -/
def instructionComplete (h : Half) (c : Fin 288) (u : CUnit) (s : State) : State :=
  let p := cellPage h c.val
  let x := s.cell h c.val
  match unitQ x u with
  | [] => s
  | e :: t =>
    if !s.answers p || s.holds (e.spans ++ e.stores.map (fun p => (p.1, p.2.length))) then s
    else if e.load && s.armed p 13 then (s.disarm p).progError h c.val 0xA e.pc true
    else
      let cs := e.lines.foldl (fun cs l => mset (0 : Line) cs l.1 l.2) x.cs
      let s := s.setCell h c.val (setUnitQ { x with cs := cs } u t)
      let s := e.stores.foldl (fun s p => s.memWrite h .cell e.hint p.1 p.2) s
      let s := match e.tok with
        | some t => s.setF p R.cell.TOKENS_DONE (s.getF p R.cell.TOKENS_DONE ||| 2 ^ t)
        | none => s
      let s := if e.passes = 0 then s
        else s.set64 p R.cell.PASSES_LO R.cell.PASSES_HI (s.get64 p R.cell.PASSES_LO R.cell.PASSES_HI + e.passes)
      s.showBusy h c.val

end Sys2Proof.Machine
end

