-- ==== Sys2Proof/Machine/Sems.lean ====
section
/-! DEFINITION. Semaphores: every agent reaches one through these operations (03 R93 to R95). -/

namespace Sys2Proof.Machine

/-! ## Semaphores -/

/-- The half a semaphore lives in (R93). -/
def semHalf (i : Nat) : Half := if i < 32768 then .A else .B

def State.sem (s : State) (i : Nat) : Nat := (mget (0 : Word) s.sems i).toNat

/-- A WAIT descriptor on semaphore i that value v satisfies completes OK. -/
def wakeDesc (i v : Nat) (d : Desc) : Desc :=
  if d.type = dWAIT && bits d.raw 143 128 = i && decide (bits d.raw 175 144 ≤ v) then d.finish 0 0 v else d

/-- A cell that waits on semaphore i goes on once v satisfies it. -/
def wakeCell (i v : Nat) (x : CellSt) : CellSt :=
  match x.wait with
  | some w =>
    if w.1 = i && decide (w.2 ≤ v) then
      let n := nextOf x.loops (x.pc + 1)
      { x with wait := none, loops := n.1, pc := n.2 }
    else x
  | none => x

/-- Release the waiters of semaphore i (R94). -/
def State.wake (s : State) (i : Nat) : State :=
  let v := s.sem i
  { s with
    queues := s.queues.map (fun e => (e.1, { e.2 with fly := e.2.fly.map (wakeDesc i v) }))
    cells := s.cells.map (fun e => (e.1, wakeCell i v e.2)) }

/-- Set a semaphore, which may release waiters. -/
def State.setSem (s : State) (i v : Nat) : State :=
  if s.halfUp (semHalf i) then ({ s with sems := mset 0 s.sems i (BitVec.ofNat 32 v) }).wake i else s

/-- Add to a semaphore, modulo 2^32. A wrap that lowers the value releases nobody (R94): what holds of every waiter is that
the value it waits for is above the old value, so only a value of at least VAL releases. -/
def State.addSem (s : State) (i a : Nat) : State := s.setSem i (s.sem i + a)

/-- Semaphore i belongs to partition p, as half h's page shows (R95). -/
def State.semIn (s : State) (h : Half) (p i : Nat) : Bool :=
  let u := i / 256
  let f := s.getF (.seq h) (R.seq.PART_SEMS_SEM_FIRST.ix p)
  decide (f ≤ u) && decide (u < f + s.getF (.seq h) (R.seq.PART_SEMS_SEM_CNT.ix p))

/-! ## Shared with the fabric (08) -/

/-- Partition state (R107): 0 UNDEFINED, 1 ACTIVE, 2 TERMINATING, 3 TERMINATED; both pages show it. -/
def State.partState (s : State) (h : Half) (p : Nat) : Nat := s.getF (.seq h) (R.seq.PART_CTL_STATE.ix p)

def State.setPart (s : State) (p st : Nat) : State :=
  foldOver [Half.A, Half.B] (fun h s => s.setF (.seq h) (R.seq.PART_CTL_STATE.ix p) st) s

/-- A host write of a queue is discarded, with one error record for each queue (09 R301). -/
def State.lostWrite (s : State) (q : Option Nat) : State :=
  match q with
  | none => s
  | some k =>
    if s.lostQ.contains k then s
    else ({ s with lostQ := sadd s.lostQ k } : State).fwRecord (.seq (halfOf (k / 512))) false { cost := 4, status := 7 }

/-- Write to host memory; discarded once both ports are lost. -/
def State.hostPut (s : State) (q : Option Nat) (f : Fn) (a : Nat) (b : List Byte) (ro : Bool) : State :=
  match s.carrier f with
  | none => if b.isEmpty then s else s.lostWrite q
  | some _ => s.hostIssue (.write f a b ro q)

/-- Write bytes to a ring in device memory (0) or host memory through a function. -/
def State.ringOut (s : State) (h : Half) (q : Option Nat) (sp a : Nat) (b : List Byte) : State :=
  if sp = 0 then s.memWrite h .dma 0 a b else s.hostPut q (fnOf (sp - 1)) a b false

/-- Completed slots from CONS on. -/
def consRun : Nat → Nat → Nat → List Nat → Nat
  | 0, _, c, _ => c
  | k + 1, m, c, fin => if fin.contains c then consRun k m ((c + 1) % m) fin else c

/-- Order of a status (Table 3.11). -/
def statusOrder (st : Nat) : Nat :=
  match st with
  | 2 => 8 | 3 => 7 | 4 => 10 | 5 => 9 | 6 => 5 | 7 => 6 | 8 => 1 | 9 => 12 | 0xA => 11 | 0xB => 13 | 0xC => 14 | 0xD => 2
  | 0xE => 3 | _ => 99

end Sys2Proof.Machine
end

