-- ==== Sys2Proof/Machine/Ports.lean ====
section
/-! DEFINITION. Fabric ports as data (07): messages as bytes, flits, queues, acknowledgement, replay, flow control. -/

namespace Sys2Proof

/-- Global port number (00 R11). -/
def PortId.no (p : PortId) : Nat := 64 * Machine.halfNo p.half + p.i.val

def PortId.page (p : PortId) : Page := .oport p.half p.i

/-- Its OE. -/
def PortId.oe (p : PortId) : Fin 8 := Fin.ofNat 8 (p.i.val / 8)

end Sys2Proof

namespace Sys2Proof.Machine

def kxInit : KxSt :=
  { st := 0, secret := 0, body := [], msg := [], pchain := [], acked := 0, got := 0, sentSw := false, gotSw := false, cTx := 0, cRx := 0, cntTx := 0,
    cntRx := 0, keyTx := 0, keyRx := 0, nextTx := 0, nextRx := 0 }

def portInit : PortSt :=
  { probing := false, att := [], oma := [], rxOma := [], low := [], cost := [], lostTx := [], lostRx := [], hoRx := none,
    fails := 0, resets := 0, trn := none, trnW := 0, trnRes := none, retrain := false, excl := false, waking := false, token := 0, ptoken := 0, far := false, txReq := [], txRsp := [],
    offReq := 0, offRsp := 0, flits := [], msgs := [], replay := none, rpStart := 0, rpCount := 0, ackOut := 0,
    sinceAck := 0, nakOut := false, nakFor := none, ctl := [], ctlGap := 15, alignGap := 0, alignDue := false,
    lastRsp := true, rxReq := [], rxRsp := [], stale := false, asleep := false, sleepOk := false, xReq := false, xRsp := false,
    sleepFor := false, dropRx := false, crcTx := false, unlock := [], hello := false, kx := kxInit }

def portOf (n : Nat) : PortId := { half := halfOf (n / 64), i := Fin.ofNat 64 n }

def State.port (s : State) (p : PortId) : PortSt := mget portInit s.ports p.no

def State.setPort (s : State) (p : PortId) (x : PortSt) : State := { s with ports := mset portInit s.ports p.no x }

def State.updPort (s : State) (p : PortId) (f : PortSt → PortSt) : State := s.setPort p (f (s.port p))

/-- The members of the bond a port runs in, lowest first; itself where it is in none or excluded (R216). -/
def State.bondOf (s : State) (p : PortId) : List PortId :=
  match s.bonds.find? (fun b => b.contains p.no) with
  | some b => if (s.port p).excl then [p] else (b.map portOf).filter (fun m => !(s.port m).excl)
  | none => [p]

/-- The lowest member, which carries the link. -/
def State.lead (s : State) (p : PortId) : PortId := (s.bondOf p).headD p

/-- LSTATE (Table 7.10): 0 DOWN, 1 TRAINING, 2 UP, 3 ASLEEP, 4 WAITING. -/
def State.lstate (s : State) (p : PortId) : Nat := s.getF p.page R.oport.LINK_STS_LSTATE

def State.setL (s : State) (p : PortId) (st : Nat) : State := s.setF p.page R.oport.LINK_STS_LSTATE st

def State.linkUp (s : State) (p : PortId) : Bool := s.lstate p = 2

/-! ## Bypass pairs (10 R328) -/

/-- The bypass pairs of the configuration in force, as global ports. -/
def State.bypasses (s : State) : List (Nat × Nat) := (s.cfg.bypass.getD []).take 4

/-- Bit i: both ends of pair i are UP. -/
def State.bypassUp (s : State) : Nat :=
  bitsOf ((List.range 4).filter (fun i =>
    match s.bypasses[i]? with
    | some e => s.linkUp (portOf e.1) && s.linkUp (portOf e.2)
    | none => false))

def State.isBypass (s : State) (p : PortId) : Bool := s.bypasses.any (fun e => e.1 = p.no || e.2 = p.no)

/-- CC_STS.HINGE as it reads: a lost hinge (2) reads bypass (1) while a pair is UP. -/
def State.hingeView (s : State) : Nat :=
  let v := s.getF .ck R.ctrlch.CC_STS_HINGE
  if v = 2 && s.bypassUp ≠ 0 then 1 else v

/-- A link event: an unmasked one writes a non-fatal record of its own kind (R244; 14 Table 14.6). -/
def State.linkEvt (s : State) (p : PortId) (n : Nat) (inj : Bool := false) : State :=
  let f : Fld := { R.oport.LINK_EVT_DOWN with hi := n, lo := n }
  let s := s.setF p.page f 1
  if bit (s.getF p.page R.oport.LINK_EVT_MASK_MASK) n then s
  else
    s.record p.page n 1 false (s.isSet p.page R.hdr.BLK_CTL_ERR_IRQ_EN)
      { cost := if n = 0 then 4 else 0, inj := inj,
        info := bytesOf 2 p.no ++ bytesOf 1 (s.getF p.page R.oport.LINK_STS_CAUSE) }

/-! ## Messages as bytes (08 Tables 8.1, 8.2, 8.14) -/

def reqBytes (m : ReqMsg) : List Byte :=
  bytesOf 24 (m.opc.toNat + m.dfid.toNat * 2 ^ 8 + m.sfid.toNat * 2 ^ 24 + m.tag.toNat * 2 ^ 40 + (if m.once then 2 ^ 55 else 0) +
    m.epoch.toNat * 2 ^ 56 + m.len.toNat * 2 ^ 72 + m.stag.toNat * 2 ^ 80 + m.addr.toNat * 2 ^ 96 + m.fn.toNat * 2 ^ 148 +
    (if m.re then 2 ^ 152 else 0) + m.hops.toNat * 2 ^ 153 + m.rsvd.toNat * 2 ^ 157) ++ m.data

def rspBytes (m : RspMsg) : List Byte :=
  bytesOf 16 (m.opc.toNat + m.dfid.toNat * 2 ^ 8 + m.sfid.toNat * 2 ^ 24 + m.tag.toNat * 2 ^ 40 + (if m.dup then 2 ^ 55 else 0) +
    m.epoch.toNat * 2 ^ 56 + m.len.toNat * 2 ^ 72 + m.status.toNat * 2 ^ 80 + (if m.retry then 2 ^ 88 else 0) +
    m.hops.toNat * 2 ^ 89 + m.rsvd.toNat * 2 ^ 93) ++ m.data

def collBytes (m : CollMsg) : List Byte :=
  bytesOf 24 (m.opc.toNat + m.dfid.toNat * 2 ^ 8 + m.sfid.toNat * 2 ^ 24 + m.swarm.toNat * 2 ^ 40 + m.cseq.toNat * 2 ^ 56 +
    m.step.toNat * 2 ^ 88 + m.offset.toNat * 2 ^ 101 + m.len.toNat * 2 ^ 141 + m.hops.toNat * 2 ^ 149 + m.op.toNat * 2 ^ 153 +
    m.dtype.toNat * 2 ^ 155 + m.rfn.toNat * 2 ^ 159 + m.rsvd.toNat * 2 ^ 161) ++ m.data

def fabBytes : FabMsg → List Byte
  | .req m => reqBytes m
  | .rsp m => rspBytes m
  | .coll m => collBytes m

/-- The message travels on the RSP virtual channel (Table 8.3). -/
def onRsp : FabMsg → Bool
  | .req _ => false
  | .rsp _ => true
  | .coll m => m.opc ≠ 0x20

/-! ## Flits (R211, R212) -/

/-- One byte into a CRC-32C, reflected. -/
def crcBit (c : Nat) : Nat := if c % 2 = 1 then (c / 2) ^^^ 0x82F63B78 else c / 2
def crcByte (c : Nat) (b : Byte) : Nat :=
  let x := c ^^^ b.toNat
  crcBit (crcBit (crcBit (crcBit (crcBit (crcBit (crcBit (crcBit x)))))))
def crc32c (b : List Byte) : Nat := (b.foldl crcByte 0xFFFFFFFF) ^^^ 0xFFFFFFFF

/-- A flit header (Table 7.1). -/
structure FlitHdr where
  seq  : Nat
  ack  : Nat
  nak  : Bool
  kind : Nat
  xReq : Bool
  xRsp : Bool
  enc  : Bool
  plen : Nat
  nmsg : Nat
deriving DecidableEq, Repr

def hdrBytes (x : FlitHdr) : List Byte :=
  let b := fun (v : Bool) (n : Nat) => if v then 2 ^ n else 0
  bytesOf 12 (x.seq % 2 ^ 16 + x.ack % 2 ^ 16 * 2 ^ 16 + b x.nak 32 + x.kind * 2 ^ 33 + b x.xReq 35 + b x.xRsp 36 + b x.enc 37 +
    x.plen % 256 * 2 ^ 38 + x.nmsg * 2 ^ 46)

def hdrOf (b : List Byte) : FlitHdr :=
  let v := natOf (b.take 12)
  { seq := bits v 15 0, ack := bits v 31 16, nak := bit v 32, kind := bits v 34 33, xReq := bit v 35, xRsp := bit v 36,
    enc := bit v 37, plen := bits v 45 38, nmsg := bits v 49 46 }

/-- A flit of a header and a payload; LINK_INJ.CRC_TX inverts the CRC. -/
def flitBytes (x : FlitHdr) (pay : List Byte) (badCrc : Bool) : List Byte :=
  let b := hdrBytes x ++ padTo 240 pay
  let c := crc32c b
  b ++ bytesOf 4 (if badCrc then c ^^^ 0xFFFFFFFF else c)

/-- The flit passes CRC. -/
def flitGood (b : List Byte) : Bool := b.length = 256 && natOf (b.drop 252) = crc32c (b.take 252)

/-! ## Lanes (R213, R219) -/

/-- Seed of a lane's scrambler, and a step of x^58 + x^39 + 1 in the form s(n) = s(n − 39) xor s(n − 58), the new bit being the output (DEDUCED,
assumption 87). -/
def scrSeed (i : Nat) : Nat := 0x3FFFFFFFFFFFF00 + i
def scrStep (x : Nat) : Nat := 2 * x % 2 ^ 58 + (x / 2 ^ 57 + x / 2 ^ 38) % 2

/-- The next n output bits, the first one the least significant, and the state after them. -/
def scrBits : Nat → Nat → Nat × Nat
  | 0, x => (0, x)
  | n + 1, x =>
    let y := scrStep x
    let r := scrBits n y
    (y % 2 + 2 * r.1, r.2)

/-- n steps on. -/
def scrSkip : Nat → Nat → Nat
  | 0, x => x
  | n + 1, x => scrSkip n (scrStep x)

/-- The next n output words. -/
def scrWords : Nat → Nat → List Nat
  | 0, _ => []
  | n + 1, x =>
    let r := scrBits 16 x
    r.1 :: scrWords n r.2

/-- The words that lane i adds to a flit of slot number `slot` since the last ALIGN flit, on w lanes. -/
def scrSlot (w slot i : Nat) : List Nat := scrWords (128 / w) (scrSkip (2048 / w * slot) (scrSeed i))

def wordAt (b : List Byte) (k : Nat) : Nat := natOf ((b.drop (2 * k)).take 2)

/-- A flit on w lanes: word k on lane k mod w, each lane's words in turn, scrambled. -/
def onLanes (w slot : Nat) (flit : List Byte) : List (List Nat) :=
  (List.range w).map (fun i => List.zipWith (· ^^^ ·) ((List.range (128 / w)).map (fun j => wordAt flit (w * j + i))) (scrSlot w slot i))

/-- The flit that w lanes bring. -/
def offLanes (w slot : Nat) (lanes : List (List Nat)) : List Byte :=
  let ls := (List.range w).map (fun i => List.zipWith (· ^^^ ·) (nth [] lanes i) (scrSlot w slot i))
  ((List.range 128).map (fun k => bytesOf 2 (nth 0xFFFF (nth [] ls (k % w)) (k / w)))).flatten

/-- A lane of an ALIGN flit matches its scrambler sequence: the payload is zero before scrambling (R213, R239). -/
def laneInLock (w : Nat) (align : List Byte) (i : Nat) : Bool :=
  (List.range 120).all (fun k => (k + 6) % w ≠ i || wordAt align (k + 6) = 0)

/-- A training block of lane i: its marker, then 960 bits of its scrambler output (Table 7.3). -/
def trainBlock (i : Nat) : Nat := 0xA5C396F00F693C00 + i + 2 ^ 64 * (scrBits 960 (scrSeed i)).1

/-! ## Sequence numbers -/

def State.txN (s : State) (p : PortId) : Nat := s.getF p.page R.oport.SEQ_TX_NEXT
def State.txA (s : State) (p : PortId) : Nat := s.getF p.page R.oport.SEQ_TX_OLDEST
def State.rxE (s : State) (p : PortId) : Nat := s.getF p.page R.oport.SEQ_RX_EXPECT

/-- Distance from a to b modulo 2^16. -/
def dist16 (a b : Nat) : Nat := (b + 65536 - a % 65536) % 65536

/-- Set A and N, with the count of what lies between. -/
def State.setTx (s : State) (p : PortId) (a n : Nat) : State :=
  s.setFs p.page [(R.oport.SEQ_TX_OLDEST, a % 65536), (R.oport.SEQ_TX_NEXT, n % 65536), (R.oport.SEQ_RX_UNACKED, dist16 a n)]

/-- Flits the OE keeps, and slots of the spill ring (R218, R234). -/
def State.oeKeep (s : State) (p : PortId) : Nat := 1024 * (s.bondOf p).length
def State.spillSlots (s : State) (p : PortId) : Nat :=
  let z := s.getF p.page R.oport.LINK_SPILL_SIZE
  if z = 0 then 16384 else if z = 1 then 32768 else 65536

/-- The firewall window w of an OE. -/
def State.fwWin (s : State) (h : Half) (o w : Nat) : FwWin :=
  mget ⟨0, 0, false, false, false⟩ s.fwWins (17 * (8 * halfNo h + o) + w)

/-- The header bytes a tag covers: ACK, NAK and the XOFF bits taken as 0 (13 R412). -/
def aad (b : List Byte) : List Byte :=
  let v := natOf (b.take 12)
  bytesOf 12 (bits v 15 0 + bits v 34 33 * 2 ^ 33 + bits v 95 37 * 2 ^ 37)

/-- What goes into a flit's payload: the plain bytes, or 224 sealed bytes and the tag. -/
def sealed (h : FlitHdr) (key cnt : Nat) (pay : List Byte) : List Byte :=
  if key = 0 then pay else padTo 240 (Config.seal key cnt (aad (hdrBytes h) ++ padTo 224 pay))

/-- An unacknowledged flit as it was sent, but for what its header says of the other direction: that header, and the payload. -/
def keptFlit (f : TxFlit) : FlitHdr × List Byte :=
  let h : FlitHdr := ⟨f.seq, 0, false, if f.rsp then 1 else 0, false, false, f.key ≠ 0, f.pay.length, 0⟩
  (h, padTo 240 (sealed h f.key f.cnt f.pay))

/-- Address of the slot of flit number k in a port's spill ring, while its SPILL window is valid. -/
def State.slotOf (s : State) (p : PortId) (k : Nat) : Option Nat :=
  let w := s.fwWin p.half p.oe.val (8 + p.i.val % 8)
  if w.valid then some (4096 * w.base.toNat + 256 * (k % s.spillSlots p)) else none

/-- Flit number k is still on the OE: it is one of the newest (R234). -/
def State.onOe (s : State) (p : PortId) (k : Nat) : Bool :=
  let fs := (s.port p).flits
  (fs.drop (fs.length - s.oeKeep p)).any (fun f => f.seq = k)

/-- The flit that a new one displaces from the OE is written to its slot of the spill ring (R234). -/
def State.spill (s : State) (p : PortId) : State :=
  let fs := (s.port p).flits
  let keep := s.oeKeep p
  if fs.length ≤ keep then s
  else
    let f := nth ⟨0, false, [], 0, 0⟩ fs (fs.length - keep - 1)
    match s.slotOf p f.seq with
    | some a => s.memWrite p.half .dma 0 a (flitBytes (keptFlit f).1 (keptFlit f).2 false)
    | none => s

/-! ## Receive buffers and XOFF (R223, R227) -/

def State.rxCap (s : State) (p : PortId) : Nat := (if (s.port p).far then 16384 else 1024) * (s.bondOf p).length

/-- Show the buffers' occupancy and settle the XOFF bits. -/
def State.showRx (s : State) (p : PortId) : State :=
  let x := s.port p
  let hi := s.getF p.page R.oport.FC_THR_XOFF_AT
  let lo := s.getF p.page R.oport.FC_THR_XON_AT
  let next := fun (was : Bool) (n : Nat) => if n ≥ hi then true else if n ≤ lo then false else was
  let s := s.setFs p.page [(R.oport.RXBUF_OCC_REQ, x.rxReq.length), (R.oport.RXBUF_OCC_RSP, x.rxRsp.length)]
  s.setPort p { x with xReq := next x.xReq x.rxReq.length, xRsp := next x.xRsp x.rxRsp.length }

/-- Take n bytes off the front of a list of payload sizes. -/
def takeOff : List Nat → Nat → List Nat
  | [], _ => []
  | a :: t, n => if a ≤ n then takeOff t (n - a) else (a - n) :: t

/-- The comb die takes a message of a virtual channel from the receive buffer. -/
def State.takeMsg (s : State) (p : PortId) (m : FabMsg) : State :=
  let l := s.lead p
  let x := s.port l
  if x.rxReq.isEmpty && x.rxRsp.isEmpty then s
  else
    let n := (fabBytes m).length
    let x := if onRsp m then { x with rxRsp := takeOff x.rxRsp n } else { x with rxReq := takeOff x.rxReq n }
    (s.setPort l x).showRx l

/-! ## Control messages (R236) -/

/-- A control message of 16 bytes, queued for the next CTL flit of the port's link. -/
def State.sendCtl (s : State) (p : PortId) (type : Nat) (body : List Byte) : State :=
  s.updPort (s.lead p) (fun x => { x with ctl := x.ctl ++ [padTo 16 (bytesOf 1 type ++ body)] })

/-- The header the port sends now. -/
def State.hdrNow (s : State) (p : PortId) (kind seq plen nmsg : Nat) (enc : Bool) : FlitHdr :=
  let x := s.port p
  { seq := seq, ack := x.ackOut, nak := x.nakOut, kind := kind, xReq := x.xReq, xRsp := x.xRsp, enc := enc, plen := plen,
    nmsg := nmsg }

/-- Lanes a link sends on: all of every member; four in training (R216, R219). -/
def State.lanesUp (s : State) (p : PortId) : Nat := max 4 (s.getF p.page R.oport.PORT_STS_WIDTH * (s.bondOf p).length)

/-- A flit leaves on the lanes; a NAK goes with one flit. An ALIGN flit is slot 0 of its scramblers, and restarts them. -/
def State.emitFlit (s : State) (p : PortId) (h : FlitHdr) (pay : List Byte) (bad : Bool) : State :=
  let slot := if h.kind = 3 then 0 else (s.port p).alignGap + 1
  (s.updPort p (fun x => { x with nakOut := false, alignGap := slot })).emit (.flit p (onLanes (s.lanesUp p) slot (flitBytes h pay bad)))

/-- The messages of the next CTL flit: the first that wait, up to n, and no HO_DONE twice (it goes in three consecutive flits, R236). -/
def ctlPack : Nat → List (List Byte) → List (List Byte)
  | n + 1, m :: t => m :: ctlPack n (if m.head? = some 4 then t.takeWhile (· ≠ m) else t)
  | _, _ => []

/-- A CTL flit with the first waiting messages, at most 15. -/
def State.sendCtlFlit (s : State) (p : PortId) : State :=
  let x := s.port p
  let ms := ctlPack 15 x.ctl
  let s := s.emitFlit p (s.hdrNow p 2 (s.txN p) 0 ms.length false) ms.flatten false
  s.updPort p (fun x => { x with ctl := x.ctl.drop ms.length, ctlGap := if ms.isEmpty then x.ctlGap + 1 else 0 })

/-- A control message of a port's own training, in a CTL flit of its own. -/
def State.trainMsg (s : State) (p : PortId) (type : Nat) (body : List Byte) : State :=
  s.emitFlit p (s.hdrNow p 2 (s.txN p) 0 1 false) (padTo 16 (bytesOf 1 type ++ body)) false

/-! ## Sending (R214) -/

/-- A payload from the messages of a queue: what is sent of it, the messages that end in it, what stays, and the offset. -/
def fillPay : Nat → List FabMsg → Nat → List Byte × List FabMsg × List FabMsg × Nat
  | _, [], _ => ([], [], [], 0)
  | room, m :: t, off =>
    let b := (fabBytes m).drop off
    if b.length ≤ room then
      let r := fillPay (room - b.length) t 0
      (b ++ r.1, m :: r.2.1, r.2.2.1, r.2.2.2)
    else (b.take room, [], m :: t, off + room)

/-- The key in force for the next data flit sent, and for the next one accepted (13 R412, R413). -/
def kxKeyTx (k : KxSt) : Nat := if k.nextTx ≠ 0 && k.gotSw && decide (k.cntTx ≥ k.cTx) then k.nextTx else k.keyTx
def kxKeyRx (k : KxSt) : Nat := if k.nextRx ≠ 0 && decide (k.cntRx ≥ k.cRx) then k.nextRx else k.keyRx

/-- The sender has reached its switch count without the partner's KX_SWITCH (13 R414). -/
def kxStall (k : KxSt) : Bool := [1, 2, 6, 7].contains k.st && !k.gotSw && decide (k.cntTx ≥ k.cTx)

/-- A virtual channel may send new data. -/
def State.mayData (s : State) (p : PortId) (rsp : Bool) : Bool :=
  let x := s.port p
  !x.stale && !s.isSet p.page (if rsp then R.oport.LINK_STS_XOFF_RSP else R.oport.LINK_STS_XOFF_REQ) &&
    !(if rsp then x.txRsp else x.txReq).isEmpty && dist16 (s.txA p) (s.txN p) ≠ s.getF p.page R.oport.LINK_SPILL_WMAX_SEQ &&
    !x.asleep && !kxStall x.kx

/-- Send a new data flit of a virtual channel. -/
def State.sendData (s : State) (p : PortId) (rsp : Bool) : State :=
  let x := s.port p
  let key := kxKeyTx x.kx
  let f := fillPay (if key ≠ 0 then 224 else 240) (if rsp then x.txRsp else x.txReq) (if rsp then x.offRsp else x.offReq)
  let n := s.txN p
  let h := s.hdrNow p (if rsp then 1 else 0) n f.1.length 0 (key ≠ 0)
  let s := s.emitFlit p h (sealed h key x.kx.cntTx f.1) x.crcTx
  let s := s.updPort p (fun x =>
    let x := if rsp then { x with txRsp := f.2.2.1, offRsp := f.2.2.2 } else { x with txReq := f.2.2.1, offReq := f.2.2.2 }
    { x with flits := x.flits ++ [⟨n, rsp, f.1, x.kx.cntTx, key⟩], msgs := x.msgs ++ f.2.1.map (fun m => (n, m)),
             crcTx := false, lastRsp := rsp, ctlGap := x.ctlGap + 1,
             kx := { x.kx with cntTx := x.kx.cntTx + 1, keyTx := key, nextTx := if key = x.kx.nextTx then 0 else x.kx.nextTx } })
  (s.setTx p (s.txA p) (n + 1)).spill p


end Sys2Proof.Machine
end

