-- ==== Sys2Proof/Machine/Fabric.lean ====
section
/-! DEFINITION. The fabric's tables and its routing (08): identity, fabric events, partner entries, candidates, the choice of a
port, and the messages the device sends of itself. -/

namespace Sys2Proof.Machine

/-! ## Identity and events (R245, R246, R283) -/

/-- The device's FID, none while FAB_ID.VALID is 0. -/
def State.fidOf (s : State) : Option Nat :=
  let p : Page := .comb s.leader
  if s.isSet p R.comb.FAB_ID_VALID then some (s.getF p R.comb.FAB_ID_FID) else none

def State.ownFid (s : State) : Nat := s.getF (.comb s.leader) R.comb.FAB_ID_FID

/-- The FID is the device's. -/
def State.isOwn (s : State) (f : Nat) : Bool := s.fidOf = some f

/-- Tag of partition p, none where it is not VALID. -/
def State.partTag (s : State) (p : Nat) : Option Nat :=
  let c : Page := .comb s.leader
  if s.isSet c (R.comb.PF_TAG_VALID.ix p) then some (s.getF c (R.comb.PF_TAG_TAG.ix p)) else none

/-- The tags a waggle lists: those of the partitions, ascending by partition. -/
def State.ownTags (s : State) : List Nat := (List.range 8).filterMap s.partTag

/-- Global port n lies in partition p's mask. -/
def State.inMask (s : State) (p n : Nat) : Bool :=
  bit (s.getF (.comb s.leader) (R.comb.PF_PORTS_PORTS.ix2 p (n / 32))) (n % 32)

/-- A fabric event, met by one half: an unmasked one writes a non-fatal record of its own kind (14 Table 14.6: FID, tag). -/
def State.fabEvt (s : State) (h : Half) (n fid tag : Nat) (e : Ev := {}) : State :=
  let p : Page := .comb h
  let s := s.setF p { R.comb.FAB_EVT_WAGGLE_TMO with hi := n, lo := n } 1
  if bit (s.getF p R.comb.FAB_EVT_MASK_MASK) n then s
  else s.record p n 2 false (s.isSet p R.hdr.BLK_CTL_ERR_IRQ_EN) { e with info := bytesOf 2 fid ++ bytesOf 2 tag }

/-! ## Partner table (R255 to R258) -/

/-- Entry states (Table 8.7). -/
def ptOPENING : Nat := 1
def ptACTIVE : Nat := 2
def ptINCOMPAT : Nat := 3
def ptDARK : Nat := 4
def ptCLASH : Nat := 5

/-- The entry that requests to a FID use: the one that is not CLASH. -/
def State.entry (s : State) (fid : Nat) : Option (Nat × PEntry) :=
  s.partners.find? (fun e => e.2.fid = fid && e.2.st ≠ ptCLASH)

def State.setEntry (s : State) (i : Nat) (e : PEntry) : State := { s with partners := mput s.partners i e }

/-- The next value of the order of use. -/
def State.useNo (s : State) : Nat := s.partners.foldl (fun m (e : Nat × PEntry) => max m (e.2.used + 1)) 0

def State.useEntry (s : State) (i : Nat) : State :=
  let n := s.useNo
  { s with partners := s.partners.map (fun e => if e.1 = i then (e.1, { e.2 with used := n }) else e) }

/-- An entry that may be freed (R258), its idle time aside. -/
def State.canFree (s : State) (e : PEntry) : Bool :=
  !s.reqs.any (fun r => r.2.msg.dfid.toNat = e.fid) && !s.rcache.any (fun r => r.sfid = e.fid) && e.ports.isEmpty

/-- An index for a new entry: a free one, or that of the least recently used entry that may be freed. Whether it has been idle for 1 s
is a free value (assumption 1). -/
def State.freeIndex (s : State) : State × Option Nat :=
  match (List.range 4096).find? (fun i => !mhas s.partners i) with
  | some i => (s, some i)
  | none =>
    let l := s.partners.filter (fun e => s.canFree e.2)
    match l with
    | [] => (s, none)
    | e :: t =>
      let v := t.foldl (fun (a b : Nat × PEntry) => if b.2.used < a.2.used then b else a) e
      if s.freeAhead 0 % 2 = 1 then ((({ s with partners := merase s.partners v.1 }).drawn 1), some v.1) else (s.drawn 1, none)

/-- The version two waggles agree (R256). -/
def agreed (vmin vmax : Nat) : Option Nat :=
  let v := min 0x12 vmax
  if v ≥ max 0x10 vmin then some v else none

/-- The entry a waggle describes. -/
def entryOf (w : Waggle) (st ver : Nat) (ports : List Nat) (used : Nat) : PEntry :=
  { fid := w.fid.toNat, uid := w.uid.toNat, session := w.session.toNat, cls := w.cls.toNat, caps := w.caps.toNat,
    tags := (w.tags.take (min w.ntag.toNat 8)).map (·.toNat), ver := ver, st := st, ports := ports, used := used }

/-- The port has a neighbour that lets it carry transactions: its HELLO came and made no CLASH (R254, R257). -/
def State.carries (s : State) (p : PortId) : Bool :=
  s.partners.any (fun e => e.2.st ≠ ptCLASH && e.2.ports.contains (s.lead p).no)

/-! ## Routing (R259) -/

/-- Candidates of a DFID in table order. -/
def State.cands (s : State) (dfid : Nat) : List Nat :=
  (mget [] s.transit dfid).filterMap (fun c => if c ≥ 128 then some (c % 128) else none)

def State.usable (s : State) (arr : Option PortId) (part : Option Nat) (n : Nat) : Bool :=
  let p := s.lead (portOf n)
  s.answers p.page && (s.lstate p = 2 || s.lstate p = 3) &&
    s.partners.any (fun e => e.2.st = ptACTIVE && e.2.ports.contains p.no) && [0, 3, 6, 7, 8].contains (s.port p).kx.st &&
    (match arr with
     | some a => (s.lead a).no ≠ p.no
     | none => true) &&
    (match part with
     | some k => s.inMask k n
     | none => true)

/-- Flits queued for a virtual channel, plus 1,024 while it is in XOFF. -/
def State.backlog (s : State) (n : Nat) (rsp : Bool) : Nat :=
  let p := s.lead (portOf n)
  let x := s.port p
  let b := ((if rsp then x.txRsp else x.txReq).map (fun m => (fabBytes m).length)).sum - (if rsp then x.offRsp else x.offReq)
  let off := s.isSet p.page (if rsp then R.oport.LINK_STS_XOFF_RSP else R.oport.LINK_STS_XOFF_REQ) || x.stale
  (b + 239) / 240 + if off then 1024 else 0

/-- The element of a list with the smallest key, the first one on a tie. -/
def leastBy (f : Nat → Nat) : List Nat → Option Nat
  | [] => none
  | a :: t => some (t.foldl (fun b c => if f c < f b then c else b) a)

/-- The usable candidate with the smallest backlog. -/
def State.route (s : State) (dfid : Nat) (arr : Option PortId) (part : Option Nat) (rsp : Bool) : Option PortId :=
  (leastBy (fun n => s.backlog n rsp) ((s.cands dfid).filter (s.usable arr part))).map portOf

/-- Queue a message on a port. -/
def State.post (s : State) (p : PortId) (m : FabMsg) : State :=
  s.updPort (s.lead p) (fun x => if onRsp m then { x with txRsp := x.txRsp ++ [m] } else { x with txReq := x.txReq ++ [m] })

/-- Send a message the device issues itself and no partition's mask binds; without a candidate it is dropped and NO_ROUTE set. -/
def State.sendFree (s : State) (h : Half) (dfid : Nat) (m : FabMsg) : State :=
  match s.route dfid none none (onRsp m) with
  | some p => s.post p m
  | none => s.fabEvt h 7 dfid 0 { status := 0xA, detail := 0x90 }

/-- PATH_LOST to the requester of a message (R261, R269). Its STATUS is LINK_LOST (assumption 17). -/
def State.pathLostTo (s : State) (h : Half) (req tag epoch : Nat) : State :=
  let m : RspMsg :=
    { opc := 0x10, dfid := BitVec.ofNat 16 req, sfid := BitVec.ofNat 16 s.ownFid, tag := BitVec.ofNat 15 tag, dup := false,
      epoch := BitVec.ofNat 16 epoch, len := 0, status := 4, retry := false, hops := 8, rsvd := 0, data := [] }
  (s.fabEvt h 8 req tag).sendFree h req (.rsp m)

/-! ## Own waggles (R252 to R256) -/

/-- The capability word sent on a port: bit 5 where its OE has AES-256-GCM (R253). -/
def State.ownCaps (s : State) (p : Option PortId) : Nat :=
  match p with
  | some p => if s.isSet (.oe p.half p.oe) R.oe.BLK_CAP_AES_GCM then 0xFF else 0xDF
  | none => s.getF (.comb s.leader) R.comb.FAB_VER_CAPS

def State.ownWaggle (s : State) (kind reason : Nat) (p : Option PortId) : Waggle :=
  { kind := BitVec.ofNat 8 kind, cls := 1, fid := BitVec.ofNat 16 s.ownFid, uid := Config.uid, session := s.session,
    vmin := 0x10, vmax := 0x12, caps := BitVec.ofNat 16 (s.ownCaps p), ntag := BitVec.ofNat 8 s.ownTags.length,
    reason := BitVec.ofNat 8 reason,
    port := match p with
      | some p => if kind = 1 then BitVec.ofNat 16 p.no else 0xFFFF
      | none => 0xFFFF
    tags := s.ownTags.map (BitVec.ofNat 16) }

/-- The 64 bytes of a body (Table 8.5). -/
def waggleBytes (w : Waggle) : List Byte :=
  bytesOf 1 w.kind.toNat ++ bytesOf 1 w.cls.toNat ++ bytesOf 2 w.fid.toNat ++ bytesOf 8 w.uid.toNat ++
    bytesOf 4 w.session.toNat ++ bytesOf 1 w.vmin.toNat ++ bytesOf 1 w.vmax.toNat ++ bytesOf 2 w.caps.toNat ++
    bytesOf 1 w.ntag.toNat ++ bytesOf 1 w.reason.toNat ++ bytesOf 2 w.port.toNat ++
    padTo 40 ((w.tags.take 8).flatMap (fun t => bytesOf 2 t.toNat))

/-- A WAGGLE message. -/
def State.waggleMsg (s : State) (dfid hops : Nat) (w : Waggle) : FabMsg :=
  .req { opc := 8, dfid := BitVec.ofNat 16 dfid, sfid := BitVec.ofNat 16 s.ownFid, tag := 0, once := false, epoch := 0,
         len := 64, stag := 0, addr := 0, fn := 0, re := false, hops := BitVec.ofNat 4 hops, rsvd := 0, data := waggleBytes w }

/-- HELLO on a link (R254); a bypass port sends none. -/
def State.sendHello (s : State) (p : PortId) : State := if s.isBypass p then s else s.post p (s.waggleMsg 0 1 (s.ownWaggle 1 0 (some p)))

/-- OPEN, ACCEPT, REFUSE to a FID. -/
def State.sendWaggle (s : State) (h : Half) (kind reason fid : Nat) : State :=
  s.sendFree h fid (s.waggleMsg fid 8 (s.ownWaggle kind reason none))

/-- Send what waits on the REQ channel of a port, in at most n flits. -/
def pumpTx (p : PortId) : Nat → State → State
  | 0, s => s
  | n + 1, s => if s.mayData p false then pumpTx p n (s.sendData p false) else s

/-- Send all that waits on the REQ channel of a port, as far as the partner lets it. -/
def State.pump (s : State) (p : PortId) : State :=
  pumpTx p (((s.port p).txReq.map (fun m => (fabBytes m).length)).sum / 224 + 1) s

/-- Lowest members of the UP links among some global ports. -/
def State.upLinks (s : State) (l : List Nat) : List Nat :=
  l.filter (fun n => s.lstate (portOf n) = 2 && (s.lead (portOf n)).no = n)

/-- DARK on the UP ports among some global ports. -/
def State.darkOn (s : State) (l : List Nat) : State :=
  foldOver (s.upLinks l) (fun n s => (s.post (portOf n) (s.waggleMsg 0 1 (s.ownWaggle 6 0 none))).pump (portOf n)) s

/-- DARK on every UP port and to every ACTIVE session partner (R274). -/
def State.sendDark (s : State) (h : Half) : State :=
  let s := s.darkOn (List.range 128)
  let s := foldOver (s.partners.filter (fun e => e.2.st = ptACTIVE && e.2.ports.isEmpty)) (fun e s => s.sendWaggle h 6 0 e.2.fid) s
  foldOver (s.upLinks (List.range 128)) (fun n s => s.pump (portOf n)) s

/-! ## Fabric contexts and sessions -/

/-- Keys of a fabric context: 8 h + p. -/
def fctxInit : FCtx := { raw := 0, tail := 0, next := 0, todo := [], fly := [], fin := [], ci := 0 }
def State.fctxOf (s : State) (h : Half) (p : Nat) : FCtx := mget fctxInit s.fctx (8 * halfNo h + p)
/-- CONS of a command ring: its oldest entry not completed (08 Table 8.17). -/
def FCtx.cons (x : FCtx) : Nat :=
  let m := 2 ^ bits x.raw 131 128
  (x.next + 2 * m - x.todo.length - x.fly.length - x.fin.length) % m

def State.setFctx (s : State) (h : Half) (p : Nat) (x : FCtx) : State := { s with fctx := mput s.fctx (8 * halfNo h + p) x }
def State.loaded (s : State) (h : Half) (p : Nat) : Bool := mhas s.fctx (8 * halfNo h + p)

/-- Open a session to a FID: an entry in OPENING, and OPEN (R256); none where no entry can be had. -/
def State.openSession (s : State) (h : Half) (fid : Nat) : Option State × State :=
  let r := s.freeIndex
  match r.2 with
  | none => (none, r.1.fabEvt h 3 fid 0 { status := 0xC, detail := 0x98 })
  | some i =>
    let e : PEntry :=
      { fid := fid, uid := 0, session := 0, cls := 0, caps := 0, tags := [], ver := 0, st := ptOPENING, ports := [],
        used := r.1.useNo }
    let t := (r.1.setEntry i e).sendWaggle h 2 0 fid
    (some t, t)

end Sys2Proof.Machine
end

