-- ==== Sys2Proof/Machine/CollCore.lean ====
section
/-! DEFINITION. Collectives (08 R275 to R281): the schedule of a member, its arithmetic, what a received segment does, and how a collective
ends. A message that finds no READY or no candidate waits in the member. -/

namespace Sys2Proof.Machine

/-! ## Messages and ends (R275, R281) -/

/-- A collective message of a member (Table 8.14). -/
def State.collMsg (s : State) (c : CollSt) (opc fid step off : Nat) (data : List Byte) : CollMsg :=
  { opc := BitVec.ofNat 8 opc, dfid := BitVec.ofNat 16 fid, sfid := BitVec.ofNat 16 s.ownFid,
    swarm := BitVec.ofNat 16 (bits c.raw 143 128), cseq := BitVec.ofNat 32 (bits c.raw 391 360), step := BitVec.ofNat 13 step,
    offset := BitVec.ofNat 40 off, len := BitVec.ofNat 8 data.length, hops := 8, op := BitVec.ofNat 2 (bits c.raw 147 144),
    dtype := BitVec.ofNat 4 (bits c.raw 151 148), rfn := BitVec.ofNat 2 (bits c.raw 153 152), rsvd := 0, data := data }

/-- Send a collective message on the route of the partition. -/
def State.sendColl (s : State) (c : CollSt) (m : CollMsg) : State :=
  match s.route m.dfid.toNat none (some c.part) (onRsp (.coll m)) with
  | some p => s.post p (.coll m)
  | none => s.fabEvt c.half 7 m.dfid.toNat 0 { status := 0xA, detail := 0x90 }

/-- A collective ends on this member: it is the last completed of its swarm. -/
def State.dropColl (s : State) (c : CollSt) : State :=
  { s with
    colls := s.colls.filter (fun e => !(e.half = c.half && e.q = c.q && e.slot = c.slot))
    swarms := mput s.swarms (bits c.raw 143 128) (bits c.raw 391 360) }

/-- A member fails: COLL_ABORT goes to every other member. -/
def State.abortColl (s : State) (c : CollSt) : State :=
  let s := s.dropColl c
  foldOver (c.fids.filter (fun f => !s.isOwn f)) (fun f s => s.sendColl c (s.collMsg c 0x22 f 0 0 [])) s

/-- A collective fails: its members learn it, its descriptor has its status. -/
def State.failColl (s : State) (c : CollSt) (st detail : Nat) : State :=
  (s.abortColl c).updDesc c.half c.q c.slot (·.finish st detail c.bytes)

/-- Collectives with a member end (R281). -/
def State.endColls (s : State) (fid st detail : Nat) : State :=
  foldOver (s.colls.filter (fun c => c.fids.contains fid)) (fun c s => s.failColl c st detail) s

/-! ## Geometry (R278, R279) -/

def CollSt.n (c : CollSt) : Nat := c.fids.length
def CollSt.op (c : CollSt) : Nat := bits c.raw 147 144
def CollSt.dt (c : CollSt) : Nat := bits c.raw 151 148
def CollSt.rfn (c : CollSt) : Nat := bits c.raw 153 152
def CollSt.src (c : CollSt) : Nat := bits c.raw 255 192
def CollSt.dst (c : CollSt) : Nat := bits c.raw 319 256
def CollSt.count (c : CollSt) : Nat := bits c.raw 359 320
def CollSt.swarm (c : CollSt) : Nat := bits c.raw 143 128
def CollSt.cseq (c : CollSt) : Nat := bits c.raw 391 360

/-- Bytes of an element of a DTYPE. -/
def elemBytes (dt : Nat) : Nat := if dt = 0 then 4 else if dt = 1 then 2 else 1

def CollSt.es (c : CollSt) : Nat := elemBytes c.dt

/-- Elements of a chunk or block: the rounded-up share. -/
def CollSt.k (c : CollSt) : Nat := (c.count + c.n - 1) / c.n

def CollSt.succ (c : CollSt) : Nat := nth 0 c.fids ((c.rank + 1) % c.n)
def CollSt.pred (c : CollSt) : Nat := nth 0 c.fids ((c.rank + c.n - 1) % c.n)

/-- Elements of the result at DST. -/
def CollSt.resultLen (c : CollSt) : Nat :=
  if c.op = 1 then c.count / c.n else if c.op = 2 then c.n * c.count else c.count

/-- First element and count of a chunk of COUNT elements. -/
def CollSt.chunk (c : CollSt) (i : Nat) : Nat × Nat := (i * c.k, min c.k (c.count - i * c.k))

/-- A step sums (reduce-scatter phase). -/
def CollSt.sums (c : CollSt) (step : Nat) : Bool := c.op ≤ 1 && decide (step + 2 ≤ c.n)

/-- The last step of the schedule of a ring, as a count of steps. -/
def CollSt.steps (c : CollSt) : Nat := if c.op = 0 then 2 * (c.n - 1) else c.n - 1

/-- The elements received at a step of the ring: first and count, as indices of the reduced vector or, for all-gather, of the result. -/
def CollSt.span (c : CollSt) (step : Nat) : Nat × Nat :=
  if c.op = 2 then (((c.rank + c.n - 1 - step) % c.n) * c.count, c.count)
  else if c.sums step then c.chunk ((c.rank + 2 * c.n - 2 - step) % c.n)
  else c.chunk ((c.rank + 2 * c.n - 2 - step) % c.n)

/-- Members this one receives data from, and sends data to (R277). -/
def CollSt.sources (c : CollSt) : List Nat :=
  if c.n ≤ 1 then [] else if c.op = 3 then c.fids.filter (· ≠ nth 0 c.fids c.rank) else [c.pred]

def CollSt.peers (c : CollSt) : List Nat := if c.n ≤ 1 then [] else if c.op = 3 then c.sources else [c.pred, c.succ].dedup

/-- Elements this member receives in all. -/
def CollSt.expected (c : CollSt) : Nat :=
  if c.n ≤ 1 then 0
  else if c.op = 3 then (c.n - 1) * c.k
  else ((List.range c.steps).map (fun j => (c.span j).2)).sum

/-! ## Arithmetic (R280) -/

/-- Codes of n bytes each in a string of bytes. -/
def codesOf (n : Nat) : Nat → List Byte → List Nat
  | 0, _ => []
  | k + 1, b => natOf (b.take n) :: codesOf n k (b.drop n)

/-- The code of a value in FP32. -/
def wide (x : Num) : Nat := (toFp32 .inf x).1

/-- RFN of two values, in FP32. -/
def reduce (rfn : Nat) (a b : Num) : Nat := wide (if rfn = 0 then addNum a b else if rfn = 1 then maxNum a b else minNum a b)

/-- An FP32 code rounded once to DTYPE. -/
def narrow (dt : Nat) (c : Nat) : Nat := (toFmt dt .rne (if dt = 3 then .sat else .inf) (decodeElem 0 c)).1

/-! ## Sending -/

def State.updColl (s : State) (c : CollSt) (f : CollSt → CollSt) : State :=
  { s with colls := s.colls.map (fun e => if e.half = c.half && e.q = c.q && e.slot = c.slot then f e else e) }

def State.collAt (s : State) (h : Half) (q slot : Nat) : Option CollSt :=
  s.colls.find? (fun c => c.half = h && c.q = q && c.slot = slot)

/-- Queue a message in the member. -/
def State.holdColl (s : State) (c : CollSt) (m : CollMsg) : State := s.updColl c (fun e => { e with hold := e.hold ++ [m] })

/-- Segments of cnt elements of w bytes: element offset and count, 128 bytes each but the last. -/
def segsOf (w cnt : Nat) : List (Nat × Nat) :=
  let m := 128 / w
  (List.range ((cnt + m - 1) / m)).map (fun i => (i * m, min m (cnt - i * m)))

/-- Queue own elements [at0, at0 + cnt) of SRC to a member as segments of a step, from element `off` on; FP32 in a reduce-scatter phase.
A failed read fails the collective. -/
def State.sendOwn (c : CollSt) (fid step off : Nat) (wd : Bool) (at0 cnt : Nat) (s : State) : State :=
  foldOver (segsOf (if wd then 4 else c.es) cnt) (fun e s =>
    match s.collAt c.half c.q c.slot with
    | none => s
    | some c' =>
      let r := s.memRead c.half .dma 0 (c.src + (at0 + e.1) * c.es) (e.2 * c.es)
      if r.2.1 ≠ 0 then r.1.failColl c' r.2.1 0
      else
        let b := if wd then (codesOf c.es e.2 r.2.2).flatMap (fun x => bytesOf 4 (wide (decodeElem c.dt x))) else r.2.2
        r.1.holdColl c (r.1.collMsg c 0x20 fid step (off + e.1) b)) s

/-- Bytes are written at DST and counted. -/
def State.collWrite (s : State) (c : CollSt) (el : Nat) (b : List Byte) : State :=
  let s := s.memWrite c.half .dma 0 (c.dst + el * c.es) b
  let s := s.updColl c (fun e => { e with bytes := e.bytes + b.length })
  s.updDesc c.half c.q c.slot (fun d => if d.done then d else { d with info := d.info + b.length })

/-- Copy cnt own elements from SRC to DST. -/
def State.collCopy (s : State) (c : CollSt) (srcEl dstEl cnt : Nat) : State :=
  let r := s.memRead c.half .dma 0 (c.src + srcEl * c.es) (cnt * c.es)
  if r.2.1 ≠ 0 then
    match r.1.collAt c.half c.q c.slot with
    | some c' => r.1.failColl c' r.2.1 0
    | none => r.1
  else r.1.collWrite c dstEl r.2.2

/-- The member starts: READY to its sources, its own data to where the schedule sends it first. -/
def State.startColl (s : State) (c : CollSt) : State :=
  let s := s.updColl c (fun e => { e with going := true })
  let s := foldOver c.sources (fun f s => s.holdColl c (s.collMsg c 0x21 f 0 0 [])) s
  if c.n ≤ 1 then s.collCopy c 0 0 c.count
  else if c.op = 2 then
    State.sendOwn c c.succ 0 (c.rank * c.count) false 0 c.count (s.collCopy c 0 (c.rank * c.count) c.count)
  else if c.op = 3 then
    let s := s.collCopy c (c.rank * c.k) (c.rank * c.k) c.k
    foldOver ((List.range c.n).filter (· ≠ c.rank)) (fun j s =>
      State.sendOwn c (nth 0 c.fids j) c.free (c.rank * c.k) false (j * c.k) c.k s) s
  else
    let ch := c.chunk ((c.rank + c.n - 1) % c.n)
    State.sendOwn c c.succ 0 ch.1 true ch.1 ch.2 s

/-! ## Progress -/

/-- The reduction bit of DTYPE, and the version it needs (Tables 8.4, 8.6). -/
def collCap (dt : Nat) : Nat := if dt = 0 then 1 else if dt = 1 then 2 else 3
def collVer (dt : Nat) : Nat := if dt ≤ 1 then 0x10 else 0x12

/-- A member's entry: some true fit, some false unfit, none still to come (R276). -/
def State.peerFit (s : State) (dt fid : Nat) : Option Bool :=
  match s.entry fid with
  | none => none
  | some e =>
    if e.2.st = ptOPENING then none
    else some (e.2.st = ptACTIVE && decide (e.2.ver ≥ collVer dt) && bit e.2.caps (collCap dt))

/-- Send what the member holds: data to a member whose READY has come, anything with a usable candidate. -/
def State.flushColl (s : State) (c : CollSt) : State :=
  foldOver c.hold (fun m s =>
    match s.route m.dfid.toNat none (some c.part) (onRsp (.coll m)) with
    | some p =>
      if m.opc ≠ 0x20 || c.ready.contains m.dfid.toNat then
        (s.post p (.coll m)).updColl c (fun e => { e with hold := e.hold.erase m })
      else s
    | none => s) s

/-- A collective whose data is all in and all out is complete. -/
def State.doneColl (s : State) (c : CollSt) : State :=
  if c.going && c.hold.isEmpty && decide ((c.got.map (·.2.2)).sum ≥ c.expected) then
    (s.dropColl c).updDesc c.half c.q c.slot (·.finish 0 0 c.bytes)
  else s

/-- One collective goes on: it starts once its members fit, sends, completes. -/
def State.pumpColl (s : State) (h : Half) (q slot : Nat) : State :=
  match s.collAt h q slot with
  | none => s
  | some c =>
    let fits := c.peers.map (s.peerFit c.dt)
    let s :=
      if c.going then s
      else if fits.contains (some false) then s.failColl c 0xB 0x95
      else if fits.contains none then s
      else s.startColl c
    let s := match s.collAt h q slot with
      | some c => s.flushColl c
      | none => s
    match s.collAt h q slot with
    | some c => s.doneColl c
    | none => s

def State.pumpColls (s : State) : State := foldOver s.colls (fun c s => s.pumpColl c.half c.q c.slot) s

/-! ## Received messages (R277, R279, R280) -/

/-- A running collective of a swarm. -/
def State.running (s : State) (m : CollMsg) : Option CollSt :=
  s.colls.find? (fun c => c.swarm = m.swarm.toNat && c.cseq = m.cseq.toNat)

/-- Data that the member's schedule names: operation, sender, step, whole elements, bounds. -/
def CollSt.accepts (c : CollSt) (m : CollMsg) : Bool :=
  let step := m.step.toNat
  let f := m.sfid.toNat
  let w := if c.sums step && c.op ≠ 3 then 4 else c.es
  let cnt := m.data.length / w
  m.op.toNat = c.op && m.dtype.toNat = c.dt && m.rfn.toNat = c.rfn && c.sources.contains f && m.data.length % w = 0 &&
    (if c.op = 3 then
      let j := c.fids.idxOf f
      decide (j * c.k ≤ m.offset.toNat) && decide (m.offset.toNat + cnt ≤ (j + 1) * c.k)
    else
      decide (step < c.steps) && decide ((c.span step).1 ≤ m.offset.toNat) &&
        decide (m.offset.toNat + cnt ≤ (c.span step).1 + (c.span step).2))

/-- Two segments of one step share an element. -/
def segMeets (k off cnt : Nat) (e : Nat × Nat × Nat) : Bool :=
  e.1 = k && decide (off < e.2.1 + e.2.2) && decide (e.2.1 < off + cnt)

/-- A segment of the reduce-scatter phase: the matching elements of SRC are added; the sum goes on, or is rounded and written. -/
def State.reduceSeg (s : State) (c : CollSt) (step off : Nat) (b : List Byte) : State :=
  let cnt := b.length / 4
  let r := s.memRead c.half .dma 0 (c.src + off * c.es) (cnt * c.es)
  if r.2.1 ≠ 0 then r.1.failColl c r.2.1 0
  else
    let sums := ((codesOf 4 cnt b).zip (codesOf c.es cnt r.2.2)).map (fun e =>
      reduce c.rfn (decodeElem 0 e.1) (decodeElem c.dt e.2))
    let s := r.1
    if step + 2 < c.n then s.holdColl c (s.collMsg c 0x20 c.succ (step + 1) off (sums.flatMap (bytesOf 4)))
    else
      let o := sums.flatMap (fun x => bytesOf c.es (narrow c.dt x))
      let s := s.collWrite c (off - if c.op = 1 then c.rank * c.k else 0) o
      if c.op = 0 then s.holdColl c (s.collMsg c 0x20 c.succ (step + 1) off o) else s

/-- A segment of data for a running collective. -/
def State.takeSeg (s : State) (c : CollSt) (m : CollMsg) : State :=
  let step := m.step.toNat
  let off := m.offset.toNat
  let sum := c.sums step && c.op ≠ 3
  let cnt := m.data.length / (if sum then 4 else c.es)
  let key := if c.op = 3 then m.sfid.toNat else step
  if c.got.any (segMeets key off cnt) then s
  else
    let s := s.updColl c (fun e => { e with got := e.got ++ [(key, off, cnt)] })
    let s :=
      if sum then s.reduceSeg c step off m.data
      else
        let s := s.collWrite c off m.data
        if c.op ≠ 3 && step + 1 < c.steps then s.holdColl c (s.collMsg c 0x20 c.succ (step + 1) off m.data) else s
    s.pumpColl c.half c.q c.slot

end Sys2Proof.Machine
end

