-- ==== Sys2Proof/Machine/FabReq.lean ====
section
/-! DEFINITION. Fabric requests (08): a target serves them, a source issues, sends, sends again and completes them; remote COPYs and the
fabric command rings feed them. -/

namespace Sys2Proof.Machine

/-! ## The target (R248, R263, R266, R270) -/

/-- The half a MSG names. -/
def msgHalf (m : ReqMsg) : Half := halfOf (m.addr.toNat % 2)

/-- The home half of a request: of its address, or the half that a MSG names. -/
def State.reqHome (s : State) (m : ReqMsg) : Half :=
  if m.opc = 4 then msgHalf m else (s.homeOf m.addr.toNat).getD s.leader

/-- A field of a request is out of range, or RSVD is not 0 (R250). -/
def badReq (m : ReqMsg) : Bool :=
  let a := m.addr.toNat
  let n := m.len.toNat
  m.rsvd ≠ 0 ||
  (if m.opc = 3 then (if m.fn = 2 then n ≠ 16 else n ≠ 8) || decide (m.fn.toNat ≥ 10) || a % 8 ≠ 0 || m.data.length ≠ n
   else n = 0 || decide (n > 128) || (m.opc ≠ 4 && decide (a % 128 + n > 128)) || (m.opc ≠ 1 && m.data.length ≠ n) ||
     (m.opc = 4 && a / 2 ≠ 0))

/-- The partition that admits a request, none where it is refused (R248). -/
def State.partFor (s : State) (arr : Option PortId) (h : Half) (m : ReqMsg) : Option Nat :=
  (List.range 8).find? fun q =>
    s.partTag q = some m.stag.toNat && s.partState h q = 1 &&
    (match arr with
     | some p => s.inMask q p.no
     | none => true) &&
    (if m.opc = 4 then s.loaded (msgHalf m) q
     else s.inWindow h q m.addr.toNat (if m.opc = 3 then 8 else m.len.toNat))

/-- Signed reading of a 64-bit word. -/
def sgn64 (n : Nat) : Int := if n ≥ 2 ^ 63 then (n : Int) - 2 ^ 64 else n

/-- Table 8.8: the new value from the old one and the operand bytes. -/
def atomNew (fn old : Nat) (d : List Byte) : Nat :=
  let a := natOf (d.take 8)
  let b := natOf (d.drop 8)
  match fn with
  | 0 => (old + a) % 2 ^ 64
  | 1 => a
  | 2 => if old = a then b else old
  | 3 => old &&& a
  | 4 => old ||| a
  | 5 => old ^^^ a
  | 6 => if sgn64 old ≥ sgn64 a then old else a
  | 7 => if sgn64 old ≤ sgn64 a then old else a
  | 8 => max old a
  | _ => min old a

/-- Deliver a MSG to its ring (R266). -/
def State.deliver (s : State) (q : Nat) (m : ReqMsg) : State × Nat × List Byte :=
  let h := msgHalf m
  let x := (s.fctxOf h q).raw
  let c : Page := .comb h
  let prod := s.getF c (R.comb.MRX_PROD_PROD.ix q)
  let size := 2 ^ bits x 227 224
  if (prod + 2 ^ 32 - s.getF c (R.comb.MRX_CONS_CONS.ix q)) % 2 ^ 32 = size then
    (s.fabEvt h 12 m.sfid.toNat m.tag.toNat { status := 0xC, detail := 0x9A }, 0xC, [])
  else
    let slot := bytesOf 2 m.sfid.toNat ++ bytesOf 2 m.stag.toNat ++ bytesOf 1 m.len.toNat ++ bytesOf 3 0 ++ bytesOf 4 prod ++
      bytesOf 4 0 ++ m.data
    let s := s.ringOut h none (bits x 153 152) (bits x 223 160 + 256 * (prod % size)) (padTo 256 slot)
    ((s.addWrap c (R.comb.MRX_PROD_PROD.ix q) 1).addSem (bits x 255 240) 1, 0, [])

/-- Execute an admitted request: state, status, response data. -/
def State.execReq (s : State) (h : Half) (q : Nat) (m : ReqMsg) : State × Nat × List Byte :=
  let a := m.addr.toNat
  if m.opc = 1 then s.lineOp h .fabric false a 0 [] m.len.toNat .none
  else if m.opc = 2 then
    let r := s.lineOp h .fabric true a 0 m.data m.len.toNat .none
    (r.1, r.2.1, [])
  else if m.opc = 3 then
    let r := s.lineOp h .fabric false a 0 [] 8 .none
    if r.2.1 ≠ 0 then (r.1, r.2.1, [])
    else
      let w := r.1.lineOp h .fabric true a 0 (bytesOf 8 (atomNew m.fn.toNat (natOf r.2.2) m.data)) 8 .none
      (w.1, w.2.1, r.2.2)
  else s.deliver q m

/-- Response to a request. -/
def State.rspTo (s : State) (m : ReqMsg) (status : Nat) (dup retry : Bool) (data : List Byte) : RspMsg :=
  { opc := m.opc ||| 0x80, dfid := m.sfid, sfid := BitVec.ofNat 16 s.ownFid, tag := m.tag, dup := dup, epoch := m.epoch,
    len := BitVec.ofNat 8 data.length, status := BitVec.ofNat 8 status, retry := retry, hops := 8, rsvd := 0, data := data }

/-- Entries of a half's result cache. -/
def State.rcUse (s : State) (h : Half) : Nat := (s.rcache.filter (fun e => e.half = h)).length

/-- A result-cache entry is for the sender, session and tag of a request (R270). -/
def State.rcKey (s : State) (m : ReqMsg) (e : RcEnt) : Bool :=
  let ses := match s.entry m.sfid.toNat with
    | some e => e.2.session
    | none => 0
  e.half = s.reqHome m && e.sfid = m.sfid.toNat && e.session = ses && e.tag = m.tag.toNat

/-- The entry of an exactly-once request with its outcome, or while it executes. -/
def State.rcPut (s : State) (m : ReqMsg) (done : Bool) (status : Nat) (data : List Byte) : State :=
  let e : RcEnt :=
    { half := s.reqHome m, sfid := m.sfid.toNat, tag := m.tag.toNat, epoch := m.epoch.toNat, done := done, status := status, data := data,
      session := match s.entry m.sfid.toNat with
        | some e => e.2.session
        | none => 0 }
  { s with rcache := s.rcache.filter (fun e => !s.rcKey m e) ++ [e] }

/-- How far the epoch of the entry of a request is ahead of its own, modulo 2^16; none without an entry. -/
def State.rcAhead (s : State) (m : ReqMsg) : Option (Nat × RcEnt) :=
  (s.rcache.find? (s.rcKey m)).map (fun e => ((e.epoch + 65536 - m.epoch.toNat) % 65536, e))

/-- An exactly-once request executes now: no entry answers or discards it, and one can be had. -/
def State.rcRuns (s : State) (m : ReqMsg) : Bool :=
  match s.rcAhead m with
  | some x => decide (x.1 > 32767)
  | none => decide (s.rcUse (s.reqHome m) < 131072)

/-- Execute a request and answer it. -/
def State.execAnswer (s : State) (h : Half) (q : Nat) (m : ReqMsg) : State × Option RspMsg :=
  let r := s.execReq h q m
  (if m.once then r.1.rcPut m true r.2.1 (r.2.2.take 8) else r.1, some (r.1.rspTo m r.2.1 false false r.2.2))

/-- Serve a request at its destination: the state and the response; none where a copy is discarded. -/
def State.serve (s : State) (arr : Option PortId) (h : Half) (m : ReqMsg) : State × Option RspMsg :=
  if badReq m then (s, some (s.rspTo m 2 false false []))
  else
    match s.partFor arr h m with
    | none =>
      (s.fabEvt h 10 m.sfid.toNat m.tag.toNat { status := 3, detail := 0x96 }, some (s.rspTo m 3 false false []))
    | some q =>
      if !m.once || s.rcRuns m then s.execAnswer h q m
      else
        let dup := s.addSat (.comb (s.reqHome m)) R.comb.DUP_CNT_COUNT 1
        match s.rcAhead m with
        | some x =>
          if x.1 = 0 && x.2.done then
            -- beyond the 8 bytes that the entry holds, the data of an RD is open (assumption 18)
            let n := if m.opc = 1 && x.2.status = 0 then m.len.toNat else x.2.data.length
            let data := (x.2.data ++ (List.range (n - x.2.data.length)).map (fun i => Config.freeAt s.fresh i)).take n
            (dup.drawn 1, some (s.rspTo m x.2.status true false data))
          else (dup, none)
        | none =>
          let hm := s.reqHome m
          ((s.fabEvt hm 4 m.sfid.toNat m.tag.toNat { status := 0xC, detail := 0x99 }).addSat (.comb hm) R.comb.RETRY_CNT_COUNT 1,
            some (s.rspTo m 0xC false true []))

/-- The request executes, and its stack controller holds it (04 R123). -/
def State.reqHeld (s : State) (arr : Option PortId) (h : Half) (m : ReqMsg) : Bool :=
  !badReq m && m.opc ≠ 4 && s.holds [(m.addr.toNat, m.len.toNat)] && (s.partFor arr h m).isSome && (!m.once || s.rcRuns m)

/-- A request waits in its controller; an exactly-once one counts as executing (R270). -/
def State.holdReq (s : State) (x : Held) (m : ReqMsg) : State :=
  let s := s.hold x
  if m.once then s.rcPut m false 0 [] else s

/-- A held request no longer waits. -/
def State.rcFree (s : State) (m : ReqMsg) : State :=
  if m.once then { s with rcache := s.rcache.filter (fun e => e.done || !s.rcKey m e) } else s

/-! ## The source: completion (R265, R268) -/

/-- DETAIL that a failed response maps to. -/
def respDetail (st : Nat) : Nat :=
  match st with
  | 0xA => 0x90 | 4 => 0x92 | 0xB => 0x95 | 3 => 0x96 | 0xC => 0x9A | 7 => 0x9C | _ => 0x9F

/-- Take a completed message off its remote COPY: a read's bytes are written, the bytes counted, the first failure kept. -/
def State.copyDone (s : State) (h : Half) (q slot addr : Nat) (m : ReqMsg) (st detail : Nat) (data : List Byte) : State :=
  match s.rcopies.find? (fun c => c.half = h && c.q = q && c.slot = slot) with
  | none => s
  | some c =>
    let s := if st = 0 && m.opc = 1 then s.memWrite h .dma (bits c.raw 405 404) addr data else s
    let c' := if st = 0 then { c with out := c.out - 1, bytes := c.bytes + m.len.toNat }
      else { c with out := c.out - 1, todo := [], fail := if c.fail.isSome then c.fail else some (st, detail) }
    { s with rcopies := s.rcopies.map (fun e => if e = c then c' else e) }

/-- Write the record of a command (R265) and advance CONS. -/
def State.cmdDone (s : State) (h : Half) (p slot st detail info : Nat) : State :=
  let x := s.fctxOf h p
  match x.fly.find? (fun c => c.slot = slot) with
  | none => s
  | some c =>
    let clog := bits x.raw 135 132
    let flog := bits x.raw 131 128
    let phase := if x.ci / 2 ^ clog % 2 = 0 then 1 else 0
    let r := bytesOf 1 st ++ bytesOf 1 (0x80 + bits c.raw 7 0) ++ bytesOf 1 phase ++ bytesOf 1 detail ++
      bytesOf 4 (bits c.raw 351 320) ++ bytesOf 2 slot ++ bytesOf 6 0 ++ bytesOf 8 info ++ bytesOf 8 (s.freeAhead 0)
    let s := (s.drawn 1).ringOut h none (bits x.raw 151 150) (bits x.raw 127 64 + 32 * (x.ci % 2 ^ clog)) r
    let m := 2 ^ flog
    let fin := sadd x.fin slot
    let cons := x.cons
    let n := consRun fin.length m cons fin
    let gone := (List.range ((n + m - cons) % m)).map (fun k => (cons + k) % m)
    let s := s.setFctx h p { x with fly := x.fly.filter (fun e => e.slot ≠ slot), fin := fin.filter (fun e => !gone.contains e),
                                    ci := x.ci + 1 }
    if st ≠ 0 || bit c.raw 13 then s.raiseVec (fnOf (bits x.raw 147 147)) (bits x.raw 146 136) else s

/-- A request completes: its tag is free, its owner has the outcome. -/
def State.reqDone (s : State) (tag st detail : Nat) (data : List Byte) : State :=
  match s.reqs.find? (fun e => e.1 = tag) with
  | none => s
  | some e =>
    let s := { s with reqs := merase s.reqs tag }
    match e.2.owner with
    | .copy h q slot addr => s.copyDone h q slot addr e.2.msg st detail data
    | .cmd h p slot => s.cmdDone h p slot st detail (if st = 0 then natOf data else 0)

/-! ## The source: sending (R259, R267) -/

/-- What fails a request of tag stag at once, from the entry of its target (R247, R251, R255). -/
def entryFails (e : PEntry) (stag opc : Nat) (once : Bool) : Option (Nat × Nat) :=
  if e.st = ptINCOMPAT then some (0xB, 0x95)
  else if e.st = ptDARK then some (4, 0x93)
  else if e.st ≠ ptACTIVE then none
  else if !e.tags.contains stag then some (3, 0x97)
  else if (once && (e.ver < 0x11 || !bit e.caps 0)) || (opc = 3 && !bit e.caps 7) || (opc = 4 && !bit e.caps 6) then
    some (0xB, 0x95)
  else none

def State.updReq (s : State) (tag : Nat) (f : FReq → FReq) : State :=
  { s with reqs := s.reqs.map (fun e => if e.1 = tag then (e.1, f e.2) else e) }

/-- The half whose tag it is. -/
def tagHalf (tag : Nat) : Half := if tag < 16384 then .A else .B

/-- Send a request on a usable candidate, another than the one it left by where there is one; else it waits (R273). -/
def State.sendReq (s : State) (tag : Nat) (again quiet : Bool) : State :=
  match s.reqs.find? (fun e => e.1 = tag) with
  | none => s
  | some e =>
    let r := e.2
    let f := r.msg.dfid.toNat
    let m := if again then { r.msg with re := true } else r.msg
    let way := match s.route f (r.port.map portOf) (some r.part) false with
      | some p => some p
      | none => s.route f none (some r.part) false
    match way with
    | some p => (s.updReq tag (fun r => { r with msg := m, port := some p.no, retry := false })).post p (.req m)
    | none =>
      let s := s.updReq tag (fun r => { r with port := none, retry := false, msg := m })
      if quiet then s else s.fabEvt (tagHalf tag) 7 f tag { status := 0xA, detail := 0x90 }

/-- The lowest free tag of a half (assumption 17). -/
def State.freeTag (s : State) (h : Half) : Option Nat :=
  ((List.range 16384).map (fun i => 16384 * halfNo h + i)).find? (fun t => !mhas s.reqs t)

/-- A request of the device to itself: served locally (R248). -/
def State.answerOwn (s : State) (h : Half) (tag : Nat) (m : ReqMsg) : State :=
  let r := s.serve none h m
  match r.2 with
  | some a =>
    if a.retry then r.1.updReq tag (fun r => { r with retry := true })
    else r.1.reqDone tag a.status.toNat (if a.status = 0 then 0 else respDetail a.status.toNat) a.data
  | none => r.1

def State.serveOwn (s : State) (h : Half) (tag : Nat) (m : ReqMsg) : State :=
  if s.reqHeld none h m then s.holdReq (.own h tag m) m else s.answerOwn h tag m

/-- Issue a request under a tag: it fails at once, waits for a session or a candidate, or leaves. -/
def State.issueAs (s : State) (h : Half) (part : Nat) (o : Owner) (m : ReqMsg) (tag : Nat) : State :=
  let ep := (mget 0 s.epochs tag + 1) % 65536
  let m := { m with sfid := BitVec.ofNat 16 s.ownFid, tag := BitVec.ofNat 15 tag, epoch := BitVec.ofNat 16 ep,
                    stag := BitVec.ofNat 16 ((s.partTag part).getD 0), hops := 8, rsvd := 0, re := false }
  let fid := m.dfid.toNat
  let s := { s with
    epochs := mset 0 s.epochs tag ep
    reqs := mput s.reqs tag { msg := m, part := part, owner := o, port := none, touched := false, retry := false } }
  if s.fidOf = none then s.reqDone tag 0xA 0x90 []
  else if s.partTag part = none then s.reqDone tag 3 0x97 []
  else if s.isOwn fid then s.serveOwn h tag m
  else
    match s.entry fid with
    | some e =>
      let s := s.useEntry e.1
      match entryFails e.2 m.stag.toNat m.opc.toNat m.once with
      | some f => s.reqDone tag f.1 f.2 []
      | none => if e.2.st = ptACTIVE then s.sendReq tag false false else s
    | none =>
      if s.partners.any (fun e => e.2.fid = fid) then s.reqDone tag 3 0x9E []
      else
        match s.openSession h fid with
        | (some t, _) => t
        | (none, t) => t.reqDone tag 0xC 0x98 []

/-- A request message, its identity aside. -/
def reqOf (opc fid addr len fn : Nat) (once : Bool) (data : List Byte) : ReqMsg :=
  { opc := BitVec.ofNat 8 opc, dfid := BitVec.ofNat 16 fid, sfid := 0, tag := 0, once := once, epoch := 0,
    len := BitVec.ofNat 8 len, stag := 0, addr := BitVec.ofNat 52 addr, fn := BitVec.ofNat 4 fn, re := false, hops := 8,
    rsvd := 0, data := data }

/-- Requests that wait are judged by their target's entry and sent where a candidate is usable. -/
def State.sendWaiting (s : State) : State :=
  foldOver s.reqs (fun e s =>
    if e.2.port.isSome || e.2.retry then s
    else
      match s.entry e.2.msg.dfid.toNat with
      | some t =>
        match entryFails t.2 e.2.msg.stag.toNat e.2.msg.opc.toNat e.2.msg.once with
        | some f => s.reqDone e.1 f.1 f.2 []
        | none => if t.2.st = ptACTIVE then s.sendReq e.1 e.2.msg.re true else s
      | none => s) s

/-! ## Remote COPY (R262) -/

/-- The next message of a remote COPY where it may issue one. -/
def State.copyStep (h : Half) (q slot : Nat) (t : Nat × Nat × Nat) (s : State) : State :=
  match s.rcopies.find? (fun c => c.half = h && c.q = q && c.slot = slot), s.freeTag h with
  | some c, some tag =>
    if c.todo.isEmpty || c.out ≥ 1024 || (bits c.raw 401 400 ≠ 3 && s.holds [(t.1, t.2.2)]) then s
    else
      let c' := { c with todo := c.todo.tail, out := c.out + 1 }
      let s := { s with rcopies := s.rcopies.map (fun e => if e = c then c' else e) }
      let fid := bits c.raw 431 416
      if bits c.raw 401 400 = 3 then
        s.issueAs h c.part (.copy h q slot t.1) (reqOf 1 fid t.2.1 t.2.2 0 false []) tag
      else
        let r := s.memRead h .dma (bits c.raw 405 404) t.1 t.2.2
        if r.2.1 ≠ 0 then
          { r.1 with rcopies := r.1.rcopies.map (fun e =>
              if e = c' then { c' with todo := [], out := c.out, fail := some (c.fail.getD (r.2.1, 0)) } else e) }
        else r.1.issueAs h c.part (.copy h q slot t.1) (reqOf 2 fid t.2.1 t.2.2 0 (bit c.raw 432) r.2.2) tag
  | _, _ => s

def State.pumpCopies (s : State) : State :=
  foldOver s.rcopies (fun c s => foldOver c.todo (fun t s => s.copyStep c.half c.q c.slot t) s) s

/-- A COPY of which every issued message has completed is done. -/
def State.finishCopies (s : State) : State :=
  foldOver s.rcopies (fun c s =>
    if c.todo.isEmpty && c.out = 0 then
      let f := c.fail.getD (0, 0)
      ({ s with rcopies := s.rcopies.filter (fun e => e ≠ c) }).updDesc c.half c.q c.slot (·.finish f.1 f.2 c.bytes)
    else s) s

/-! ## Fabric command rings (R265) -/

/-- Failing checks of a command entry of partition p (R86, Table 8.10). -/
def State.cmdFails (s : State) (h : Half) (p raw : Nat) : Option Nat :=
  let op := bits raw 7 0
  let fn := bits raw 11 8
  let addr := bits raw 83 32
  let len := bits raw 283 276
  let l : List (Bool × Nat) :=
    [(op ≠ 3 && op ≠ 4, 0x80),
     (bits raw 15 14 ≠ 0 || bits raw 95 84 ≠ 0 || bits raw 319 284 ≠ 0 || bits raw 511 352 ≠ 0, 0x81),
     ((op = 3 && (decide (fn ≥ 10) || len ≠ 0 || (fn ≠ 2 && bits raw 223 160 ≠ 0))) ||
        (op = 4 && (len = 0 || decide (len > 128) || addr / 2 ≠ 0)), 0x82),
     ((op = 3 && addr % 8 ≠ 0) || (op = 4 && !decide (bits raw 275 224 + len ≤ 2 ^ 52)), 0x83),
     (op = 4 && !s.inWindows h p (bits raw 275 224) len, 0x86)]
  (l.filterMap (fun e => if e.1 then some e.2 else none)).min?

/-- Start the next entry that waits where a tag is free and fewer than 64 run. -/
def State.cmdStep (h : Half) (p : Nat) (s : State) : State :=
  let x := s.fctxOf h p
  match x.todo, s.freeTag h with
  | c :: t, some tag =>
    if x.fly.length ≥ 64 then s
    else
      let s := s.setFctx h p { x with todo := t, fly := x.fly ++ [c] }
      match s.cmdFails h p c.raw with
      | some d =>
        (s.denySpans h p d [(bits c.raw 275 224, bits c.raw 283 276)]).cmdDone h p c.slot (if d ≤ 0x83 then 2 else 3) d 0
      | none =>
        let fid := bits c.raw 31 16
        let once := bit c.raw 12
        if bits c.raw 7 0 = 3 then
          let fn := bits c.raw 11 8
          let data := bytesOf 8 (bits c.raw 159 96) ++ (if fn = 2 then bytesOf 8 (bits c.raw 223 160) else [])
          s.issueAs h p (.cmd h p c.slot) (reqOf 3 fid (bits c.raw 83 32) data.length fn once data) tag
        else
          let n := bits c.raw 283 276
          let r := s.memRead h .dma 0 (bits c.raw 275 224) n
          if r.2.1 ≠ 0 then r.1.cmdDone h p c.slot r.2.1 0 0
          else r.1.issueAs h p (.cmd h p c.slot) (reqOf 4 fid (bits c.raw 83 32) n 0 once r.2.2) tag
  | _, _ => s

def State.pumpCmds (s : State) : State :=
  foldOver s.fctx (fun e s => foldOver e.2.todo (fun _ s => s.cmdStep (halfOf (e.1 / 8)) (e.1 % 8)) s) s

/-- Everything that a change of the fabric's state lets go on goes on. -/
def State.settle (s : State) : State := s.sendWaiting.pumpCopies.pumpCmds.finishCopies.pumpColls

/-! ## Ends from outside -/

/-- Requests to a partner end (R257, R274). -/
def State.endRequests (s : State) (fid st detail : Nat) : State :=
  foldOver (s.reqs.filter (fun e => e.2.msg.dfid.toNat = fid)) (fun e s => s.reqDone e.1 st detail []) s

/-- A descriptor ends from outside: its messages, and its collective with COLL_ABORT to the members. -/
def State.dropRemote (s : State) (h : Half) (q slot : Nat) : State :=
  let s := { s with
    rcopies := s.rcopies.filter (fun c => !(c.half = h && c.q = q && c.slot = slot))
    hreads := s.hreads.filter (fun e => !(e.2.half = h && e.2.q = q && e.2.slot = slot))
    reqs := s.reqs.filter (fun e =>
      match e.2.owner with
      | .copy h' q' slot' _ => !(h' = h && q' = q && slot' = slot)
      | .cmd _ _ _ => true) }
  foldOver (s.colls.filter (fun c => c.half = h && c.q = q && c.slot = slot)) (fun c s => s.abortColl c) s

/-- The fabric commands of a partition end with a status (R282): those that run and those that wait. -/
def State.endCmds (s : State) (p st : Nat) : State :=
  foldOver [Half.A, Half.B] (fun h s =>
    let x := s.fctxOf h p
    if !s.loaded h p then s
    else
      let s := { s with reqs := s.reqs.filter (fun e =>
        match e.2.owner with
        | .cmd h' p' _ => !(h' = h && p' = p)
        | .copy _ _ _ _ => true) }
      let s := s.setFctx h p { x with todo := [], fly := x.fly ++ x.todo }
      foldOver (x.fly ++ x.todo) (fun c s => s.cmdDone h p c.slot st 0 0) s) s

end Sys2Proof.Machine
end

