-- ==== Sys2Proof/Machine/FabCmds.lean ====
section
/-! DEFINITION. The commands of the fabric (08): messages that arrive, waggles and sessions, transit, answers, timeouts, contexts and
command rings; and what becomes of messages held when a link's hold fails. -/

namespace Sys2Proof.Machine

/-! ## Transit (R261) -/

def hopsOf : FabMsg → Nat
  | .req m => m.hops.toNat
  | .rsp m => m.hops.toNat
  | .coll m => m.hops.toNat

def setHops (n : Nat) : FabMsg → FabMsg
  | .req m => .req { m with hops := BitVec.ofNat 4 n }
  | .rsp m => .rsp { m with hops := BitVec.ofNat 4 n }
  | .coll m => .coll { m with hops := BitVec.ofNat 4 n }

def dfidOf : FabMsg → Nat
  | .req m => m.dfid.toNat
  | .rsp m => m.dfid.toNat
  | .coll m => m.dfid.toNat

/-- Tag of a message, for a record. -/
def tagOf : FabMsg → Nat
  | .req m => m.tag.toNat
  | .rsp m => m.tag.toNat
  | .coll _ => 0

/-- A request that this device cannot forward draws a NO_ROUTE response; a waggle draws none (R250). -/
def State.answerNoRoute (s : State) (h : Half) (m : FabMsg) : State :=
  match m with
  | .req r => if r.opc = 8 then s else s.sendFree h r.sfid.toNat (.rsp (s.rspTo r 0xA false false []))
  | _ => s

/-- Forward a message that is not for this device. -/
def State.forward (s : State) (p : PortId) (m : FabMsg) : State :=
  let h := p.half
  let c : Page := .comb h
  if hopsOf m ≤ 1 then
    ((s.fabEvt h 6 (dfidOf m) (tagOf m) { status := 0xA, detail := 0x91 }).addSat c R.comb.AGED_CNT_COUNT 1).answerNoRoute h m
  else
    match s.route (dfidOf m) (some p) none (onRsp m) with
    | some q =>
      let s := s.post q (setHops (hopsOf m - 1) m)
      s.set64 c R.comb.XFWD_LO R.comb.XFWD_HI (s.get64 c R.comb.XFWD_LO R.comb.XFWD_HI + 1)
    | none =>
      let s := s.fabEvt h 7 (dfidOf m) (tagOf m) { status := 0xA, detail := 0x90 }
      match m with
      | .req _ => s.answerNoRoute h m
      | .rsp r => if r.opc = 0x10 then s else s.pathLostTo h r.dfid.toNat r.tag.toNat r.epoch.toNat
      | .coll _ => s

/-- A message arrives on a port: taken from the receive buffer; discarded where the device carries no transactions there (R245, R254,
R257), forwarded where it is for another device, else handled. -/
def State.arrive (s : State) (p : PortId) (m : FabMsg) (act : State → State) : State :=
  if !s.answers p.page then s
  else
    let s := s.takeMsg p m
    if s.fidOf = none || !s.carries p then s
    else if s.isOwn (dfidOf m) then act s
    else s.forward p m

/-- TRANSIT_FORWARD. -/
def transitForward (p : PortId) (m : FabMsg) (s : State) : State :=
  if s.isOwn (dfidOf m) then s else s.arrive p m id

/-- Take the first element that satisfies f out of a list. -/
def removeFirst {α : Type} (f : α → Bool) : List α → List α
  | [] => []
  | a :: t => if f a then t else a :: removeFirst f t

/-- A message in transit: sent by neither this device nor the link. -/
def State.isTransit (s : State) (m : FabMsg) : Bool :=
  match m with
  | .req r => !s.isOwn r.sfid.toNat
  | .rsp r => !s.isOwn r.sfid.toNat
  | .coll r => !s.isOwn r.sfid.toNat

/-- TRANSIT_AGE_EXPIRE: of the transit messages that wait in ports of the half, none of whose bytes has left, the first one is
dropped (assumption 17). -/
def transitAgeExpire (h : Half) (s : State) : State :=
  let old := fun (off : Nat) (l : List FabMsg) => (if off = 0 then l else l.drop 1).any s.isTransit
  let drop := fun (off : Nat) (l : List FabMsg) =>
    if off = 0 then removeFirst s.isTransit l else l.take 1 ++ removeFirst s.isTransit (l.drop 1)
  match s.ports.find? (fun e => e.1 / 64 = halfNo h && (old e.2.offReq e.2.txReq || old e.2.offRsp e.2.txRsp)) with
  | none => s
  | some e =>
    let x := e.2
    let x' := if old x.offReq x.txReq then { x with txReq := drop x.offReq x.txReq }
      else { x with txRsp := drop x.offRsp x.txRsp }
    let s := { s with ports := s.ports.map (fun (k : Nat × PortSt) => if k.1 = e.1 then (k.1, x') else k) }
    (s.fabEvt h 5 0 0 {}).addSat (.comb h) R.comb.AGED_CNT_COUNT 1

/-! ## Requests (R263) -/

/-- A request is served, and its response leaves. -/
def State.answer (s : State) (p : PortId) (m : ReqMsg) : State :=
  let r := s.serve (some (s.lead p)) p.half m
  match r.2 with
  | some a => (r.1.sendFree p.half m.sfid.toNat (.rsp a)).settle
  | none => r.1

/-- A request arrives; it is served, or held by its stack controller. -/
def State.request (s : State) (p : PortId) (m : ReqMsg) : State :=
  s.arrive p (.req m) (fun s =>
    if s.reqHeld (some (s.lead p)) p.half m then s.holdReq (.fab p m) m else s.answer p m)

def rd (p : PortId) (m : ReqMsg) (s : State) : State := s.request p { m with opc := 1 }
def wr (p : PortId) (m : ReqMsg) (s : State) : State := s.request p { m with opc := 2 }
def atom (p : PortId) (m : ReqMsg) (s : State) : State := s.request p { m with opc := 3 }
def msg (p : PortId) (m : ReqMsg) (s : State) : State := s.request p { m with opc := 4 }

/-- The opcodes of Table 8.3. -/
def knownOpc (n : Nat) : Bool := [1, 2, 3, 4, 8, 0x10, 0x20, 0x21, 0x22, 0x81, 0x82, 0x83, 0x84].contains n

/-- UNKNOWN_OPC: discarded; answered VERSION where it came on REQ (R250). -/
def unknownOpc (p : PortId) (vcReq : Bool) (m : ReqMsg) (s : State) : State :=
  if knownOpc m.opc.toNat then s
  else if vcReq then
    s.arrive p (.req m) (fun s => s.sendFree p.half m.sfid.toNat (.rsp (s.rspTo m 0xB false false [])))
  else s.arrive p (.rsp { (s.rspTo m 0 false false m.data) with opc := m.opc, dfid := m.dfid, sfid := m.sfid, hops := m.hops }) id

/-! ## Waggles (R254 to R258) -/

/-- A CLASH entry for the sender (R257). -/
def State.makeClash (s : State) (h : Half) (w : Waggle) : State :=
  let s := s.fabEvt h 2 w.fid.toNat 0 { status := 3, detail := 0x9E }
  if s.partners.any (fun e => e.2.st = ptCLASH && e.2.uid = w.uid.toNat) then s
  else
    let r := s.freeIndex
    match r.2 with
    | some i => r.1.setEntry i (entryOf w ptCLASH 0 [] r.1.useNo)
    | none => r.1

/-- What a waggle with the sender's data makes of its entry (R256, R257): the state, and the REASON of a REFUSE, none for ACCEPT. -/
def State.learn (s : State) (h : Half) (w : Waggle) (p : Option PortId) : State × Option Nat :=
  let fid := w.fid.toNat
  let port := match p with
    | some p => [(s.lead p).no]
    | none => []
  let ver := agreed w.vmin.toNat w.vmax.toNat
  let st := if ver.isSome then ptACTIVE else ptINCOMPAT
  let why := if ver.isSome then none else some 0xB
  let evt := fun (s : State) => if ver.isSome then s else s.fabEvt h 1 fid 0 { status := 0xB, detail := 0x95 }
  if s.isOwn fid then (s.makeClash h w, some 3)
  else
    match s.entry fid with
    | some e =>
      let same := e.2.uid = w.uid.toNat || e.2.st = ptOPENING
      if !same && e.2.st = ptACTIVE then (s.makeClash h w, some 3)
      else
        let restarted := same && e.2.st ≠ ptOPENING && e.2.session ≠ w.session.toNat
        let s := if restarted then
            let s := (s.endRequests fid 4 0x93).endColls fid 4 0x93
            { s with rcache := s.rcache.filter (fun r => r.sfid ≠ fid) }
          else s
        let ports := if same && !restarted then port.foldl sadd e.2.ports else port
        (evt (s.setEntry e.1 (entryOf w st (ver.getD 0) ports s.useNo)), why)
    | none =>
      let r := s.freeIndex
      match r.2 with
      | some i => (evt (r.1.setEntry i (entryOf w st (ver.getD 0) port r.1.useNo)), why)
      | none => (r.1.fabEvt h 3 fid 0 { status := 0xC, detail := 0x98 }, some 0xC)

/-- A port leaves every entry: its link has started afresh (R242, R254). -/
def State.forgetPort (s : State) (n : Nat) : State :=
  { s with partners := s.partners.map (fun e => (e.1, { e.2 with ports := e.2.ports.filter (· ≠ n) })) }

/-- Firmware names the port of a new neighbour as candidate 0 where its FID has no valid candidate (R260). -/
def State.firstCand (s : State) (fid n : Nat) : State :=
  if (s.cands fid).isEmpty then { s with transit := mput s.transit fid [128 + n, 0, 0, 0] } else s

/-- HELLO, on a link that is UP. -/
def hello (p : PortId) (w : Waggle) (s : State) : State :=
  let l := s.lead p
  if !(s.answers l.page && s.linkUp l) || s.isBypass l then s
  else
    let s := s.takeMsg l (s.waggleMsg 0 1 w)
    let s := s.updPort l (fun x => { x with hello := true })
    let s := { s with partners := s.partners.map (fun (e : Nat × PEntry) =>
      if e.2.fid = w.fid.toNat then e else (e.1, { e.2 with ports := e.2.ports.filter (· ≠ l.no) })) }
    let r := s.learn l.half w (some l)
    match r.2 with
    | none => (r.1.firstCand w.fid.toNat l.no).settle
    | some 3 => r.1.post l (r.1.waggleMsg w.fid.toNat 8 (r.1.ownWaggle 4 3 none))
    | some _ => r.1.settle

/-- The body of a routed waggle says its kind; the row fixes it. -/
def waggleOf (m : ReqMsg) : FabMsg := .req { m with opc := 8 }

/-- OPEN: the target makes its entry and answers. -/
def openCmd (p : PortId) (m : ReqMsg) (w : Waggle) (s : State) : State :=
  s.arrive p (waggleOf m) (fun s =>
    let r := s.learn p.half w none
    match r.2 with
    | none => (r.1.sendWaggle p.half 3 0 w.fid.toNat).settle
    | some why => (r.1.sendWaggle p.half 4 why w.fid.toNat).settle)

/-- ACCEPT: the source's entry becomes ACTIVE. -/
def accept (p : PortId) (m : ReqMsg) (w : Waggle) (s : State) : State :=
  s.arrive p (waggleOf m) (fun s => if (s.entry w.fid.toNat).isSome then (s.learn p.half w none).1.settle else s)

/-- REFUSE, by its REASON (R256). -/
def refuse (p : PortId) (m : ReqMsg) (w : Waggle) (s : State) : State :=
  s.arrive p (waggleOf m) (fun s =>
    let fid := w.fid.toNat
    match s.entry fid with
    | none => s
    | some e =>
      if !(e.2.st = ptOPENING || e.2.uid = w.uid.toNat) then s
      else if w.reason = 0xB then (s.setEntry e.1 { e.2 with st := ptINCOMPAT }).settle
      else if w.reason = 0xC then ((({ s with partners := merase s.partners e.1 }).endRequests fid 0xC 0x98).endColls fid 0xC 0x98).settle
      else
        let s := (s.setEntry e.1 { e.2 with st := ptCLASH, uid := w.uid.toNat, ports := [] }).fabEvt p.half 2 fid 0
          { status := 3, detail := 0x9E }
        ((s.endRequests fid 3 0x9E).endColls fid 3 0x9E).settle)

/-- DARK: the sender's entry is DARK, its requests and collectives end (R274). -/
def dark (p : PortId) (w : Waggle) (s : State) : State :=
  if !s.answers p.page then s
  else
    let fid := w.fid.toNat
    let s := s.takeMsg p (s.waggleMsg 0 1 w)
    match s.entry fid with
    | none => s
    | some e => (((s.setEntry e.1 { e.2 with st := ptDARK }).endRequests fid 4 0x93).endColls fid 4 0x93).settle

/-- HELLO_TIMEOUT, and each second from there (R254). -/
def helloTimeout (p : PortId) (s : State) : State :=
  let l := s.lead p
  if s.answers l.page && s.linkUp l && !(s.port l).hello && !s.isBypass l then (s.fabEvt l.half 0 0 0 {}).sendHello l else s

/-- OPEN_REPEAT of an entry in OPENING. -/
def openRepeat (h : Half) (fid : BitVec 16) (s : State) : State :=
  match s.entry fid.toNat with
  | some e => if e.2.st = ptOPENING then s.sendWaggle h 2 0 fid.toNat else s
  | none => s

/-! ## Answers (R250, R268, R269, R272) -/

/-- Find the request a response belongs to. -/
def State.matching (s : State) (m : RspMsg) : Option FReq :=
  match s.reqs.find? (fun e => e.1 = m.tag.toNat) with
  | some e => if e.2.msg.epoch = m.epoch then some e.2 else none
  | none => none

/-- A response arrives: RSVD and LEN checked, matched by TAG and EPOCH, the request completed; a RETRY waits for RETRY_RESEND. -/
def State.response (s : State) (p : PortId) (m : RspMsg) : State :=
  s.arrive p (.rsp m) (fun s =>
    let n := m.len.toNat
    let lenOk := n = m.data.length && (if m.opc = 0x81 then decide (n ≤ 128) else if m.opc = 0x83 then n = 8 || (n = 0 && m.status ≠ 0)
      else n = 0)
    if m.rsvd ≠ 0 || !lenOk then s
    else
      match s.matching m with
      | some r =>
        if r.msg.opc ||| 0x80 ≠ m.opc then s.fabEvt p.half 9 m.sfid.toNat m.tag.toNat {}
        else if m.retry then s.updReq m.tag.toNat (fun r => { r with retry := true })
        else if m.opc = 0x81 && m.status = 0 && m.data.length ≠ r.msg.len.toNat then s
        else
          let st := m.status.toNat
          (s.reqDone m.tag.toNat st (if st = 0 then 0 else respDetail st) m.data).settle
      | none => s.fabEvt p.half 9 m.sfid.toNat m.tag.toNat {})

def rdData (p : PortId) (m : RspMsg) (s : State) : State := s.response p { m with opc := 0x81 }
def wrAck (p : PortId) (m : RspMsg) (s : State) : State := s.response p { m with opc := 0x82 }
def atomRsp (p : PortId) (m : RspMsg) (s : State) : State := s.response p { m with opc := 0x83 }
def msgAck (p : PortId) (m : RspMsg) (s : State) : State := s.response p { m with opc := 0x84 }

/-- A request may be sent again (R269). -/
def mayResend (m : ReqMsg) : Bool := m.opc = 1 || m.opc = 2 || m.once

/-- The source of a request sends it again, or completes it: it is not sent again more than 50 ms after its first issue, which is a free
value here (assumption 1). -/
def State.resendOwn (s : State) (tag : Nat) (m : ReqMsg) : State :=
  let s := s.updReq tag (fun r => { r with touched := true })
  if !mayResend m then s.reqDone tag 4 0x92 []
  else if m.once && s.freeAhead 0 % 2 = 1 then s.drawn 1
  else (if m.once then s.drawn 1 else s).sendReq tag true false

/-- PATH_LOST: the source sends again on another candidate, or completes LINK_LOST. -/
def pathLost (p : PortId) (m : RspMsg) (s : State) : State :=
  let m := { m with opc := 0x10 }
  s.arrive p (.rsp m) (fun s =>
    match s.matching m with
    | some r => (s.resendOwn m.tag.toNat r.msg).settle
    | none => s.fabEvt p.half 9 m.sfid.toNat m.tag.toNat {})

/-- A message that a port held when its hold failed (R269, R273). -/
def State.resendHeld (s : State) (p : PortId) (m : FabMsg) : State :=
  match m with
  | .req r =>
    if r.opc = 8 then s
    else if s.isOwn r.sfid.toNat then
      match s.reqs.find? (fun e => e.1 = r.tag.toNat && e.2.msg.epoch = r.epoch) with
      | some _ => s.resendOwn r.tag.toNat r
      | none => s
    else if !mayResend r then s.pathLostTo p.half r.sfid.toNat r.tag.toNat r.epoch.toNat
    else
      match s.route r.dfid.toNat (some p) none false with
      | some q => s.post q (.req { r with re := true })
      | none => s.pathLostTo p.half r.sfid.toNat r.tag.toNat r.epoch.toNat
  | .rsp r =>
    match s.route r.dfid.toNat (some p) none true with
    | some q => s.post q (.rsp r)
    | none => if r.opc = 0x10 then s else s.pathLostTo p.half r.dfid.toNat r.tag.toNat r.epoch.toNat
  | .coll _ => s

/-- The hold of a port fails: what it holds goes back to the transaction layer. -/
def State.resendAll (s : State) (p : PortId) : State :=
  let x := s.port p
  let l := x.msgs.map (·.2) ++ x.txReq ++ x.txRsp
  let s := s.setPort p { x with msgs := [], txReq := [], txRsp := [], offReq := 0, offRsp := 0, flits := [], replay := none }
  (foldOver l (fun m s => s.resendHeld p m) s).settle

/-- REQUEST_TIMEOUT (R268). -/
def State.expire (s : State) (tag : Nat) : State :=
  match s.reqs.find? (fun e => e.1 = tag) with
  | none => s
  | some e =>
    let f := e.2.msg.dfid.toNat
    if !s.isOwn f && (s.route f none (some e.2.part) false).isNone then s.reqDone tag 0xA 0x90 []
    else if e.2.touched then s.reqDone tag 4 0x92 []
    else s.reqDone tag 5 0x94 []

def requestTimeout (tag : BitVec 15) (s : State) : State := (s.expire tag.toNat).settle

/-- RETRY_RESEND of a request that has drawn a RETRY; late: 50 ms after its first issue have passed. -/
def retryResend (tag : BitVec 15) (late : Bool) (s : State) : State :=
  match s.reqs.find? (fun e => e.1 = tag.toNat) with
  | some e =>
    if !e.2.retry then s
    else if late then (s.reqDone tag.toNat 0xC 0x99 []).settle
    else if s.isOwn e.2.msg.dfid.toNat then
      ((s.updReq tag.toNat (fun r => { r with retry := false })).serveOwn (tagHalf tag.toNat) tag.toNat e.2.msg).settle
    else s.sendReq tag.toNat true false
  | none => s

def resultCacheExpire (h : Half) (sfid : BitVec 16) (session : BitVec 32) (tag : BitVec 15) (s : State) : State :=
  { s with rcache := s.rcache.filter (fun e =>
      !(e.half = h && e.sfid = sfid.toNat && e.session = session.toNat && e.tag = tag.toNat && e.done)) }

/-- FAB_TMO: 1 to 10,000 ms; requests whose new limit has passed expire at once. -/
def fabTmo (_m : Master) (h : Half) (value : Word) (passed : List (BitVec 15)) (s : State) : State :=
  let ms := bits value.toNat 13 0
  if !s.answers (.comb h) || !(decide (1 ≤ ms) && decide (ms ≤ 10000)) then s
  else
    (foldOver (passed.filter (fun t => tagHalf t.toNat = h)) (fun t s => s.expire t.toNat)
      (s.setF (.comb h) R.comb.FAB_TMO_MS ms)).settle

/-! ## Contexts and command rings (R264, R265) -/

/-- The checks of R83 over the fields of a fabric context of partition p. -/
def State.fctxOk (s : State) (h : Half) (p raw : Nat) : Bool :=
  let ring := fun (sp base n : Nat) => sp ≠ 3 && base % 4096 = 0 && (sp ≠ 0 || (decide (base < 2 ^ 52) && s.inWindows h p base n))
  let fl := bits raw 131 128
  let cl := bits raw 135 132
  let ml := bits raw 227 224
  decide (4 ≤ fl ∧ fl ≤ 12) && decide (fl ≤ cl ∧ cl ≤ 12) && decide (4 ≤ ml ∧ ml ≤ 15) && bits raw 159 154 = 0 &&
    bits raw 239 228 = 0 && bits raw 511 320 = 0 && bits raw 319 256 % 64 = 0 &&
    ring (bits raw 149 148) (bits raw 63 0) (64 * 2 ^ fl) && ring (bits raw 151 150) (bits raw 127 64) (32 * 2 ^ cl) &&
    ring (bits raw 153 152) (bits raw 223 160) (256 * 2 ^ ml)

/-- A command or message of partition p is in flight on a half (R264): an entry of its ring waits or runs, or a request is
outstanding. -/
def State.ctxBusy (s : State) (h : Half) (p : Nat) : Bool :=
  !((s.fctxOf h p).fly.isEmpty && (s.fctxOf h p).todo.isEmpty) || s.reqs.any (fun r => r.2.part = p && tagHalf r.1 = h)

/-- PF_CTX_LOAD: a write of PF_CTX_LO; LOAD = 1 reads the context. -/
def pfCtxLoad (_m : Master) (h : Half) (p : Fin 8) (value : Word) (s : State) : State :=
  let c : Page := .comb h
  if !s.answers c then s
  else
    let s := s.setF c (R.comb.PF_CTX_LO_ADDR.ix p.val) (bits value.toNat 31 6)
    if !bit value.toNat 0 then s
    else if s.ctxBusy h p.val then s.stateErr c
    else
      let a := s.getF c (R.comb.PF_CTX_LO_ADDR.ix p.val) * 64 + s.getF c (R.comb.PF_CTX_HI_ADDR.ix p.val) * 2 ^ 32
      let r := s.memRead h .dma 0 a 64
      let raw := natOf r.2.2
      let s := { r.1 with fctx := merase r.1.fctx (8 * halfNo h + p.val) }
      if r.2.1 ≠ 0 || !s.fctxOk h p.val raw then s.fabEvt h 13 0 0 { status := 2, parts := 2 ^ p.val }
      else s.setFctx h p.val { fctxInit with raw := raw }

/-- The entries from slot k on, n of them, as the ring's space gives them; host space by one read. -/
def State.readCmds (s : State) (h : Half) (raw k n : Nat) (hr : HostRead) : State × List FCmd :=
  let m := 2 ^ bits raw 131 128
  if bits raw 149 148 = 0 then
    (List.range n).foldl (fun (acc : State × List FCmd) i =>
      let r := acc.1.memRead h .dma 0 (bits raw 63 0 + 64 * ((k + i) % m)) 64
      (r.1, acc.2 ++ [⟨(k + i) % m, natOf r.2.2⟩])) (s, [])
  else
    match hr with
    | .data b => (s, (List.range (min n (b.length / 64))).map (fun i => ⟨(k + i) % m, natOf ((b.drop (64 * i)).take 64)⟩))
    | _ => (s, [])

/-- FCR_DB: a new tail; the entries that it posts are read and started. -/
def fcrDb (_m : Master) (h : Half) (p : Fin 8) (value : Word) (hr : HostRead) (s : State) : State :=
  let c : Page := .comb h
  if !s.answers c then s
  else if !s.loaded h p.val then s.stateErr c
  else
    let x := s.fctxOf h p.val
    let t := bits value.toNat 15 0
    let m := 2 ^ bits x.raw 131 128
    if t ≥ m then s.fabEvt h 13 0 0 { parts := 2 ^ p.val }
    else
      let r := s.readCmds h x.raw x.next ((t + m - x.next) % m) hr
      (r.1.setFctx h p.val { x with tail := t, next := (x.next + r.2.length) % m, todo := x.todo ++ r.2 }).settle

end Sys2Proof.Machine
end

