-- ==== Sys2Proof/Machine/KxCore.lean ====
section
/-! DEFINITION. Key agreement of a link, as far as the link layer starts it (13 R409, R410). -/

namespace Sys2Proof.Machine

def State.updKx (s : State) (p : PortId) (f : KxSt → KxSt) : State := s.updPort p (fun x => { x with kx := f x.kx })

/-- This end requires encryption on the port (R409). -/
def State.encReq (s : State) (p : PortId) : Bool := bit (s.getF .sec (R.sec.ENC_REQ_PORTS.ix (p.no / 32))) (p.no % 32)

/-- This end's OE and the partner's TRN_PARAM have the capability, and the keeper can take part (R402, R403). -/
def State.canEnc (s : State) (p : PortId) : Bool :=
  s.die 0 = .up && s.sec.puf && s.sec.cert &&
  s.isSet (.oe p.half p.oe) R.oe.BLK_CAP_AES_GCM && (match (s.port p).trn with | some t => t.enc | none => false)

/-- The chain a key message carries: the identity certificate and the alias certificate (R403). -/
def State.chain (s : State) : List Byte :=
  (if Config.shake256 s.nv.prim.cert = Config.idCertHash then s.nv.prim.cert else s.nv.mirr.cert) ++ Config.aliasCert

/-- ENC_ON of a port. -/
def State.setEncOn (s : State) (p : PortId) (on : Bool) : State :=
  let f := { R.sec.ENC_ON_PORTS.ix (p.no / 32) with hi := p.no % 32, lo := p.no % 32 }
  s.setF .sec f (if on then 1 else 0)

/-- The agreement counts as refused (R410). -/
def State.kxRefused (s : State) (p : PortId) : State :=
  let st := (s.port p).kx.st
  let s := s.updKx p (fun k => { k with st := if k.st = 6 || k.st = 7 then 8 else 4, secret := 0 })
  if [1, 2, 6, 7].contains st then
    (s.addSat .sec R.sec.KX_CNT_FAIL 1).err .sec 10
  else s

/-- The local message but for its signature: kind, UID, port, nonce, public share, C, and in an initial agreement the chain
(assumption 19). -/
def State.kxBody (s : State) (p : PortId) (kind secret c : Nat) : List Byte :=
  bytesOf 1 kind ++ bytesOf 8 Config.uid.toNat ++ bytesOf 2 p.no ++ (List.range 32).map (Config.freeAt s.fresh) ++
    padTo 56 (Config.x448Pub secret) ++ bytesOf 8 c ++
    (if kind = 0 then bytesOf 2 s.chain.length ++ s.chain else bytesOf 2 0)

/-- Queue the fragments from index i on (Table 13.7). -/
def State.kxFrags (s : State) (p : PortId) (kind : Nat) : State :=
  let k := (s.port p).kx
  let n := (k.msg.length + 11) / 12
  foldOver ((List.range n).drop k.acked) (fun i s =>
    s.sendCtl p 0x20 (bytesOf 1 kind ++ bytesOf 2 i ++ padTo 12 ((k.msg.drop (12 * i)).take 12))) s

/-- Start an agreement: nonce, secret and switch count are drawn, the message goes out in fragments. A rekey's count is at least 65,536
ahead (R414), an initial one 16 flits (assumption 19). -/
def State.kxStart (s : State) (p : PortId) (kind : Nat) : State :=
  let k := (s.port p).kx
  let secret := s.freeAhead 1 + 1
  let c := k.cntTx + if kind = 0 then 16 else 65536
  let body := s.kxBody p kind secret c
  let s := s.updKx p (fun k => { k with
    st := if kind = 0 then 1 else 6, secret := secret, body := body, msg := body ++ Config.sign 0 body, acked := 0, got := 0, sentSw := false,
    gotSw := false, cTx := c, cRx := 0, nextTx := 0, nextRx := 0 })
  (s.drawn 2).kxFrags p kind

/-- A fresh start of a link: its keys are gone; where this end requires encryption the agreement runs, or cannot (R409). -/
def State.kxFresh (s : State) (p : PortId) : State :=
  let s := (s.updKx p (fun _ => kxInit)).setEncOn p false
  if !s.encReq p then s
  else if s.canEnc p then s.kxStart p 0
  else (s.updKx p (fun k => { k with st := 5 })).err .sec 10

/-- A resume: an agreement in progress starts again (R410). -/
def State.kxResume (s : State) (p : PortId) : State :=
  let st := (s.port p).kx.st
  if st = 1 || st = 2 then s.kxStart p 0 else if st = 6 || st = 7 then s.kxStart p 1 else s

end Sys2Proof.Machine
end

