-- ==== Sys2Proof/Machine/Link.lean ====
section
/-! DEFINITION. The link layer (07): receiving, acknowledgement, replay, link down and hold, training, sleep and wake. -/

namespace Sys2Proof.Machine

/-! ## Link down and hold (R240 to R242) -/

/-- Table 7.8: the cause keeps the hold. -/
def keepsHold (cause : Nat) : Bool := cause ≠ 5 && cause ≠ 9 && cause ≠ 0xB

/-- Requests that left by a port are touched by its drop (08 R268). -/
def State.touchPort (s : State) (n : Nat) : State :=
  { s with reqs := s.reqs.map (fun e => if e.2.port = some n then (e.1, { e.2 with touched := true }) else e) }

/-- Show a value on every member of a link. -/
def State.setMembers (s : State) (p : PortId) (f : Fld) (n : Nat) : State :=
  foldOver (s.bondOf p) (fun m s => s.setF m.page f n) s

/-- A full link reset begins with the optical retrain of each open port, which shows SEARCHING until LINK_TRAIN has run it (R219, Table 6.14). -/
def State.retrainOptics (s : State) (ms : List PortId) : State :=
  foldOver ms (fun m s =>
    if [3, 4, 5].contains (s.getF m.page R.oport.BLK_STS_OSTATE) then
      (s.updPort m (fun x => { x with retrain := true })).setF m.page R.oport.BLK_STS_OSTATE 2
    else s) s

/-- The side that takes a link down sends training blocks on every lane (R240). -/
def State.sendBlocks (s : State) (p : PortId) (n : Nat) : State := s.emit (.training p ((List.range n).map trainBlock))

/-- The link of a port leaves UP or ASLEEP for state st with a cause: Table 7.8 decides the hold. -/
def State.linkDownTo (s : State) (p : PortId) (cause st : Nat) : State :=
  let p := s.lead p
  if !(s.lstate p = 2 || s.lstate p = 3) then s
  else
    let hold := keepsHold cause && !s.isSet p.page R.oport.LINK_CTL_HOLD_DIS
    let s := if st = 1 then
        let w := s.getF p.page R.oport.PORT_STS_WIDTH
        (foldOver (s.bondOf p) (fun m s => s.sendBlocks m w) s).retrainOptics (s.bondOf p)
      else s
    let s := s.setMembers p R.oport.LINK_STS_LSTATE st
    let s := (s.setMembers p R.oport.LINK_STS_CAUSE cause).setMembers p R.oport.PORT_STS_UP 0
    let s := (s.setMembers p R.oport.PORT_STS_WIDTH 0).addSat p.page R.oport.DOWN_CNT_DOWNS 1
    let s := s.updPort p (fun x => { x with
      replay := none, rpCount := 0, nakOut := false, nakFor := none, ctl := [], asleep := false, sleepOk := false, sleepFor := false,
      waking := false, stale := false, unlock := [], hoRx := none, fails := 0, resets := 1, trn := none, trnW := 0,
      trnRes := none })
    let s := (s.linkEvt p 0).linkEvt p 1
    let s := s.touchPort p.no
    if hold then (s.setMembers p R.oport.LINK_STS_HELD 1).setMembers p R.oport.LINK_STS_HOLD_US 5000
    else s.resendAll p

/-- The link goes down and runs a full link reset. -/
def State.linkDown (s : State) (p : PortId) (cause : Nat) : State := s.linkDownTo p cause 1

/-- The hold ends without a resume. -/
def State.holdFail (s : State) (p : PortId) : State :=
  ((s.setMembers p R.oport.LINK_STS_HELD 0).setMembers p R.oport.LINK_STS_HOLD_US 0).resendAll p

def State.isHeldLink (s : State) (p : PortId) : Bool := s.isSet p.page R.oport.LINK_STS_HELD

def holdExpire (p : PortId) (s : State) : State :=
  let p := s.lead p
  if s.answers p.page && s.isHeldLink p then (s.linkEvt p 3).holdFail p else s

/-! ## Sending (R214, R233, R234) -/

/-- The next flit of a replay: the same flit with the same number, from the OE, or as its slot of the spill ring holds it; a read that fails is
R235's. -/
def State.sendReplay (s : State) (p : PortId) (k : Nat) : State :=
  let f := keptFlit (((s.port p).flits.find? (fun f => f.seq = k)).getD ⟨k, false, [], 0, 0⟩)
  let (s, st, f) := match (if s.onOe p k then none else s.slotOf p k) with
    | some a =>
      let r := s.memRead p.half .dma 0 a 256
      (r.1, r.2.1, (hdrOf r.2.2, (r.2.2.drop 12).take 240))
    | none => (s, 0, f)
  if st ≠ 0 then s.linkDown p 0xB
  else
    let s := s.emitFlit p (s.hdrNow p f.1.kind k f.1.plen 0 f.1.enc) f.2 (s.port p).crcTx
    let n := (k + 1) % 65536
    s.updPort p (fun x => { x with replay := if n = s.txN p then none else some n, ctlGap := x.ctlGap + 1, crcTx := false })

/-- FLIT_SEND: one slot of a link that is UP. -/
def flitSend (p : PortId) (s : State) : State :=
  let p := s.lead p
  let x := s.port p
  if !(s.answers p.page && s.linkUp p) then s
  else if x.alignDue || x.alignGap ≥ 4095 then
    (s.emitFlit p (s.hdrNow p 3 (s.txN p) 0 0 false) [] false).updPort p (fun x => { x with alignDue := false, ctlGap := x.ctlGap + 1 })
  else
    match x.replay with
    | some k => s.sendReplay p k
    | none =>
      let a := s.mayData p (!x.lastRsp)
      let b := s.mayData p x.lastRsp
      if !x.ctl.isEmpty && (!(a || b) || x.ctlGap ≥ 15) then s.sendCtlFlit p
      else if a then s.sendData p (!x.lastRsp)
      else if b then s.sendData p x.lastRsp
      else s.sendCtlFlit p

/-! ## Sleep (R238) and the DIM of an OE (06 R203) -/

def oeKey (h : Half) (o : Nat) : Nat := 8 * halfNo h + o
def oeInit : OeSt :=
  { ho := none, queue := [], dim := false, ceil := false, rings := [], branches := [], uses := [], cross := [], need := [], monLeft := 0 }
def State.oe (s : State) (h : Half) (o : Nat) : OeSt := mget oeInit s.oes (oeKey h o)
def State.setOe (s : State) (h : Half) (o : Nat) (x : OeSt) : State := { s with oes := mset oeInit s.oes (oeKey h o) x }
def State.pstate (s : State) (h : Half) (o : Fin 8) : Nat := s.getF (.oe h o) R.oe.BLK_STS_PSTATE

/-! ### Rings (06 R182 to R190) -/

def ringInit : RingSt :=
  { heater := 0, home := 0, last := 0, odd := false, good := 0, bad := 0, locked := false, parked := false, ofs := 0, seen := [] }
def ringKey (port : Nat) (tx : Bool) (ring : Nat) : Nat := 128 * port + (if tx then 64 else 0) + ring
def State.ring1 (s : State) (h : Half) (o k : Nat) : RingSt := mget ringInit (s.oe h o).rings k
def State.setRing1 (s : State) (h : Half) (o k : Nat) (x : RingSt) : State :=
  s.setOe h o { s.oe h o with rings := mset ringInit (s.oe h o).rings k x }

/-- The RX_MAP byte of a channel. -/
def rxMap (ch : Nat) : Fld :=
  if ch < 16 then { R.oport.RX_MAP_RING.ix (ch / 4) with hi := 8 * (ch % 4) + 7, lo := 8 * (ch % 4) }
  else { R.oport.RX_MAP4_RING with hi := 8 * (ch - 16) + 7, lo := 8 * (ch - 16) }
def State.rxRing (s : State) (p : PortId) (ch : Nat) : Nat := s.getF p.page (rxMap ch)

/-- Show the rings of an OE that are locked, their heaters' power, and the longest update period: 16 engines serve them in turns of 16 µs
(R187; DEDUCED, assumption 85). -/
def State.showRings (s : State) (h : Half) (o : Fin 8) : State :=
  let rs := (s.oe h o.val).rings
  let n := (rs.filter (fun e => e.2.locked)).length
  s.setFs (.oe h o) [(R.oe.OE_CFG_LOCKED, n), (R.oe.LOOP_PERIOD_US, 16 * ((n + 15) / 16)),
    (R.oe.HEATER_PWR_MW, (rs.map (fun e => e.2.heater)).sum / 1000)]

/-- A ring is parked midway between two channels: at a free heater power up to 30 mW. -/
def State.parkRing (s : State) (h : Half) (o k : Nat) : State :=
  (s.setRing1 h o k { ringInit with heater := s.freeAhead 0 % 30001, home := (s.ring1 h o k).home, parked := true }).drawn 1

/-- The eight ports of an OE. -/
def oePorts (h : Half) (o : Fin 8) : List PortId := (List.range 8).map (fun k => ⟨h, Fin.ofNat 64 (8 * o.val + k)⟩)

/-- A DIM that is requested comes once no port of the OE is UP and no hand-over runs (Tables 6.10, 6.11); ASLEEP ports show DIM. -/
def State.dimCheck (s : State) (h : Half) (o : Fin 8) : State :=
  let x := s.oe h o.val
  if x.dim && x.ho.isNone && s.pstate h o = 3 && (oePorts h o).all (fun p => s.lstate p ≠ 2) then
    let s := (s.setOe h o.val { x with dim := false }).setF (.oe h o) R.oe.BLK_STS_PSTATE 2
    foldOver (oePorts h o) (fun p s => if s.lstate p = 3 then s.setF p.page R.oport.BLK_STS_OSTATE 5 else s) s
  else s

/-- Nothing waits and nothing is unacknowledged. -/
def State.txIdle (s : State) (p : PortId) : Bool :=
  (s.port p).txReq.isEmpty && (s.port p).txRsp.isEmpty && s.txA p = s.txN p

def State.goAsleep (s : State) (p : PortId) : State :=
  ((s.setMembers p R.oport.LINK_STS_LSTATE 3).updPort p (fun x =>
    { x with asleep := false, sleepOk := false, sleepFor := false, stale := false })).dimCheck p.half p.oe

/-- The steps of the sleep exchange that an acknowledgement may allow: answer SLEEP_ACK and sleep; sleep with SLEEP_ACK held. -/
def State.sleepCheck (s : State) (p : PortId) : State :=
  let x := s.port p
  if s.lstate p ≠ 2 then s
  else if x.sleepFor && s.txIdle p then ((s.sendCtl p 8 []).sendCtlFlit p).goAsleep p
  else if x.asleep && x.sleepOk && s.txA p = s.txN p then s.goAsleep p
  else s

def sleepReq (p : PortId) (s : State) : State :=
  let p := s.lead p
  if s.answers p.page && s.lstate p = 2 then (s.updPort p (fun x => { x with sleepFor := true })).sleepCheck p else s

def sleepAck (p : PortId) (s : State) : State :=
  let p := s.lead p
  if s.answers p.page && s.lstate p = 2 && (s.port p).asleep then
    (s.updPort p (fun x => { x with sleepOk := true })).sleepCheck p
  else s

/-- LINK_WAKE: the link is UP again, ALIGN flits are sent, and one is awaited. An end with a flit to send sends the wake pattern first. A DIM OE
wakes before its links do (06 R204). -/
def linkWake (p : PortId) (s : State) : State :=
  let p := s.lead p
  let x := s.port p
  if s.answers p.page && s.lstate p = 3 && s.pstate p.half p.oe ≠ 2 then
    let s := if x.txReq.isEmpty && x.txRsp.isEmpty then s else foldOver (s.bondOf p) (fun m s => s.emit (.wake m)) s
    let s := s.setMembers p R.oport.LINK_STS_LSTATE 2
    let s := foldOver (s.bondOf p) (fun m s => if s.getF m.page R.oport.BLK_STS_OSTATE = 5 then
      s.setF m.page R.oport.BLK_STS_OSTATE 3 else s) s
    s.updPort p (fun x => { x with alignDue := true, waking := true })
  else s

def sleepWakeTimeout (p : PortId) (s : State) : State :=
  let p := s.lead p
  if s.answers p.page && s.lstate p = 2 && (s.port p).waking then (s.linkEvt p 9).linkDown p 0xA else s

/-! ## Acknowledgement and replay (R230 to R233) -/

/-- Start a replay at number k. A 17th in a row from one A takes the link down instead. -/
def State.startReplay (s : State) (p : PortId) (k : Nat) : State :=
  let x := s.port p
  if dist16 (s.txA p) k ≥ dist16 (s.txA p) (s.txN p) then s
  else
    let n := if x.rpStart = k then x.rpCount + 1 else 1
    if n > 16 then s.linkDown p 4
    else
      let spill := !(x.flits.drop (x.flits.length - s.oeKeep p)).any (fun f => f.seq = k)
      let s := s.addSat p.page R.oport.REPLAY_CNT_TOTAL 1
      let s := if spill then s.addSat p.page R.oport.REPLAY_CNT_SPILL 1 else s
      s.updPort p (fun x => { x with replay := some k, rpStart := k, rpCount := n })

/-- An ACK value a: the flits before it are released. -/
def State.takeAck (s : State) (p : PortId) (a : Nat) : State :=
  let o := s.txA p
  let n := s.txN p
  let d := dist16 o a
  if d = 0 then s
  else if d > dist16 o n then s.linkEvt p 7
  else
    let s := s.updPort p (fun x => { x with
      flits := x.flits.filter (fun f => dist16 o f.seq ≥ d)
      msgs := x.msgs.filter (fun e => dist16 o e.1 ≥ d)
      rpCount := 0
      replay := match x.replay with
        | some k => if dist16 o k < d then (if a = n then none else some a) else some k
        | none => none })
    (s.setTx p a n).sleepCheck p

/-- A NAK carrying e: an ACK of e, then a replay from e. One for a number that a running replay has not reached lets it go on; one for the number at
which the last replay began is ignored while that lies less than a round trip plus 4 µs back, which is a free choice (assumption 1). -/
def State.takeNak (s : State) (p : PortId) (e : Nat) : State :=
  let s := s.takeAck p e
  let x := s.port p
  if dist16 (s.txA p) e ≥ dist16 (s.txA p) (s.txN p) then s
  else if x.rpStart = e && (x.rpCount > 0 || x.replay.isSome) then
    if s.freeAhead 0 % 2 = 0 then s.drawn 1 else (s.drawn 1).startReplay p e
  else
    match x.replay with
    | some k => if dist16 (s.txA p) k ≤ dist16 (s.txA p) e then s else s.startReplay p e
    | none => s.startReplay p e

/-- Update the ACK field to E. -/
def State.ackNow (s : State) (p : PortId) : State :=
  let e := s.rxE p
  s.updPort p (fun x => { x with ackOut := e, sinceAck := 0 })

/-- A discarded flit draws a NAK of E, once until the guard of R232 has passed, which is a free value (assumption 1). -/
def State.drawNak (s : State) (p : PortId) : State :=
  let e := s.rxE p
  let again := (s.port p).nakFor = some e
  let quiet := again && s.freeAhead 0 % 2 = 0
  let s := if again then s.drawn 1 else s
  if quiet then s
  else ((s.ackNow p).updPort p (fun x => { x with nakOut := true, nakFor := some e })).addSat p.page R.oport.NAK_CNT_COUNT 1

def ackUpdateTimer (p : PortId) (s : State) : State :=
  let p := s.lead p
  if s.answers p.page && s.linkUp p && (s.port p).sinceAck > 0 then s.ackNow p else s

def replayTimeout (p : PortId) (s : State) : State :=
  let p := s.lead p
  if s.answers p.page && s.linkUp p && s.txA p ≠ s.txN p then s.startReplay p (s.txA p) else s

/-- SPILL_READ: an uncorrectable error drops the link and its hold; what was unacknowledged goes to the transaction layer as lost. -/
def spillRead (p : PortId) (ue : Bool) (s : State) : State :=
  let p := s.lead p
  if s.answers p.page && ue then s.linkDown p 0xB else s

/-! ## Receiving (R223 to R232) -/

/-- The link is narrow (R210): fewer than 16 channels a direction, and not bonded. -/
def State.narrow (s : State) (p : PortId) : Bool :=
  s.getF p.page R.oport.PORT_STS_WIDTH ≠ 16 && (s.bondOf p).length = 1

/-- Count a received flit in the window; the 17th bad flit of a narrow window takes the link down (R239). -/
def State.countFlit (s : State) (p : PortId) (bad : Bool) : State :=
  let n := s.getF p.page R.oport.CRC_WIN_FLITS + 1
  let s := if bad then (s.addSat p.page R.oport.CRC_WIN_BAD 1).addSat p.page R.oport.CRC_CNT_COUNT 1 else s
  let down := bad && s.narrow p && decide (s.getF p.page R.oport.CRC_WIN_BAD ≥ 17)
  let s := s.setF p.page R.oport.CRC_WIN_FLITS n
  let s := if n = 2 ^ 24 then s.setF p.page R.oport.CRC_WIN_BAD 0 else s
  if down then s.linkDown p 3 else s

/-- A data flit in sequence is accepted: E advances, the ACK is updated each 64 flits. `keep` is the bytes it brings; none where the payload
is discarded. -/
def State.acceptFlit (s : State) (p : PortId) (rsp : Bool) (keep : Option Nat) : State :=
  let s := s.setF p.page R.oport.SEQ_RX_EXPECT (s.rxE p + 1)
  let s := s.updPort p (fun x =>
    let k := { x.kx with cntRx := x.kx.cntRx + 1, keyRx := kxKeyRx x.kx, nextRx := if kxKeyRx x.kx = x.kx.nextRx then 0 else x.kx.nextRx }
    let x := { x with sinceAck := x.sinceAck + 1, nakFor := none, kx := k }
    match keep with
    | some n => if rsp then { x with rxRsp := x.rxRsp ++ [n] } else { x with rxReq := x.rxReq ++ [n] }
    | none => x)
  let s := s.showRx p
  if (s.port p).sinceAck ≥ 64 then s.ackNow p else s

/-- The key check of a data flit (13 R413): it is sound, or its tag fails, or it is plain where keys are in force. -/
def State.tagOk (s : State) (p : PortId) (x : FlitHdr) (flit : List Byte) (inj : Bool) : Bool :=
  let k := (s.port p).kx
  let key := kxKeyRx k
  if x.enc then !inj && key ≠ 0 && (Config.unseal key k.cntRx (aad flit ++ (flit.drop 12).take 240)).isSome
  else key = 0

/-- Counts of a received flit, and what the header of a good one says: XOFF bits, ACK or NAK. A bad flit draws a NAK. -/
def State.takeHeader (s : State) (p : PortId) (good : Bool) (x : FlitHdr) : State :=
  let s := s.countFlit p !good
  if !s.linkUp p then s
  else if !good then s.drawNak p
  else
    let s := s.updPort p (fun x => { x with stale := false })
    let s := (s.setMembers p R.oport.LINK_STS_XOFF_REQ (if x.xReq then 1 else 0)).setMembers p R.oport.LINK_STS_XOFF_RSP
      (if x.xRsp then 1 else 0)
    if x.nak then s.takeNak p x.ack else s.takeAck p x.ack

/-- PLEN of a data flit is in its range (Table 7.1). -/
def plenOk (x : FlitHdr) : Bool := decide (1 ≤ x.plen) && decide (x.plen ≤ (if x.enc then 224 else 240))

/-- A flit in sequence finds its buffer full (R227). -/
def State.noRoom (s : State) (p : PortId) (x : FlitHdr) : Bool :=
  x.kind < 2 && plenOk x && dist16 (s.rxE p) x.seq = 0 &&
    decide ((if x.kind = 1 then (s.port p).rxRsp else (s.port p).rxReq).length ≥ s.rxCap p)

/-- A good data flit: by its number, accepted, a duplicate, or ahead; the key check before it counts (R229, 13 R413). -/
def State.takeData (s : State) (p : PortId) (x : FlitHdr) (flit : List Byte) : State :=
  let d := dist16 (s.rxE p) x.seq
  let inj := x.enc && s.armed .sec 11
  let s := if inj then s.disarm .sec else s
  let fails := !s.tagOk p x flit inj
  if d ≥ 32768 then s.addSat p.page R.oport.DUP_CNT_COUNT 1
  else if d ≠ 0 then s.drawNak p
  else if fails then ((s.addSat .sec R.sec.TAG_FAIL_CNT_COUNT 1).err .sec 11 { inj := inj }).drawNak p
  else if !plenOk x then (s.acceptFlit p (x.kind = 1) none).linkEvt p 4
  else s.acceptFlit p (x.kind = 1) (some x.plen)

/-- DATA_FLIT_RECEIVE on a link that is UP; the flit is what its lanes bring once they are descrambled. Nothing of a bad flit is used, nor of one that
finds its buffer full. -/
def dataFlitReceive (p : PortId) (flit : List Byte) (s : State) : State :=
  let p := s.lead p
  if !(s.answers p.page && s.linkUp p) then s
  else
    let x := hdrOf flit
    let good := flitGood flit
    let drop := good && (s.port p).dropRx && x.kind < 2
    let full := good && !drop && s.noRoom p x
    let s := if drop then s.updPort p (fun x => { x with dropRx := false }) else s
    let s := if full then s.linkEvt p 13 else s
    let use := good && !drop && !full
    let s := s.takeHeader p use x
    if !s.linkUp p || !use || x.kind ≥ 2 then s else s.takeData p x flit

def refreshLost (p : PortId) (s : State) : State :=
  let p := s.lead p
  if s.answers p.page && s.linkUp p then (s.updPort p (fun x => { x with stale := true })).linkEvt p 10 else s

def xoffTimeout (p : PortId) (s : State) : State :=
  let p := s.lead p
  if s.answers p.page && s.linkUp p &&
      (s.isSet p.page R.oport.LINK_STS_XOFF_REQ || s.isSet p.page R.oport.LINK_STS_XOFF_RSP || (s.port p).stale) then
    s.linkDown p 5
  else s

/-- The channel of a lane in the LANE_TX or LANE_RX registers. -/
def laneFld (f : Fld) (i : Nat) : Fld := { f.ix (i / 4) with hi := 8 * (i % 4) + 7, lo := 8 * (i % 4) }
def State.laneCh (s : State) (p : PortId) (f : Fld) (i : Nat) : Nat := s.getF p.page (laneFld f i)

/-- Receive lanes that carry channel n. -/
def State.lanesOf (s : State) (p : PortId) (f : Fld) (n : Nat) : List Nat :=
  (List.range 16).filter (fun i => s.laneCh p f i = n)

/-- The receiver takes a moving lane from its spare and says so in three CTL flits, naming an index of at most 1,023, a free value; its ring of the channel
it leaves is parked (Table 6.7). -/
def State.switchRx (s : State) (p : PortId) (n sp : Nat) : State :=
  let s := foldOver (s.lanesOf p R.oport.LANE_RX_CH n) (fun i s => s.setF p.page (laneFld R.oport.LANE_RX_CH i) sp) s
  let rx := s.getF p.page R.oport.PORT_RX_CH_RX
  let s := s.setF p.page R.oport.PORT_RX_CH_RX (if bit rx n then (rx - 2 ^ n) ||| 2 ^ sp else rx ||| 2 ^ sp)
  let b := bytesOf 1 0 ++ bytesOf 1 n ++ bytesOf 1 sp ++ bytesOf 2 (s.freeAhead 0 % 1024)
  let s := (s.drawn 1).updPort p (fun x => { x with hoRx := none })
  let s := if s.rxRing p n < 24 then s.parkRing p.half p.oe.val (ringKey (p.i.val % 8) false (s.rxRing p n)) else s
  let s := (s.setF p.page (rxMap n) 0xFF).showRings p.half p.oe
  ((s.sendCtl p 4 b).sendCtl p 4 b).sendCtl p 4 b

/-- What an ALIGN flit does to a member's receive move that waits: a good one switches it, else HO_FAIL asks for another (R237). -/
def State.moveAtAlign (s : State) (m : PortId) (good : Bool) : State :=
  match (s.port m).hoRx with
  | none => s
  | some e => if good then s.switchRx m e.1 e.2 else s.sendCtl m 5 (bytesOf 1 0 ++ bytesOf 1 e.1 ++ bytesOf 1 e.2)

/-- ALIGN_FLIT: every lane's descrambler restarts, lanes whose bits do not match are out of lock, receive moves that wait switch, and the header of a
good one counts as any other's. `lanes` is what the lanes bring. -/
def alignFlit (p : PortId) (lanes : List (List Nat)) (s : State) : State :=
  let l := s.lead p
  if !(s.answers p.page && s.linkUp l) then s
  else
    let n := s.lanesUp l
    let w := s.getF l.page R.oport.PORT_STS_WIDTH
    let flit := offLanes n 0 lanes
    let good := flitGood flit && (hdrOf flit).kind = 3
    let ms := s.bondOf l
    let s := foldOver ((List.range ms.length).zip ms) (fun e s =>
      (s.updPort e.2 (fun x => { x with unlock := (List.range w).filter (fun i => !laneInLock n flit (16 * e.1 + i)) })).moveAtAlign e.2 good) s
    let s := if good then s.updPort l (fun x => { x with waking := false }) else s
    s.takeHeader l good (hdrOf flit)

/-- LOCK_LOSS_TIMEOUT: on a full or bonded link the lane takes the link down, unless its duplicate absorbs it (R239). -/
def lockLossTimeout (p : PortId) (lane : Fin 16) (s : State) : State :=
  let l := s.lead p
  if !(s.answers p.page && s.linkUp l) || s.narrow l || s.laneCh p R.oport.LANE_RX_CH lane.val = 0xFF then s
  else
    match (s.port p).hoRx with
    | some e => if s.laneCh p R.oport.LANE_RX_CH lane.val = e.1 then s.switchRx p e.1 e.2 else s.linkDown l 2
    | none => s.linkDown l 2

def partnerTrainingBlocks (p : PortId) (s : State) : State := if s.answers p.page then s.linkDown (s.lead p) 7 else s

/-- RETRAIN_REQ: the same full link reset on this side, with the partner's cause and width bound. -/
def retrainReq (p : PortId) (cause : BitVec 4) (width : Nat) (s : State) : State :=
  let p := s.lead p
  if s.answers p.page && s.linkUp p then
    (s.linkDown p cause.toNat).updPort p (fun x => { x with trnW := if [4, 8, 16].contains width then width else 0 })
  else s

/-- LINK_INJ, ignored while the security page disables injection (R244). -/
def dropRx (_m : Master) (p : PortId) (s : State) : State :=
  if s.answers p.page && !s.isSet .sec R.sec.SEC_CTL_INJ_DIS then s.updPort (s.lead p) (fun x => { x with dropRx := true }) else s

def crcTx (_m : Master) (p : PortId) (s : State) : State :=
  if s.answers p.page && !s.isSet .sec R.sec.SEC_CTL_INJ_DIS then s.updPort (s.lead p) (fun x => { x with crcTx := true }) else s

/-! ## Training (R216 to R222, R242) -/

/-- TRN_PARAM: recorded; on a link that is UP it brings the partner's link token of a fresh start (assumption 20). -/
def trnParam (p : PortId) (x : TrnParam) (s : State) : State :=
  if !s.answers p.page then s
  else if s.lstate p = 1 then s.updPort p (fun y => { y with trn := some x })
  else if s.lstate p = 2 then s.updPort p (fun y => { y with ptoken := x.token })
  else s

/-- TRN_ECHO: returned unchanged at once. -/
def trnEcho (p : PortId) (v : Word) (s : State) : State :=
  if s.answers p.page && s.lstate p = 1 then s.trainMsg p 0x11 (bytesOf 1 0 ++ bytesOf 4 v.toNat) else s

def trnDone (p : PortId) (w : Nat) (resume : Bool) (s : State) : State :=
  if s.answers p.page && s.lstate p = 1 then
    s.updPort p (fun y => { y with trnW := if [4, 8, 16].contains w then w else y.trnW, trnRes := some resume })
  else s

/-- A training fails: once more from step 1, then a full link reset, and after three failed resets in a row WAITING (R222). -/
def State.trainFail (s : State) (p : PortId) : State :=
  let x := s.port p
  if x.fails = 0 then s.updPort p (fun x => { x with fails := 1 })
  else if x.resets ≥ 3 then
    ((s.setMembers p R.oport.LINK_STS_LSTATE 4).updPort p (fun x => { x with fails := 0, resets := 0 })).linkEvt p 6
  else ((s.updPort p (fun x => { x with fails := 0, resets := x.resets + 1, trn := none, trnW := 0, trnRes := none })).linkEvt p 1).retrainOptics
    (s.bondOf p)

def trainStepTimeout (p : PortId) (s : State) : State :=
  let p := s.lead p
  if s.answers p.page && s.lstate p = 1 then s.trainFail p else s

/-- A port in WAITING starts again with a full link reset. -/
def State.leaveWaiting (s : State) (p : PortId) : State :=
  (((s.setMembers p R.oport.LINK_STS_LSTATE 1).updPort p (fun x =>
    { x with fails := 0, resets := 1, trn := none, trnW := 0, trnRes := none })).linkEvt p 1).retrainOptics (s.bondOf p)

def waitingExpiry (p : PortId) (s : State) : State :=
  let p := s.lead p
  if s.answers p.page && s.lstate p = 4 then s.leaveWaiting p else s

/-- CONTROL_REQUEST_REPEAT: what has had no answer is sent again (R236). A SLEEP_REQ is one; a hand-over or a substitution repeats its
request as `repeatReq` says. -/
def State.repeatSleep (s : State) (p : PortId) : State :=
  if s.linkUp p && (s.port p).asleep && !(s.port p).sleepOk then s.sendCtl p 7 [] else s

end Sys2Proof.Machine
end

