-- ==== Sys2Proof/Machine/Attach.lean ====
section
/-! DEFINITION. Links between dies (05): lanes and spares, UCIe modules, the propolis firewall. -/

namespace Sys2Proof.Machine

/-- INFO of a record: bundle or module, lane that failed, lanes left. -/
def State.laneInfo (s : State) (l : DieLink) (lane : Nat) : List Byte :=
  bytesOf 1 (instNo (dlPage l)) ++ bytesOf 1 lane ++ bytesOf 1 (68 - (s.dl l).failed.length)

/-! ## Lanes (R158 to R160) -/

/-- Lane replaced by each of the four spares, 0xFF for none, as SPARE_MAP shows it. -/
def State.spareMap (s : State) (l : DieLink) : List Nat :=
  let v := s.getF (dlPage l) R.dlink.SPARE_MAP_LANES
  (List.range 4).map (fun i => v / 256 ^ i % 256)

/-- The spares (lanes 64 to 67) that are good and not in use. -/
def freeSpares (failed map : List Nat) : List Nat :=
  (List.range 4).filter (fun i => nth 0xFF map i = 0xFF && !failed.contains (64 + i))

/-- Show spares: SPARE_MAP, the receive spares left, and at the other end of a bundle the transmit spares left. -/
def State.showSpares (s : State) (l : DieLink) (map : List Nat) : State :=
  let p := dlPage l
  let left := (freeSpares (s.dl l).failed map).length
  let s := (s.setF p R.dlink.SPARE_MAP_LANES (natOf (map.map (BitVec.ofNat 8)))).setF p R.dlink.LANE_STS_RX_SPARES left
  match l with
  | .hinge h b => s.setF (dlPage (farEnd h b)) R.dlink.LANE_STS_TX_SPARES left
  | .ucie _ _ => s

/-- Count a lane as failed. -/
def State.noteLane (s : State) (l : DieLink) (lane : Nat) : State :=
  let x := s.dl l
  s.setDl l { x with failed := sadd x.failed lane, charge := merase x.charge lane }

/-- Give lane the lowest free spare, in the place of a failed spare where it served on one; false where none is free. -/
def assignSpare (failed map : List Nat) (lane : Nat) : List Nat × Bool :=
  let data := if lane < 64 then lane else nth 0xFF map (lane - 64)
  let map := if lane < 64 then map else map.set (lane - 64) 0xFF
  if data = 0xFF then (map, true)
  else
    match freeSpares failed map with
    | i :: _ => (map.set i data, true)
    | [] => (map, false)

/-- The lanes of a link as a start or a full reset leaves them: failed ones counted, spares assigned in ascending lane order (R158). -/
def State.relane (s : State) (l : DieLink) : State :=
  let failed := (s.dl l).failed
  let map := (failed.filter (· < 64)).foldl (fun m k => (assignSpare failed m k).1) [0xFF, 0xFF, 0xFF, 0xFF]
  (s.setF (dlPage l) R.dlink.LANE_STS_FAILED failed.length).showSpares l map

/-- Journal a lane event (assumption 11). -/
def State.laneJournal (s : State) (l : DieLink) (lane : Nat) : State :=
  s.journal 5 (bytesOf 1 (dlKey l) ++ bytesOf 1 lane)

/-- A lane fails in service: a spare takes its place where one is left (the flag), with LANE_SPARED. -/
def State.spareLane (s : State) (l : DieLink) (lane : Nat) : State × Bool :=
  let map := s.spareMap l
  let s := (s.noteLane l lane).laneJournal l lane
  let s := s.addSat (dlPage l) R.dlink.LANE_STS_FAILED 1
  let r := assignSpare (s.dl l).failed map lane
  let s := s.showSpares l r.1
  (if r.2 then s.err (dlPage l) 11 { cost := 1, info := s.laneInfo l lane } else s, r.2)

/-- Lanes that are good. -/
def State.goodLanes (s : State) (l : DieLink) : List Nat := (List.range 68).filter (fun k => !(s.dl l).failed.contains k)

/-! ## UCIe modules (R161 to R164) -/

/-- Modules of an OE. -/
def oeModules (o : Fin 8) : List (Fin 32) := (List.range 4).map (fun k => Fin.ofNat 32 (4 * o.val + k))
def modOe (k : Fin 32) : Fin 8 := Fin.ofNat 8 (k.val / 4)

/-- The key of a port's branch of laser n. -/
def branchKey (p : PortId) (n : Nat) : Nat := 18 * (p.i.val % 8) + n

/-- Open or close branches of an OE. -/
def State.openBranches (s : State) (h : Half) (o : Fin 8) (l : List Nat) : State :=
  let x := s.oe h o.val
  s.setOe h o.val { x with branches := l.foldl sadd x.branches }
def State.shutBranches (s : State) (h : Half) (o : Fin 8) (l : List Nat) : State :=
  let x := s.oe h o.val
  s.setOe h o.val { x with branches := x.branches.filter (fun k => !l.contains k) }

/-- Every branch of a port closes. -/
def State.closeBranches (s : State) (p : PortId) : State :=
  let l : Page := .laser p.half p.oe
  let k := p.i.val % 8
  let s := s.shutBranches p.half p.oe ((List.range 18).map (branchKey p))
  if bit (s.getF l R.laser.BRANCH_CLOSED_FIBRE) k then s
  else (s.orF l R.laser.BRANCH_CLOSED_FIBRE (2 ^ k)).emit (.light p false)

/-- A port closes: branches closed, CLOSED, its link down with the cause. -/
def State.closePort (s : State) (p : PortId) (cause : Nat) : State :=
  let s := (s.closeBranches p).updPort p (fun x => { x with probing := false })
  let s := s.linkDownTo p cause 0
  (s.setF p.page R.oport.BLK_STS_OSTATE 0).setMembers p R.oport.LINK_STS_LSTATE 0

/-- A port's registers that the configuration sets: reach, class, spill ring and W_max (06 R183; 07 R217, R218, R228). -/
def State.cfgPort (s : State) (p : PortId) : State :=
  let n := p.no
  let mib := nth 16 (s.cfg.spill.getD []) n
  let size := ((s.bonds.find? (fun b => b.contains n)).map (·.length)).getD 1
  s.setFs p.page [(R.oport.PORT_CFG_REACH, if bit (s.cfg.far.getD 0).toNat n then 1 else 0),
    (R.oport.PORT_CFG_CLASS, if bit (s.cfg.pinned.getD 0).toNat n then 1 else 0),
    (R.oport.LINK_SPILL_SIZE, if mib = 4 then 0 else if mib = 8 then 1 else 2),
    (R.oport.LINK_SPILL_WMAX_SEQ, min 32767 (1024 * size + mib * 4096))]

/-- The eight ports of an OE go down with cause OE. -/
def State.dropOe (s : State) (h : Half) (o : Fin 8) : State := foldOver (oePorts h o) (fun p s => s.closePort p 9) s

/-- An OE die is lost, or fenced: its ports go down and its pages answer no more (01 R30). -/
def State.oeGone (s : State) (h : Half) (o : Fin 8) (st : DieSt) : State := (s.dropOe h o).setDie (dieOe h o) st

/-- An OE all of whose modules are BROKEN or disabled is lost. -/
def State.oeModCheck (s : State) (h : Half) (o : Fin 8) : State :=
  let gone := (oeModules o).all (fun k => s.dlState (.ucie h k) = ucBROKEN || s.dlState (.ucie h k) = ucDISABLED)
  if gone && s.die (dieOe h o) = .up then s.oeGone h o .lost else s

/-- A module goes to a state without a rate. -/
def State.stopModule (s : State) (h : Half) (k : Fin 32) (st : Nat) : State :=
  s.setFs (.ucie h k) [(R.dlink.BLK_STS_STATE, st), (R.dlink.BLK_STS_RATE_ROLE, 0), (R.dlink.BLK_STS_X32, 0)]

/-- A module is BROKEN. -/
def State.breakModule (s : State) (h : Half) (k : Fin 32) : State :=
  let l : DieLink := .ucie h k
  ((s.stopModule h k ucBROKEN).err (dlPage l) 13 { cost := 2, info := s.laneInfo l 0xFF }).oeModCheck h (modOe k)

def ucieBroken (h : Half) (k : Fin 32) (why : BreakCause) (s : State) : State :=
  let l : DieLink := .ucie h k
  let p := dlPage l
  if !(s.answers p && s.dlState l ≠ ucBROKEN && s.dlState l ≠ ucDISABLED) then s
  else
    let s := if why = .credit then s.setF p R.dlink.CREDIT_PEND_US 1000 else s
    let s := if why = .training then s.err p 8 { info := s.laneInfo l 0xFF } else s
    s.breakModule h k

/-- The mainband of a module trains at the width its good lanes allow and the module is ACTIVE, or BROKEN; the time and the eye it finds are
free values. -/
def State.widthModule (s : State) (h : Half) (k : Fin 32) : State :=
  let l : DieLink := .ucie h k
  let p := dlPage l
  let s := s.relane l
  let bad := (s.dl l).failed
  let low := bad.any (· < 32)
  let high := bad.any (fun n => decide (32 ≤ n) && decide (n < 64))
  let s := (s.setFs p [(R.dlink.TRAIN_Q_TRAIN_US, s.freeAhead 0), (R.dlink.TRAIN_Q_EYE_MIN, s.freeAhead 1),
    (R.dlink.CREDIT_PEND_US, 0)]).drawn 2
  if bad.length ≤ 4 then s.setFs p [(R.dlink.BLK_STS_STATE, ucACTIVE), (R.dlink.BLK_STS_X32, 0)]
  else if !(low && high) then
    (s.setFs p [(R.dlink.BLK_STS_STATE, ucACTIVE), (R.dlink.BLK_STS_X32, 1)]).err p 12 { cost := 2, info := s.laneInfo l 0xFF }
  else (s.err p 8 { info := s.laneInfo l 0xFF }).breakModule h k

/-- Mandatory capabilities, of major version 1. Reserved bits that do not read 0 fail too (DESIGN CHOICE, assumption 79). -/
def partOk (x : OePart) : Bool := x.major = 1 && x.cap.toNat % 32 = 31 && x.cap.toNat / 128 = 0

/-- The part a module finds unless another is named: vendor, device, version 1.1, every capability, 32 GT/s (assumption 21). -/
def defaultPart : OePart := { vendor := 0, device := 0, major := 1, minor := 1, cap := 0x7F, rate := 3 }

def State.partAt (s : State) (h : Half) (k : Fin 32) : OePart := mget defaultPart s.parts (32 * halfNo h + k.val)

/-- The modules of an OE that are ACTIVE negotiate with the parts behind them: version, capabilities, one rate for all. A module that fails shows
BROKEN, with NEG_FAIL and without ERR_STS.BROKEN (DESIGN CHOICE, assumption 79). -/
def State.negotiate (s : State) (h : Half) (o : Fin 8) : State :=
  let live := (oeModules o).filter (fun k => s.dlState (.ucie h k) = ucACTIVE)
  let ok := live.filter (fun k => partOk (s.partAt h k) && decide ((s.partAt h k).rate.toNat ≠ 0))
  let rate := ok.foldl (fun r k => min r (s.partAt h k).rate.toNat) 3
  let s := foldOver live (fun k s =>
    let x := s.partAt h k
    let p : Page := .ucie h k
    let s := s.setFs p [(R.dlink.PARTNER_ID_VENDOR, x.vendor.toNat), (R.dlink.PARTNER_ID_DEVICE, x.device.toNat),
      (R.dlink.PARTNER_CAP_MAJOR, x.major.toNat), (R.dlink.PARTNER_CAP_MINOR, min x.minor.toNat 1),
      (R.dlink.PARTNER_CAP_CAPS, x.cap.toNat)]
    if x.rate = 0 then (s.err p 8 { info := s.laneInfo (.ucie h k) 0xFF }).breakModule h k
    else if partOk x then s.setF p R.dlink.BLK_STS_RATE_ROLE rate
    else (s.stopModule h k ucBROKEN).err p 9 { cost := 2, info := s.laneInfo (.ucie h k) 0xFF }) s
  let caps := ok.foldl (fun c k => c &&& (s.partAt h k).cap.toNat) 0x7F
  let far := if bit caps 5 then 1 else 0
  let s := s.setFs (.oe h o) [(R.oe.BLK_CAP_FAR_REACH, far), (R.oe.BLK_CAP_AES_GCM, if bit caps 6 then 1 else 0)]
  let s := foldOver (oePorts h o) (fun p s => s.setF p.page R.oport.BLK_CAP_FAR_OK far) s
  s.oeModCheck h o

/-- The rate of an OE's modules. -/
def State.oeRate (s : State) (h : Half) (o : Fin 8) : Nat :=
  (oeModules o).foldl (fun r k => max r (s.getF (.ucie h k) R.dlink.BLK_STS_RATE_ROLE)) 0

/-- A module trains, then negotiates. -/
def State.trainModule (s : State) (h : Half) (k : Fin 32) : State := (s.widthModule h k).negotiate h (modOe k)

/-- UCIE_DISABLE: a write of EN = 0. -/
def ucieDisable (_m : Master) (h : Half) (k : Fin 32) (s : State) : State :=
  let p : Page := .ucie h k
  if s.answers p && s.isSet p ucieEn then ((s.setF p ucieEn 0).stopModule h k ucDISABLED).oeModCheck h (modOe k) else s

/-- A lane of a module fails (R159, R160); one that fails while the module trains or is reset counts as failed there (R169). -/
def State.moduleLane (s : State) (h : Half) (k : Fin 32) (lane : Nat) : State :=
  let l : DieLink := .ucie h k
  let st := s.dlState l
  if st = ucACTIVE then
    let r := s.spareLane l lane
    if r.2 then r.1 else r.1.trainModule h k
  else if st = ucBROKEN || st = ucDISABLED then s
  else s.noteLane l lane

/-! ## The propolis firewall (R165 to R167) -/

/-- VIOL_CNT of an OE. -/
def violFld (o : Nat) : Fld :=
  if o < 4 then { R.fwall.VIOL_CNT0_COUNT with hi := 8 * o + 7, lo := 8 * o }
  else { R.fwall.VIOL_CNT1_COUNT with hi := 8 * (o - 4) + 7, lo := 8 * (o - 4) }

def State.oeFenced (s : State) (h : Half) (o : Fin 8) : Bool := bit (s.getF (.fwall h) R.fwall.BLK_STS_FENCED_OE) o.val

/-- A violation of an OE that is not fenced: counted, logged, recorded; the 16th fences the OE die. -/
def State.violation (s : State) (h : Half) (o : Fin 8) (kind addr : Nat) (inj : Bool) : State :=
  let p : Page := .fwall h
  if s.oeFenced h o then s
  else
  let n := s.getF p (violFld o.val) + 1
  let s := (s.setF p (violFld o.val) n).setFs p
    [(R.fwall.VIOL_ADDR_LO_ADDR, addr % 2 ^ 32), (R.fwall.VIOL_ADDR_HI_ADDR, addr / 2 ^ 32), (R.fwall.VIOL_INFO_OE, o.val),
     (R.fwall.VIOL_INFO_KIND, kind)]
  let s := s.addSat p R.fwall.VIOL_INFO_TOTAL 1
  let s := s.err p 8 { status := 3, inj := inj }
  if n < 16 then s
  else
    let s := s.orF p R.fwall.BLK_STS_FENCED_OE (2 ^ o.val)
    (s.err p 9 { cost := 4 }).oeGone h o .fenced

/-- A window holds the line of an address. -/
def winLine (w : FwWin) (a : Nat) : Bool :=
  w.valid && decide (w.base.toNat * 4096 ≤ a) && decide (a / 4096 ≤ w.limit.toNat)

/-- OE_REQUEST_CHECK: a request of a fenced OE is dropped without counting. Of the kinds that apply, the first is logged: malformed (3),
forbidden type (2), outside the windows (0), access not allowed (1). A dropped read completes with an error. -/
def oeRequestCheck (h : Half) (o : Fin 8) (r : OeReq) (s : State) : State :=
  let a := r.addr.toNat
  let drop := fun (s : State) => if r.write then s else s.emit (.access h .device 3 [])
  if !s.answers (.fwall h) then s
  else if s.oeFenced h o then drop s
  else if !s.answers (.oe h o) then s
  else
    let ws := ((List.range 17).map (s.fwWin h o.val)).filter (fun w => winLine w a)
    let bad := fun (kind : Nat) => drop (s.violation h o kind a false)
    if r.malformed then bad 3
    else if r.forbidden then bad 2
    else if ws.isEmpty then bad 0
    else if !ws.any (fun w => if r.write then w.wr else w.rd) then bad 1
    else s

/-- The access a window allows by its kind: RX writes, SPILL reads and writes, TXQ reads (Table 5.7). -/
def winKind (win : Nat) (w : FwWin) : FwWin := { w with wr := w.valid && decide (win < 16), rd := w.valid && decide (8 ≤ win) }

def State.setWin (s : State) (h : Half) (o win : Nat) (w : FwWin) : State :=
  { s with fwWins := mset ⟨0, 0, false, false, false⟩ s.fwWins (17 * oeKey h o + win) w }

/-- FIREWALL_WINDOW_CHANGE: refused by firmware while a port of the OE is up (R167). -/
def firewallWindowChange (h : Half) (o : Fin 8) (win : Fin 17) (w : FwWin) (s : State) : State :=
  if !s.answers (.fwall h) || (oePorts h o).any (fun p => s.lstate p = 2 || s.lstate p = 3) then s
  else s.setWin h o.val win.val (winKind win.val w)

/-- A reset of the OE die clears its fence and its count. -/
def State.clearFence (s : State) (h : Half) (o : Fin 8) : State :=
  let p : Page := .fwall h
  let f := s.getF p R.fwall.BLK_STS_FENCED_OE
  (s.setF p (violFld o.val) 0).setF p R.fwall.BLK_STS_FENCED_OE (if bit f o.val then f - 2 ^ o.val else f)

end Sys2Proof.Machine
end

