-- ==== Sys2Proof/Machine/CellCtl.lean ====
section
/-! DEFINITION. Cells outside a program: scrub, retirement, the swap to a spare, cell reset (02 R39, R75 to R79). -/

namespace Sys2Proof.Machine

/-- Move a cell to a state of Table 2.18; READY follows (01 R433). -/
def State.cellState (s : State) (h : Half) (c st : Nat) : State :=
  let p := cellPage h c
  let s := s.setF p R.cell.BLK_STS_STATE st
  let ok := decide (2 ≤ st ∧ st ≤ 4) && !s.isSet p R.hdr.BLK_STS_FENCED && !s.isSet p R.hdr.BLK_STS_RESET_BUSY
  s.setF p R.hdr.BLK_STS_READY (if ok then 1 else 0)

/-- The state of a cell. -/
def State.cst (s : State) (h : Half) (c : Nat) : Nat := s.getF (cellPage h c) R.cell.BLK_STS_STATE

/-- End the part of a cell, if one runs, with a status (02 R92): issue stops, in-flight instructions are aborted. -/
def State.endPartWith (s : State) (h : Half) (c st : Nat) : State :=
  let s := s.abortUnits h c
  let x := s.cell h c
  match x.ctx, x.ended with
  | some k, none =>
    ((s.setCell h c { x with ended := some (st, 0), wait := none }).cellState h c 4).noteFail h k st 0 (s.logicalId h c)
  | _, _ => s

/-- The physical cell that holds logical ID l. -/
def State.physOf (s : State) (h : Half) (l : Nat) : Option Nat :=
  (List.range 72).map (· + 72 * (l / 64)) |>.find? (fun c =>
    s.isSet (cellPage h c) R.cell.CELL_ID_MAPPED && decide (s.logicalId h c = l))

/-- A cell gives up its logical ID and is RETIRED; the retirement is journaled as type 0x01 (R76; assumption 11). -/
def State.retireCell (s : State) (h : Half) (c : Nat) : State :=
  let p := cellPage h c
  let x := s.cell h c
  let s := s.setFs p [(R.cell.CELL_ID_MAPPED, 0), (R.cell.CELL_ID_LOGICAL_ID, 0)]
  let s := { s.setCell h c { x with retire := false, swap := false } with swaps := s.swaps.filter (· ≠ cellKey h c) }
  (s.cellState h c 5).journal 1 (bytesOf 1 (halfNo h) ++ bytesOf 2 c)

/-- CELL_STORE_SCRUB: a corrected error sets CS_CE; an uncorrectable one is fixed fatal (R39, Table 2.15). -/
def cellStoreScrub (h : Half) (c : Fin 288) (_line : Fin 65536) (u : Upset) (s : State) : State :=
  let p := cellPage h c.val
  let st := s.cst h c.val
  if s.answers p && decide (2 ≤ st ∧ st ≤ 4) then
    match u with
    | .none | .tag => s
    | .corrected => s.err p 9
    | .uncorrectable => s.progError h c.val 0xC (s.getF p R.cell.PC)
  else s

/-- RETIRE_REQ: a spare is retired and leaves the pool; a RETIRED cell sets STATE_ERR; any other cell takes no new part
(R76, Table 2.17). -/
def retireReq (_m : Master) (h : Half) (c : Fin 288) (s : State) : State :=
  let p := cellPage h c.val
  if s.answers p then
    match s.cst h c.val with
    | 0 | 1 => s.retireCell h c.val
    | 5 => s.stateErr p
    | _ =>
      let x := s.cell h c.val
      let s := s.setCell h c.val { x with retire := true }
      if x.ctx.isNone then s.queueSwap h c.val else s
  else s

/-- The spares that are tried: those that fail BIST are retired, the first that passes takes the ID, if one is left. -/
def State.trySpares (s : State) (h : Half) (lid : Nat) (bad : List Nat) : List Nat → State
  | [] => s
  | c :: t =>
    if bad.contains c then (s.retireCell h c).trySpares h lid bad t
    else
      let s := s.setCell h c cellInit
      let s := s.setFs (cellPage h c) [(R.cell.CELL_ID_MAPPED, 1), (R.cell.CELL_ID_LOGICAL_ID, lid)]
      s.cellState h c 2

/-- Cell c's swap may start: the cell is idle, and no swap of its die was triggered before and still waits. -/
def State.swapDue (s : State) (h : Half) (c : Nat) : Bool :=
  (s.cell h c).ctx.isNone && !(s.swaps.takeWhile (· ≠ cellKey h c)).any (fun k => k / 72 = cellKey h c / 72)

/-- SWAP_START: Table 2.16, once the cell is idle, in fault order on a die (R79): the cell is fenced and retires, the lowest spare that passes
BIST takes its logical ID with a zeroed store; without a spare the ID becomes absent (R77). -/
def swapStart (h : Half) (c : Fin 288) (bistFail : List (Fin 288)) (s : State) : State :=
  let p := cellPage h c.val
  let x := s.cell h c.val
  if s.answers p && (x.swap || x.retire) && s.swapDue h c.val && s.cst h c.val ≠ 5 && !s.isSet p R.hdr.BLK_STS_RESET_BUSY then
    let lid := s.logicalId h c.val
    let mapped := s.isSet p R.cell.CELL_ID_MAPPED
    let sp := s.spares h (c.val / 72)
    let s := (s.fence p).retireCell h c.val
    if mapped then s.trySpares h lid (bistFail.map (·.val)) sp else s
  else s

/-- A cell reset (R78): the running part ends ABORTED, cell store and tokens are cleared, registers from 0x100 return to their
reset values but for the logical ID and the present clock (assumption 15), an armed injection is cancelled. -/
def State.resetCell (s : State) (h : Half) (c : Nat) : State :=
  let p := cellPage h c
  let id := s.reg (fldAddr p R.cell.CELL_ID_MAPPED)
  let clk := s.reg (fldAddr p R.cell.CELL_CLK_MHZ)
  let s := s.endPartWith h c 9
  let x := s.cell h c
  let s := s.setCell h c { x with cs := [], loops := [] }
  let s := (s.resetBlockRegs p).setF p R.hdr.ERR_INJ 0
  let s := (s.setReg (fldAddr p R.cell.CELL_ID_MAPPED) id).setReg (fldAddr p R.cell.CELL_CLK_MHZ) clk
  s.setFs p [(R.hdr.BLK_STS_RESET_BUSY, 1), (R.hdr.BLK_STS_READY, 0)]

/-- CELL_RESET: while RESET_BUSY is 1 it sets STATE_ERR (01 R33). -/
def cellReset (_m : Master) (h : Half) (c : Fin 288) (s : State) : State :=
  let p := cellPage h c.val
  if s.answers p then
    if s.isSet p R.hdr.BLK_STS_RESET_BUSY then s.stateErr p else s.resetCell h c.val
  else s

end Sys2Proof.Machine
end

