-- ==== Sys2Proof/Machine/Queue.lean ====
section
/-! DEFINITION. Work queues (03): contexts, descriptor checks, dispatch with its arbitration, completion, queue commands and states. -/

namespace Sys2Proof.Machine

/-! ## Partitions (R106) -/

/-- Partition of local queue q, as the half's page shows. -/
def State.partOfQ (s : State) (h : Half) (q : Nat) : Option Nat :=
  (List.range 8).find? fun p =>
    let f := s.getF (.seq h) (R.seq.PART_QUEUES_Q_FIRST.ix p)
    decide (f ≤ q) && decide (q < f + s.getF (.seq h) (R.seq.PART_QUEUES_Q_CNT.ix p))

/-- Logical ID l belongs to partition p on half h. -/
def State.cellIn (s : State) (h : Half) (p l : Nat) : Bool :=
  let f := s.getF (.seq h) (R.seq.PART_CELLS_CELL_FIRST.ix p)
  decide (f ≤ l) && decide (l < f + s.getF (.seq h) (R.seq.PART_CELLS_CELL_CNT.ix p))

/-- Sequencer states (Table 3.15). -/
def State.seqState (s : State) (h : Half) : Nat := s.getF (.seq h) R.seq.BLK_STS_STATE

/-! ## Checks of a descriptor (R86) -/

/-- Status of a check code (Table 3.3). -/
def checkStatus (d : Nat) : Nat :=
  if d ≤ 0x83 then 2 else if d ≤ 0x86 then 3 else if d = 0x87 then 0xC else 7

/-- The n bytes from a device address lie below 2^52, and in the partition's windows. -/
def State.devOk (s : State) (h : Half) (p a n : Nat) : Bool := s.inWindows h p a n

def below52 (a n : Nat) : Bool := decide (a + n ≤ 2 ^ 52)

/-- A KERNEL's cell set: logical IDs of the range; with SHRINK absent IDs are left out (R87). -/
def kernelRange (raw : Nat) : List Nat :=
  (List.range (bits raw 231 224 + 1)).map (· + bits raw 223 216)

/-- A logical ID without a cell. -/
def State.absent (s : State) (h : Half) (l : Nat) : Bool := (s.physOf h l).isNone

/-- Physical cells of the set, by logical ID. -/
def State.kernelCells (s : State) (h : Half) (raw : Nat) : List Nat := (kernelRange raw).filterMap (s.physOf h)

/-- Some ID of the set is absent and the set may not shrink, or nothing is left of it. -/
def State.setAbsent (s : State) (h : Half) (raw : Nat) : Bool :=
  ((kernelRange raw).any (s.absent h) && !bit raw 232) || (s.kernelCells h raw).isEmpty

/-- Rows of a COPY side that are checked in device memory. -/
def rowsBelow52 (base stride len rows : Nat) : Bool := below52 base (stride * (rows - 1) + len)

def State.rowsOk (s : State) (h : Half) (p base stride len rows : Nat) : Bool :=
  (List.range rows).all (fun r => s.devOk h p (base + r * stride) len)

/-- Failing conditions of a descriptor of partition p, with their codes. The size of what a COLLECTIVE of OP 1 or 2 writes depends on the swarm, so
the swarm checks judge it (`collectiveDesc`). -/
def State.descFails (s : State) (h : Half) (p raw : Nat) : List (Bool × Nat) :=
  let ty := bits raw 7 0
  let common :=
    [(bits raw 15 12 ≠ 0 || bits raw 127 96 ≠ 0, 0x81), (bit raw 11 && !s.semIn h p (bits raw 31 16), 0x85)]
  common ++
  match ty with
  | 1 =>
    let r := kernelRange raw
    [(bits raw 191 180 ≠ 0 || bits raw 255 233 ≠ 0 || bits raw 1023 848 ≠ 0, 0x81),
     (bits raw 215 214 = 3 || bits raw 223 216 + bits raw 231 224 > 255, 0x82),
     (bits raw 179 128 % 64 ≠ 0, 0x83),
     (r.any (fun l => !s.cellIn h p l), 0x84),
     (s.setAbsent h raw, 0x87)]
  | 2 =>
    let src := bits raw 191 128
    let dst := bits raw 255 192
    let len := bits raw 287 256
    let rows := bits raw 311 288 + 1
    let ss := bits raw 359 320
    let ds := bits raw 399 360
    let ssp := bits raw 401 400
    let dsp := bits raw 403 402
    let remote := ssp = 3 || dsp = 3
    [(bits raw 319 312 ≠ 0 || bits raw 415 406 ≠ 0 || bits raw 1023 433 ≠ 0, 0x81),
     (len = 0 || (ssp = 3 && dsp = 3) || (remote && (ssp = 1 || ssp = 2 || dsp = 1 || dsp = 2)) || bits raw 405 404 = 3 ||
        (!remote && bits raw 431 416 ≠ 0) || (bit raw 432 && dsp ≠ 3), 0x82),
     (((ssp = 0 || ssp = 3) && !rowsBelow52 src ss len rows) || ((dsp = 0 || dsp = 3) && !rowsBelow52 dst ds len rows), 0x83),
     ((ssp = 0 && !s.rowsOk h p src ss len rows) || (dsp = 0 && !s.rowsOk h p dst ds len rows), 0x86)]
  | 3 =>
    let dst := bits raw 191 128
    let len := bits raw 231 192
    let pw := 2 ^ bits raw 235 234
    let dsp := bits raw 233 232
    [(bits raw 255 236 ≠ 0 || bits raw 1023 320 ≠ 0, 0x81), (dsp = 3 || len = 0, 0x82),
     (dst % pw ≠ 0 || len % pw ≠ 0 || (dsp = 0 && !below52 dst len), 0x83), (dsp = 0 && !s.devOk h p dst len, 0x86)]
  | 4 =>
    let op := bits raw 147 144
    let dt := bits raw 151 148
    let rf := bits raw 153 152
    let esz := if dt = 0 then 4 else if dt = 1 then 2 else 1
    let cnt := bits raw 359 320
    let src := bits raw 255 192
    let dst := bits raw 319 256
    let dn := if op = 0 || op = 3 then esz * cnt else 1
    [(bits raw 191 154 ≠ 0 || bits raw 1023 392 ≠ 0, 0x81),
     (op > 3 || !(dt = 0 || dt = 1 || dt = 3 || dt = 4) || rf = 3 || ((op = 2 || op = 3) && rf ≠ 0) || cnt = 0, 0x82),
     (src % 64 ≠ 0 || dst % 64 ≠ 0 || !below52 src (esz * cnt) || !below52 dst dn, 0x83),
     (!s.devOk h p src (esz * cnt) || !s.devOk h p dst dn, 0x86)]
  | 5 => [(bits raw 1023 130 ≠ 0, 0x81)]
  | 6 =>
    [(bits raw 1023 178 ≠ 0, 0x81), (bits raw 177 176 = 0 || bits raw 177 176 = 3, 0x82),
     (!s.semIn h p (bits raw 143 128), 0x85)]
  | 7 => [(bits raw 1023 192 ≠ 0, 0x81), (!s.semIn h p (bits raw 143 128), 0x85)]
  | 8 => [(bits raw 1023 205 ≠ 0, 0x81)]
  | _ => [(true, 0x80)]

/-- Bytes of device memory whose windows the checks of a descriptor look at: address, count. -/
def descSpans (raw : Nat) : List (Nat × Nat) :=
  match bits raw 7 0 with
  | 2 =>
    let rows := List.range (bits raw 311 288 + 1)
    let len := bits raw 287 256
    (if bits raw 401 400 = 0 then rows.map (fun r => (bits raw 191 128 + r * bits raw 359 320, len)) else []) ++
      (if bits raw 403 402 = 0 then rows.map (fun r => (bits raw 255 192 + r * bits raw 399 360, len)) else [])
  | 3 => if bits raw 233 232 = 0 then [(bits raw 191 128, bits raw 231 192)] else []
  | 4 =>
    let n := (if bits raw 151 148 = 0 then 4 else if bits raw 151 148 = 1 then 2 else 1) * bits raw 359 320
    [(bits raw 255 192, n), (bits raw 319 256, if bits raw 147 144 = 0 || bits raw 147 144 = 3 then n else 1)]
  | _ => []

/-- The lowest failing code (R86). -/
def State.descCheck (s : State) (h : Half) (p raw : Nat) : Option Nat := lowest (causes (s.descFails h p raw))

/-! ## Dispatch (R89, R90) -/

def State.fetchDesc (s : State) (h : Half) (q : Nat) : Nat :=
  let x := s.queue h q
  natOf (s.rd (x.ctx.dring + 128 * x.next) 128)

/-- A WAIT of the queue has not completed. -/
def QueueSt.waiting (x : QueueSt) : Bool := x.fly.any (fun d => d.type = dWAIT)

/-- The type is dispatched only after every earlier descriptor has completed. -/
def serial (raw : Nat) : Bool :=
  bit raw 8 || bits raw 7 0 = dFENCE || bits raw 7 0 = dSIGNAL || bits raw 7 0 = dEVENT

def needsStream (raw : Nat) : Bool := bits raw 7 0 = dCOPY || bits raw 7 0 = dFILL || bits raw 7 0 = dCOLL

/-- What stands in the way of the next descriptor, its words aside. -/
def QueueSt.canTake (x : QueueSt) : Bool :=
  (x.st = qACTIVE || x.st = qDRAINING) && x.next ≠ x.tail && decide (x.fly.length < 16) && !x.waiting

/-- The next descriptor, given its words, can be dispatched. One that fails its checks does not wait for a fence. -/
def State.canDispatch (s : State) (h : Half) (q raw : Nat) : Bool :=
  let x := s.queue h q
  x.canTake &&
    ((s.descCheck h ((s.partOfQ h q).getD 0) raw).isSome ||
      (!(serial raw && !x.fly.isEmpty) && !(needsStream raw && decide (s.getF (.seq h) R.seq.STREAMS_IN_USE ≥ 2048))))

/-- A queue is ready. Of a ring in host space only its words, which PCIe has not brought yet, can tell: a free value (assumption 16). -/
def State.ready (s : State) (h : Half) (q : Nat) : Bool :=
  let x := s.queue h q
  x.canTake && (if x.ctx.dsp = 0 then s.canDispatch h q (s.fetchDesc h q) else Config.hostReady s.fresh (qKey h q))

def QueueSt.level (x : QueueSt) : Nat := min 3 (x.ctx.prio + if x.aged then 1 else 0)

/-- Queues of a half that have ever been enabled. -/
def State.listedQ (s : State) (h : Half) : List Nat :=
  s.queues.filterMap (fun e => if e.1 / 512 = halfNo h then some (e.1 % 512) else none)

/-- Ready queues of a half besides q. -/
def State.rivals (s : State) (h : Half) (q : Nat) : List Nat :=
  (s.listedQ h).filter (fun k => k ≠ q && s.ready h k)

/-- Arbitration lets queue q dispatch: no ready queue of a higher level, and credit left, or every ready queue of its level has
spent its credit. -/
def State.mayGo (s : State) (h : Half) (q : Nat) : Bool :=
  let l := (s.queue h q).level
  let rs := s.rivals h q
  rs.all (fun k => decide ((s.queue h k).level ≤ l)) &&
    (decide ((s.queue h q).credit > 0) ||
      (rs.filter (fun k => (s.queue h k).level = l)).all (fun k => decide ((s.queue h k).credit = 0)))

/-- Take the credit of a dispatch: a new round grants WEIGHT + 1 to every ready queue of the level. -/
def State.takeCredit (s : State) (h : Half) (q : Nat) : State :=
  let l := (s.queue h q).level
  let s :=
    if (s.queue h q).credit > 0 then s
    else
      foldOver (q :: (s.rivals h q).filter (fun k => (s.queue h k).level = l))
        (fun k s => s.setQueue h k { s.queue h k with credit := (s.queue h k).ctx.weight + 1 }) s
  s.setQueue h q { s.queue h q with credit := (s.queue h q).credit - 1, aged := false }

def descOf (slot raw : Nat) : Desc :=
  { slot := slot, raw := raw, done := false, status := 0, detail := 0, info := 0, cflags := 0, fcell := 0, started := false,
    cells := [], pend := 0, stream := false }

/-- The device is in D-DRAIN: nothing is dispatched and no part starts (R105). -/
def State.draining (s : State) : Bool := s.getF .gPwr R.tpc.BLK_STS_STATE = 4

/-- A part or a stream begins: D-STANDBY becomes D-ACTIVE (11 Table 11.8). -/
def State.workBegins (s : State) : State :=
  if s.getF .gPwr R.tpc.BLK_STS_STATE = 2 then s.setF .gPwr R.tpc.BLK_STS_STATE 3 else s

/-- Put a descriptor in flight and move on to the next slot. -/
def State.launch (s : State) (h : Half) (q : Nat) (d : Desc) : State :=
  let s := s.takeCredit h q
  let x := s.queue h q
  let s := s.setQueue h q { x with fly := x.fly ++ [d], next := (x.next + 1) % 2 ^ x.ctx.dlog }
  if d.stream then (s.setF (.seq h) R.seq.STREAMS_IN_USE (s.getF (.seq h) R.seq.STREAMS_IN_USE + 1)).workBegins else s

/-- The bytes of the next descriptor: from device memory, or as PCIe gave them. The answer: state, whether it is there at all,
whether the read failed, the words. -/
def State.readDesc (s : State) (h : Half) (q : Nat) (hr : HostRead) : State × Bool × Bool × Nat :=
  let x := s.queue h q
  if x.ctx.dsp = 0 then
    let r := s.memRead h .dma 0 (x.ctx.dring + 128 * x.next) 128
    (r.1, true, r.2.1 ≠ 0, natOf r.2.2)
  else
    match hr with
    | .unused => (s, false, false, 0)
    | .failed => (s, true, true, 0)
    | .data b => (s, b.length = 128, false, natOf b)

/-- DISPATCH of the next descriptor where its type is ty (a row for each type, R85): a failed read (DETAIL 0x88, DESC_UE) or a failed
check completes it without effect; else it is in flight and acts. The record of a descriptor that could not be read shows its other fields as 0
(DESIGN CHOICE, assumption 75). An armed injection with BIT 12 is an event of its own beside a genuine failure (01 R35). -/
def dispatch (ty : Nat) (r : QRef) (hr : HostRead) (act : Desc → State → State) (s : State) : State :=
  let h := r.half
  let q := r.q.val
  let x := s.queue h q
  if !(s.answers (.seq h) && s.seqState h = 1 && !s.draining && x.canTake) then s
  else if x.ctx.dsp = 0 && s.holds [(x.ctx.dring + 128 * x.next, 128)] then s
  else
    let inj := s.armed (.seq h) 12
    let d := s.readDesc h q hr
    if !d.2.1 then s
    else if d.2.2.1 || inj then
      if !s.mayGo h q then s
      else
        let ev : Ev := { cost := 4, status := 7, detail := 0x88, parts := 2 ^ (s.partOfQ h q).getD 0 }
        let s := if d.2.2.1 then d.1.err (.seq h) 12 ev else d.1
        let s := if inj then (s.disarm (.seq h)).err (.seq h) 12 { ev with inj := true } else s
        s.launch h q { descOf x.next 0 with done := true, status := 7, detail := 0x88 }
    else
      let raw := d.2.2.2
      let t := bits raw 7 0
      if !(t = ty || t = 0 || t > 8) then s
      else if !(s.canDispatch h q raw && s.mayGo h q) then s
      else
        match d.1.descCheck h ((s.partOfQ h q).getD 0) raw with
        | some c =>
          (d.1.denySpans h ((s.partOfQ h q).getD 0) c (descSpans raw)).launch h q
            { descOf x.next raw with done := true, status := checkStatus c, detail := c, info := if t = dEVENT then bits raw 191 128 else 0 }
        | none =>
          let e := { descOf x.next raw with stream := needsStream raw }
          act e (d.1.launch h q e)

/-! ## Completion (R98 to R103) -/

/-- The 32 bytes of a record (Table 3.11a); TIME is a free value. -/
def recordOf (d : Desc) (phase : Bool) (time : Nat) : List Byte :=
  bytesOf 1 d.status ++ bytesOf 1 d.type ++
    bytesOf 1 ((if phase then 1 else 0) + (if d.type = dEVENT then 2 else 0)) ++ bytesOf 1 d.detail ++
    bytesOf 4 (bits d.raw 63 32) ++ bytesOf 2 d.slot ++ bytesOf 1 (d.cflags % 128) ++
    bytesOf 1 (if d.status = 0 then 0 else d.fcell) ++ bytesOf 4 0 ++ bytesOf 8 d.info ++ bytesOf 8 time

/-- Write the record of a descriptor and raise its vector (R98, R99). -/
def State.putRecord (s : State) (h : Half) (q : Nat) (d : Desc) : State :=
  let x := s.queue h q
  let phase := x.ci / 2 ^ x.ctx.clog % 2 = 0
  let s := s.ringOut h (some (qKey h q)) x.ctx.csp (x.ctx.cring + 32 * (x.ci % 2 ^ x.ctx.clog)) (recordOf d phase (s.freeAhead 0))
  let s := (s.drawn 1).setQueue h q { x with ci := x.ci + 1 }
  if d.type = dEVENT && bit d.raw 204 then s.raiseVec (fnOf (bits d.raw 203 203)) (bits d.raw 202 192)
  else if d.status ≠ 0 || bit d.raw 10 || d.type = dEVENT then s.raiseVec (fnOf x.ctx.vecFn) x.ctx.vec
  else s

/-- The semaphores of a partition are zeroed. -/
def State.zeroSems (s : State) (p : Nat) : State :=
  { s with sems := s.sems.filter (fun e => !(s.semIn .A p e.1 || s.semIn .B p e.1)) }

/-- A partition whose queues have all become DISABLED while it terminates is TERMINATED, its semaphores zeroed (R107). -/
def State.termCheck (s : State) : State :=
  foldOver (List.range 8) (fun p s =>
    if s.partState .A p = 2 || s.partState .B p = 2 then
      let busy := s.queues.any (fun e =>
        let h := halfOf (e.1 / 512)
        s.partOfQ h (e.1 % 512) = some p && e.2.st ≠ 0)
      if busy then s else (s.zeroSems p).setPart p 3
    else s) s

/-- A queue becomes DISABLED: nothing posted remains. -/
def State.disableQ (s : State) (h : Half) (q : Nat) : State :=
  let x := s.queue h q
  ((s.setQueue h q { x with st := 0, tail := x.cons, next := x.cons, fly := [], fin := [], aged := false, haltDue := false,
                            bad11 := [] }).showQ h q).termCheck

/-- The state a queue takes after a descriptor has left: HALTED by a failure, or by one met in PAUSING once nothing is in flight;
DISABLED at the end of a reset (R103). -/
def State.afterQ (s : State) (h : Half) (q : Nat) (bad : Bool) : State :=
  let x := s.queue h q
  let due := x.haltDue || bad
  if x.st = qACTIVE && bad then s.qState h q qHALTED
  else if x.st = qPAUSING && due then
    if x.fly.isEmpty then (s.setQueue h q { x with haltDue := false }).qState h q qHALTED
    else (s.setQueue h q { x with haltDue := true }).showQ h q
  else if x.st = 6 && x.fly.isEmpty then s.disableQ h q
  else s.showQ h q

/-- A descriptor's status is written out (Table 3.10): SIG_EN on OK, record, CONS, vector, then the queue's state. -/
def State.completeDesc (s : State) (h : Half) (q : Nat) (d : Desc) : State :=
  let part := (s.partOfQ h q).getD 0
  let s := if d.status = 0 && bit d.raw 11 then s.addSem (bits d.raw 31 16) (bits d.raw 95 64) else s
  let s := if d.status ≠ 0 || bit d.raw 9 || d.type = dEVENT then s.putRecord h q d else s
  let s := if d.status ≠ 0 then
      s.err (.seq h) 8 { status := d.status, detail := d.detail, parts := 2 ^ part }
    else s
  let s := if d.stream then s.setF (.seq h) R.seq.STREAMS_IN_USE (s.getF (.seq h) R.seq.STREAMS_IN_USE - 1) else s
  let x := s.queue h q
  let m := 2 ^ x.ctx.dlog
  let fin := sadd x.fin d.slot
  let c := consRun fin.length m x.cons fin
  let gone := (List.range ((c + m - x.cons) % m)).map (fun k => (x.cons + k) % m)
  let bad11 := if d.type = dCOPY && d.stream && bits d.raw 403 402 = 3 && d.status ≠ 0 then x.bad11 ++ [(d.slot, d.status, d.detail)]
    else x.bad11
  let s := s.setQueue h q { x with fly := x.fly.filter (fun e => e.slot ≠ d.slot), cons := c,
                                   fin := fin.filter (fun e => !gone.contains e), bad11 := bad11 }
  s.afterQ h q (d.status ≠ 0 && (!x.ctx.cont || d.detail = 0x88))

/-- DESCRIPTOR_COMPLETE. A stream whose accesses a stack controller holds has not completed (04 R123). -/
def descriptorComplete (r : QRef) (slot : BitVec 16) (s : State) : State :=
  let h := r.half
  let q := r.q.val
  if !s.answers (.seq h) then s
  else
    match s.desc h q slot.toNat with
    | some d =>
      if !d.done || (d.stream && d.status = 0 && s.holds (descSpans d.raw)) then s else s.completeDesc h q d
    | none => s

/-! ## Aborting work -/

/-- INFO of a descriptor that ends now (Table 3.11a): bytes written so far, the semaphore's value of a WAIT. -/
def State.infoNow (s : State) (h : Half) (q : Nat) (d : Desc) : Nat :=
  if d.type = dWAIT then s.sem (bits d.raw 143 128)
  else
    match s.rcopies.find? (fun c => c.half = h && c.q = q && c.slot = d.slot),
        s.colls.find? (fun c => c.half = h && c.q = q && c.slot = d.slot) with
    | some c, _ => c.bytes
    | none, some c => c.bytes
    | none, none => d.info

/-- Give a descriptor in flight a failing status: parts of a running kernel are aborted, in the order of their logical IDs, and complete one by
one (R92); a failure noted before stays the kernel's. Anything else has its status at once. -/
def State.abortDesc (s : State) (h : Half) (q st : Nat) (d : Desc) : State :=
  if d.done then s
  else if d.cells.isEmpty then
    let n := s.infoNow h q d
    (s.dropRemote h q d.slot).updDesc h q d.slot (fun e => { (e.finish st 0 n) with pend := 0 })
  else
    let s := foldOver d.cells (fun c s => s.endPartWith h c st) s
    s.updDesc h q d.slot (fun e => if e.done || e.status ≠ 0 then e else { e with status := st })

def State.rsv (s : State) : Half → List (Nat × Nat)
  | .A => s.rsvA
  | .B => s.rsvB

def State.setRsv (s : State) (h : Half) (l : List (Nat × Nat)) : State :=
  match h with
  | .A => { s with rsvA := l }
  | .B => { s with rsvB := l }

/-- The reset sequence of a queue (R103) with the status its work takes. -/
def State.resetQueue (s : State) (h : Half) (q st : Nat) : State :=
  let x := s.queue h q
  if x.st = 0 || x.st = 6 then s
  else
    let s := s.setRsv h ((s.rsv h).filter (fun e => e.1 ≠ q))
    let s := s.setQueue h q { x with tail := x.next, haltDue := false }
    let s := s.qState h q 6
    let s := foldOver x.fly (fun d s => s.abortDesc h q st d) s
    if x.fly.isEmpty then s.disableQ h q else s

/-! ## Queue commands (R83, R101, R102) -/

def State.cmdSts (s : State) (h : Half) (q st : Nat) : State :=
  s.setFs (.seq h) [(R.seq.Q_CMD_STS_STATUS, st), (R.seq.Q_CMD_STS_QID, q), (R.seq.Q_CMD_STS_BUSY, 0)]

/-- A command runs: another Q_CMD is dropped. A command's work ends with it, so that no run from reset shows BUSY (assumption 46). -/
def State.cmdBusy (s : State) (h : Half) : Bool := s.isSet (.seq h) R.seq.Q_CMD_STS_BUSY

/-- A command that the state does not accept. -/
def State.cmdStateErr (s : State) (h : Half) (q : Nat) : State := (s.stateErr (.seq h)).cmdSts h q 1

/-- A queue command where the sequencer takes commands and the queue is in one of the states. -/
def qCommand (r : QRef) (sts : List Nat) (ok : State → State) (s : State) : State :=
  let h := r.half
  let q := r.q.val
  if !s.answers (.seq h) then s
  else if s.cmdBusy h then s.stateErr (.seq h)
  else if s.seqState h = 0 || s.seqState h = 4 || !sts.contains (s.queue h q).st then s.cmdStateErr h q
  else (ok s).cmdSts h q 0

/-- A queue context entry from its 512 bits (Table 3.1). -/
def qctOf (w : Nat) : QCtx :=
  { dring := bits w 63 0, cring := bits w 127 64, dlog := bits w 132 128, clog := bits w 137 133, dsp := bits w 139 138,
    csp := bits w 141 140, prio := bits w 143 142, weight := bits w 147 144, cont := bit w 148, vec := bits w 170 160,
    vecFn := bits w 171 171, waitTmo := bits w 191 176, kernTmo := bits w 207 192 }

/-- The checks of R83, the partition aside. -/
def State.qctOk (s : State) (h : Half) (p w : Nat) : Bool :=
  let c := qctOf w
  decide (4 ≤ c.dlog ∧ c.dlog ≤ 16) && decide (c.dlog ≤ c.clog ∧ c.clog ≤ 16) && c.dsp ≠ 3 && c.csp ≠ 3 &&
    c.dring % 4096 = 0 && c.cring % 4096 = 0 && bits w 159 149 = 0 && bits w 175 172 = 0 && bits w 511 208 = 0 &&
    (c.dsp ≠ 0 || (decide (c.dring < 2 ^ 52) && s.inWindows h p c.dring (128 * 2 ^ c.dlog))) &&
    (c.csp ≠ 0 || (decide (c.cring < 2 ^ 52) && s.inWindows h p c.cring (32 * 2 ^ c.clog)))

def State.qctBase (s : State) (h : Half) : Nat :=
  s.getF (.seq h) R.seq.QCT_BASE_LO_ADDR * 2 ^ 12 + s.getF (.seq h) R.seq.QCT_BASE_HI_ADDR * 2 ^ 32

/-- ENABLE. An entry that cannot be read is refused with BAD_DESC (assumption 16). -/
def enable (_m : Master) (r : QRef) (s : State) : State :=
  let h := r.half
  let q := r.q.val
  if !s.answers (.seq h) then s
  else if s.cmdBusy h then s.stateErr (.seq h)
  else if s.seqState h = 0 || s.seqState h = 4 || (s.queue h q).st ≠ 0 then s.cmdStateErr h q
  else
    let e := s.memRead h .dma 0 (s.qctBase h + 64 * q) 64
    match s.partOfQ h q with
    | none => ((e.1.err (.seq h) 11 { status := 3 }).cmdSts h q 3)
    | some p =>
      let w := natOf e.2.2
      if e.2.1 ≠ 0 || !e.1.qctOk h p w then (e.1.err (.seq h) 11 { status := 2, parts := 2 ^ p }).cmdSts h q 2
      else ((e.1.setQueue h q { qInit with st := qACTIVE, ctx := qctOf w }).showQ h q).cmdSts h q 0

def pause (_m : Master) (r : QRef) (s : State) : State :=
  qCommand r [qACTIVE] (fun s => s.qState r.half r.q.val qPAUSING) s

/-- RESUME: a HALTED queue goes on after the slots it has dispatched (R102). The spec does not say what becomes of a failure met in PAUSING that
has not halted the queue yet: the halt is dropped (DESIGN CHOICE, assumption 71). -/
def resume (_m : Master) (r : QRef) (s : State) : State :=
  qCommand r [qPAUSING, qPAUSED, qHALTED]
    (fun s => (s.setQueue r.half r.q.val { s.queue r.half r.q.val with haltDue := false }).qState r.half r.q.val qACTIVE) s

def drain (_m : Master) (r : QRef) (s : State) : State :=
  qCommand r [qACTIVE, qPAUSED, qHALTED] (fun s => s.qState r.half r.q.val qDRAINING) s

def disable (_m : Master) (r : QRef) (s : State) : State :=
  if (s.queue r.half r.q.val).st = qHALTED && !(s.queue r.half r.q.val).fly.isEmpty && !s.cmdBusy r.half then
    (if s.answers (.seq r.half) then s.cmdStateErr r.half r.q.val else s)
  else qCommand r [qPAUSED, qHALTED] (fun s => s.disableQ r.half r.q.val) s

def queueReset (_m : Master) (r : QRef) (s : State) : State :=
  qCommand r [qDISABLED, qACTIVE, qPAUSING, qPAUSED, qDRAINING, qHALTED] (fun s => s.resetQueue r.half r.q.val 9) s

/-- Q_CMD with OP 0 or 7 to 15. An OP of Table 3.14 is none of these: its own row acts. -/
def qCmdBad (_m : Master) (r : QRef) (op : BitVec 4) (s : State) : State :=
  let h := r.half
  if !s.answers (.seq h) || (decide (1 ≤ op.toNat) && decide (op.toNat ≤ 6)) then s
  else if s.cmdBusy h then s.stateErr (.seq h)
  else if s.seqState h = 0 || s.seqState h = 4 then s.cmdStateErr h r.q.val
  else (s.err (.seq h) 9 { status := 2 }).cmdSts h r.q.val 2

def queuePaused (r : QRef) (s : State) : State :=
  let x := s.queue r.half r.q.val
  if s.answers (.seq r.half) && x.st = qPAUSING && x.fly.isEmpty then s.qState r.half r.q.val qPAUSED else s

def queueDrained (r : QRef) (s : State) : State :=
  let x := s.queue r.half r.q.val
  if s.answers (.seq r.half) && x.st = qDRAINING && x.fly.isEmpty && x.next = x.tail then s.disableQ r.half r.q.val else s

/-- PRIORITY_AGING: only a queue that is ready ages. -/
def priorityAging (r : QRef) (s : State) : State :=
  let h := r.half
  let q := r.q.val
  let x := s.queue h q
  if s.answers (.seq h) && s.seqState h = 1 && s.ready h q then
    (s.drawn 1).setQueue h q { x with aged := true }
  else s

/-- QUEUE_DOORBELL (Table 3.13, R84): the low 16 bits are the new TAIL. -/
def queueDoorbell (_m : Master) (r : QRef) (value : Word) (s : State) : State :=
  let h := r.half
  let q := r.q.val
  let x := s.queue h q
  let t := value.toNat % 65536
  if !s.answers (.seq h) then s
  else if x.st = qDISABLED || x.st = qDRAINING || x.st = 6 then s.stateErr (.seq h)
  else if t ≥ 2 ^ x.ctx.dlog then s.err (.seq h) 10
  else s.setQueue h q { x with tail := t }

/-! ## The sequencer (R104, R105) and QCT_BASE -/

/-- QCT_BASE_WRITE: only while every queue of the half is DISABLED. -/
def qctBaseWrite (_m : Master) (h : Half) (high : Bool) (value : Word) (s : State) : State :=
  if !s.answers (.seq h) then s
  else if (s.listedQ h).any (fun q => (s.queue h q).st ≠ 0) then s.stateErr (.seq h)
  else if high then s.setF (.seq h) R.seq.QCT_BASE_HI_ADDR (bits value.toNat 19 0)
  else s.setF (.seq h) R.seq.QCT_BASE_LO_ADDR (bits value.toNat 31 12)

def seqQuiesce (_m : Master) (h : Half) (s : State) : State :=
  if !s.answers (.seq h) then s
  else if s.seqState h = 1 then (s.setF (.seq h) R.seq.BLK_STS_STATE 2).setF (.seq h) R.seq.BLK_CTL_EN 0
  else s.stateErr (.seq h)

def seqRun (_m : Master) (h : Half) (s : State) : State :=
  if !s.answers (.seq h) then s
  else if s.seqState h = 2 || s.seqState h = 3 then (s.setF (.seq h) R.seq.BLK_STS_STATE 1).setF (.seq h) R.seq.BLK_CTL_EN 1
  else s.stateErr (.seq h)

/-- No descriptor of the half is in flight. -/
def State.quiet (s : State) (h : Half) : Bool := (s.listedQ h).all (fun q => (s.queue h q).fly.isEmpty)

def seqQuiesced (h : Half) (s : State) : State :=
  if s.answers (.seq h) && s.seqState h = 2 && s.quiet h then s.setF (.seq h) R.seq.BLK_STS_STATE 3 else s

/-- Every part of a half ends with a status and every descriptor in flight takes it. -/
def State.failAll (s : State) (h : Half) (st : Nat) : State :=
  foldOver (s.listedQ h) (fun q s => foldOver (s.queue h q).fly (fun d s => s.abortDesc h q st d) s) s

/-- The sequencer stops for good (R105): what is in flight completes with the status, queues that are not DISABLED become HALTED. -/
def State.stopSeq (s : State) (h : Half) (st : Nat) : State :=
  let s := s.failAll h st
  let s := foldOver (s.listedQ h) (fun q s => if (s.queue h q).st = 0 then s else s.qState h q qHALTED) s
  s.setF (.seq h) R.seq.BLK_STS_STATE 4

/-! ## Semaphore registers (R93) -/

def semAdd (_m : Master) (h : Half) (value : Word) (s : State) : State :=
  if s.answers (.seq h) then s.addSem (s.getF (.seq h) R.seq.SEM_SEL_INDEX) value.toNat else s

def semVal (_m : Master) (h : Half) (value : Word) (s : State) : State :=
  if s.answers (.seq h) then s.setSem (s.getF (.seq h) R.seq.SEM_SEL_INDEX) value.toNat else s

/-! ## Partitions (R107) -/

/-- Queues of partition p: half and local number. -/
def State.partQueues (s : State) (p : Nat) : List (Half × Nat) :=
  s.queues.filterMap (fun e =>
    let h := halfOf (e.1 / 512)
    if s.partOfQ h (e.1 % 512) = some p then some (h, e.1 % 512) else none)

/-- Terminate a partition with the status its work takes. -/
def State.terminatePart (s : State) (p st : Nat) : State :=
  let s := s.setPart p 2
  let s := foldOver (s.partQueues p) (fun e s => s.resetQueue e.1 e.2 st) s
  (s.endCmds p st).termCheck

/-- PART_CTL TERMINATE: PARTNER_GONE in place of ABORTED when the control complex terminates it. -/
def terminate (m : Master) (h : Half) (p : Fin 8) (s : State) : State :=
  if !s.answers (.seq h) then s
  else if s.partState h p.val = 1 then s.terminatePart p.val (if m = .cc then 0xE else 9)
  else s.stateErr (.seq h)

/-- PART_CTL RESTART: the cell store of every cell of the partition is zeroed. -/
def restart (_m : Master) (h : Half) (p : Fin 8) (s : State) : State :=
  if !s.answers (.seq h) then s
  else if s.partState h p.val = 3 then
    let zero := fun (hh : Half) (s : State) =>
      foldOver (List.range 256) (fun l s =>
        if s.cellIn hh p.val l then
          match s.physOf hh l with
          | some c => s.setCell hh c { s.cell hh c with cs := [] }
          | none => s
        else s) s
    (zero .B (zero .A s)).setPart p.val 1
  else s.stateErr (.seq h)

/-! ## Kernels (R87, R91, R92) -/

/-- KERNEL: dispatched, it waits for its cells. -/
def kernel (r : QRef) (hr : HostRead) (s : State) : State := dispatch dKERNEL r hr (fun _ s => s) s

/-- A KERNEL of the queue that waits for its cells. -/
def State.waitingKernel (s : State) (h : Half) (q slot : Nat) : Option Desc :=
  (s.queue h q).fly.find? (fun d => d.slot = slot && d.type = dKERNEL && !d.done && !d.started)

/-- KERNEL_RESERVE: reservations stand in the order in which they are made. -/
def kernelReserve (r : QRef) (slot : BitVec 16) (s : State) : State :=
  let h := r.half
  if s.answers (.seq h) && (s.waitingKernel h r.q.val slot.toNat).isSome && !(s.rsv h).contains (r.q.val, slot.toNat) then
    s.setRsv h (s.rsv h ++ [(r.q.val, slot.toNat)])
  else s

/-- Cells that earlier reservations hold. -/
def State.heldCells (s : State) (h : Half) (q slot : Nat) : List Nat :=
  ((s.rsv h).takeWhile (fun e => e ≠ (q, slot))).flatMap (fun e =>
    match s.waitingKernel h e.1 e.2 with
    | some d => s.kernelCells h d.raw
    | none => [])

/-- A cell can take a part. -/
def State.cellFree (s : State) (h : Half) (c : Nat) : Bool :=
  let p := cellPage h c
  let x := s.cell h c
  s.answers p && s.cst h c = 2 && s.isSet p R.cell.BLK_CTL_EN && !s.isSet p R.hdr.BLK_STS_FENCED && !x.retire && !x.swap &&
    x.ctx.isNone && !s.isSet p R.hdr.BLK_STS_RESET_BUSY

/-- Start one part (R41, R42): scalar registers, tokens, loops, flags, the rounding generator; cell store is zeroed before the
first part of another partition. -/
def State.startPart (s : State) (h : Half) (q part : Nat) (d : Desc) (n idx c : Nat) : State :=
  let p := cellPage h c
  let x := s.cell h c
  let raw := d.raw
  let lid := s.logicalId h c
  let args := (List.range 8).map (fun i => (1 + i, bits raw (383 + 64 * i) (320 + 64 * i)))
  let regs := (args ++ [(9, lid), (10, idx), (11, n)]).foldl (fun m (e : Nat × Nat) => mset (0 : DWord) m e.1 (BitVec.ofNat 64 e.2)) []
  let x' : CellSt :=
    { cellInit with
      sregs := regs
      cs := if x.last = some part then x.cs else []
      gen := srSeed (bits raw 319 256) h lid
      ctx := some { q := q, slot := d.slot, part := part, prog := bits raw 179 128, ninst := bits raw 211 192,
                    drnd := bits raw 213 212, dovf := bits raw 215 214 }
      last := some part }
  let s := (s.setCell h c x').setFs p [(R.cell.TOKENS_DONE, 0xFFFF)]
  let s := s.setReg (fldAddr p R.cell.CELL_FLAGS_ACC_INEXACT) 0
  (s.cellState h c 3).workBegins

/-- KERNEL_START: an absent ID met now fails the kernel or shrinks its set; else every cell must be free and not reserved by an
earlier waiter. -/
def kernelStart (r : QRef) (slot : BitVec 16) (s : State) : State :=
  let h := r.half
  let q := r.q.val
  match s.answers (.seq h) && !s.draining, s.waitingKernel h q slot.toNat with
  | true, some d =>
    let gone := s.setRsv h ((s.rsv h).filter (· ≠ (q, slot.toNat)))
    if s.setAbsent h d.raw then gone.updDesc h q d.slot (fun e => e.finish 0xC 0x87 0)
    else
      let cs := s.kernelCells h d.raw
      let held := s.heldCells h q slot.toNat
      if cs.all (fun c => s.cellFree h c && !held.contains c) then
        let part := (s.partOfQ h q).getD 0
        let s := gone.updDesc h q d.slot (fun e => { e with started := true, cells := cs })
        let s := foldOver ((List.range 4).filter (fun k => cs.any (fun c => c / 72 = k))) (fun k s => (s.rampDuty h k).wakeDom h k) s
        foldOver ((List.range cs.length).zip cs) (fun (e : Nat × Nat) s => s.startPart h q part d cs.length e.1 e.2) s
      else s
  | _, _ => s

/-- CELL_FLAGS[6:0]. -/
def State.flagsOf (s : State) (h : Half) (c : Nat) : Nat :=
  bits (s.reg (fldAddr (cellPage h c) R.cell.CELL_FLAGS_ACC_INEXACT)).toNat 6 0

/-- A part completes: the part's flags go into its kernel; a part that failed (its status is the kernel's if it was the first, `noteFail`)
aborts the siblings; the last part completes the kernel. -/
def State.partDone (s : State) (h : Half) (c : Nat) : State :=
  let x := s.cell h c
  match x.ctx, x.ended with
  | some k, some e =>
    let fl := s.flagsOf h c
    let st := if s.isSet (cellPage h c) R.cell.CELL_ID_MAPPED then 2 else if s.cst h c = 5 then 5 else 0
    let s := (s.setCell h c { x with ctx := none, ended := none, loops := [] }).cellState h c st
    let s := if x.retire then s.queueSwap h c else s
    match s.desc h k.q k.slot with
    | none => s
    | some d =>
      let rest := d.cells.filter (· ≠ c)
      let s := s.updDesc h k.q k.slot (fun d => { d with cells := rest, cflags := d.cflags ||| fl, done := rest.isEmpty })
      if e.1 = 0 then s else foldOver rest (fun c s => s.endPartWith h c 9) s
  | _, _ => s

def kernelPartComplete (h : Half) (c : Fin 288) (s : State) : State := s.partDone h c.val

/-- Every part of a half that has ended and every descriptor that has its status is written out (R105). -/
def State.stopDone (s : State) (h : Half) : State :=
  let s := foldOver (List.range 288) (fun c s => s.partDone h c) s
  foldOver (s.listedQ h) (fun q s => foldOver (s.queue h q).fly (fun d s => if d.done then s.completeDesc h q d else s) s) s

/-- A KERNEL has a limit: its KTMO, or failing that its queue's KERNEL_TMO, is not 0 (Table 3.4). -/
def State.kernelLimit (s : State) (h : Half) (q : Nat) (d : Desc) : Bool := bits d.raw 847 832 ≠ 0 || (s.queue h q).ctx.kernTmo ≠ 0

/-- KERNEL_TIMEOUT: every part of a running kernel that has a limit is aborted. -/
def kernelTimeout (r : QRef) (slot : BitVec 16) (s : State) : State :=
  match s.desc r.half r.q.val slot.toNat with
  | some d => if d.type = dKERNEL && d.started && !d.done && s.kernelLimit r.half r.q.val d then s.abortDesc r.half r.q.val 5 d else s
  | none => s

/-! ## Control descriptors (R89, R93 to R96) -/

/-- The failed remote write that decides a FENCE of scope 11: lowest order, then lowest slot. -/
def worst11 (l : List (Nat × Nat × Nat)) : Nat × Nat :=
  let key := fun (e : Nat × Nat × Nat) => statusOrder e.2.1 * 65536 + e.1
  match l with
  | [] => (0, 0)
  | e :: t => (t.foldl (fun a b => if key b < key a then b else a) e).2

/-- FENCE: dispatched after every earlier descriptor, it completes at once: their writes are visible (04 R128). -/
def fenceDesc (h : Half) (q : Nat) (d : Desc) (s : State) : State :=
  let x := s.queue h q
  let scope := bits d.raw 129 128
  let w := if scope = 3 then worst11 x.bad11 else (0, 0)
  let s := if scope = 3 then s.setQueue h q { x with bad11 := [] } else s
  s.updDesc h q d.slot (·.finish w.1 w.2 0)

def fence (r : QRef) (hr : HostRead) (s : State) : State := dispatch dFENCE r hr (fenceDesc r.half r.q.val) s

def signal (r : QRef) (hr : HostRead) (s : State) : State :=
  dispatch dSIGNAL r hr (fun d s =>
    (s.updDesc r.half r.q.val d.slot (·.finish 0 0 0)).addSem (bits d.raw 143 128) (bits d.raw 175 144)) s

def wait (r : QRef) (hr : HostRead) (s : State) : State :=
  dispatch dWAIT r hr (fun d s =>
    s.updDesc r.half r.q.val d.slot (wakeDesc (bits d.raw 143 128) (s.sem (bits d.raw 143 128)))) s

/-- WAIT_TIMEOUT of a descriptor, or of a cell's WAIT. -/
def waitTimeout (w : Waiter) (s : State) : State :=
  match w with
  | .desc h q slot =>
    match s.desc h q.val slot.toNat with
    | some d =>
      if d.type = dWAIT && !d.done then s.updDesc h q.val slot.toNat (·.finish 5 0 (s.sem (bits d.raw 143 128))) else s
    | none => s
  | .cell h c => if (s.cell h c.val).wait.isSome then s.endPartWith h c.val 5 else s

def event (r : QRef) (hr : HostRead) (s : State) : State :=
  dispatch dEVENT r hr (fun d s => s.updDesc r.half r.q.val d.slot (·.finish 0 0 (bits d.raw 191 128))) s

end Sys2Proof.Machine
end

