-- ==== Sys2Proof/Machine/Mesh.lean ====
section
/-! DEFINITION. The quadrant meshes (05 R143 to R151): routers and their ports, edge blocks, routes, age-epoch arbitration, flit errors, and
the bound on mesh requests. -/

namespace Sys2Proof.Machine

/-! ## Routers and ports (R143, R144) -/

/-- Blocks at the E port of router r of quadrant q; none: the port is unused (Table 5.2). -/
def edgeOf (h : Half) (q r : Nat) : List Page :=
  let row := r / 4
  let oe := fun (o : Nat) => [Page.oe h (Fin.ofNat 8 o)]
  let pair := fun (f : Nat → Page) (k : Nat) => [f k, f (k + 1)]
  let hinge := fun (b : Nat) => Page.hinge h (Fin.ofNat 16 b)
  let ddr := fun (c : Nat) => Page.ddrc h (Fin.ofNat 8 c)
  match q with
  | 0 => if r % 4 = 0 then oe row else if r = 13 then [.pcie h] else []
  | 1 => if r % 4 = 3 then pair hinge (2 * row) else if r = 1 then [.seq h, .ctrlch h, .fwall h] else []
  | 2 => if r % 4 = 3 then pair hinge (8 + 2 * row) else if r = 12 then pair ddr 4 else if r = 13 then pair ddr 6 else []
  | _ => if r % 4 = 0 then oe (4 + row) else if r = 13 then pair ddr 0 else if r = 14 then pair ddr 2 else []

/-- A port joins an endpoint: the compute die, HBM channels 2 r and 2 r + 1 of each stack of the quadrant, cache bank r, or an edge block
(Table 5.1). -/
def isEndpoint (h : Half) (q r : Nat) : RPort → Bool
  | .v | .m | .c => true
  | .e => !(edgeOf h q r).isEmpty
  | .o | .i | .l | .h => false

def portNo : RPort → Nat
  | .o => 0
  | .i => 1
  | .l => 2
  | .h => 3
  | .v => 4
  | .m => 5
  | .c => 6
  | .e => 7

/-- The port of the neighbour that a port faces. -/
def facing : RPort → RPort
  | .o => .i
  | .i => .o
  | .l => .h
  | .h => .l
  | p => p

def nocPage (h : Half) (q : Nat) : Page := .noc h (Fin.ofNat 4 q)

/-! ## Routes (R147) -/

/-- Half-grid coordinates of router r of quadrant q. -/
def gridC (q r : Nat) : Nat := r % 4 + if q = 1 ∨ q = 2 then 4 else 0
def gridR (q r : Nat) : Nat := r / 4 + if q = 2 ∨ q = 3 then 4 else 0

/-- Quadrant and router of a grid position. -/
def gridQ (c r : Nat) : Nat := if c < 4 then (if r < 4 then 0 else 3) else (if r < 4 then 1 else 2)
def gridN (c r : Nat) : Nat := 4 * (r % 4) + c % 4

/-- One router of a route: the ports by which the packet comes and goes, and which of two parallel links it leaves by. -/
structure Hop where
  q    : Nat
  r    : Nat
  come : RPort
  go   : RPort
  link : Nat
deriving DecidableEq, Repr

/-- The positions from a to b, without a, in the order a packet takes them. -/
def lineTo (a b : Nat) : List Nat :=
  if a ≤ b then (List.range (b - a)).map (a + 1 + ·) else (List.range (a - b)).map (a - 1 - ·)

/-- The grid positions of a route: along the columns, then along the rows. -/
def pktPath (p : MeshPkt) : List (Nat × Nat) :=
  let c0 := gridC p.srcQ.val p.srcR.val
  let r0 := gridR p.srcQ.val p.srcR.val
  let c1 := gridC p.dstQ.val p.dstR.val
  let r1 := gridR p.dstQ.val p.dstR.val
  (c0, r0) :: (lineTo c0 c1).map (fun c => (c, r0)) ++ (lineTo r0 r1).map (fun r => (c1, r))

/-- The port from one grid position to the next. -/
def portTo (a b : Nat × Nat) : RPort := if b.1 < a.1 then .o else if a.1 < b.1 then .i else if b.2 < a.2 then .l else .h

/-- The routers of a path, come to by a port. Across a boundary of quadrants the packet takes the link of its source router's number mod 2. -/
def routeHops (src : Nat) (last : RPort) : RPort → List (Nat × Nat) → List Hop
  | _, [] => []
  | come, [a] => [{ q := gridQ a.1 a.2, r := gridN a.1 a.2, come := come, go := last, link := 0 }]
  | come, a :: b :: t =>
    let go := portTo a b
    let cross := gridQ a.1 a.2 ≠ gridQ b.1 b.2
    { q := gridQ a.1 a.2, r := gridN a.1 a.2, come := come, go := go, link := if cross then src % 2 else 0 } ::
      routeHops src last (facing go) (b :: t)

def pktHops (p : MeshPkt) : List Hop := routeHops p.srcR.val p.dstP p.srcP (pktPath p)

/-! ## Arbitration (R150, R151) -/

def vcNo : MeshVC → Nat
  | .req => 0
  | .rsp => 1
  | .coh => 2
  | .svc => 3

/-- An arbiter on a route: its mesh, its key, and the packet's slot where the level decides it (Table 5.3). -/
structure ArbSite where
  q   : Nat
  key : Nat
  own : Option Nat
deriving DecidableEq, Repr

def arbKey (h : Half) (q r level port link : Nat) : Nat := 64 * (64 * halfNo h + 16 * q + r) + 16 * level + 2 * port + link

/-- The arbiters of a route: L0 at the source port, L1 and L2 at every router, L3 at an edge resource. -/
def pktSites (p : MeshPkt) : List ArbSite :=
  let at_ := fun (x : Hop) (level : Nat) (port : RPort) (link : Nat) (own : Option Nat) =>
    ({ q := x.q, key := arbKey p.half x.q x.r level (portNo port) link, own := own } : ArbSite)
  let hs := pktHops p
  let l0 := (hs.take 1).map (fun x => at_ x 0 p.srcP 0 none)
  let mid := (hs.map (fun x => [at_ x 1 x.come 0 (some (vcNo p.vc)), at_ x 2 x.go x.link (some (portNo x.come))])).flatten
  let l3 := if p.dstP = .v then [] else hs.getLast?.toList.map (fun x => at_ x 3 p.dstP 0 none)
  l0 ++ mid ++ l3

/-- The oldest exceeds the youngest by more than two epochs. -/
def byAge (cs : List (Nat × Nat)) : Bool :=
  let ages := cs.map (·.2)
  decide (ages.foldl max 0 > ages.foldl min 63 + 2)

/-- One grant among contenders (slot, age), the last one being to slot `last`: the oldest where age decides, else all; of those the next
one round-robin. -/
def grantOne (last : Nat) (cs : List (Nat × Nat)) : Nat :=
  let oldest := (cs.map (·.2)).foldl max 0
  let pool := (if byAge cs then cs.filter (fun c => c.2 = oldest) else cs).map (·.1)
  match (pool.filter (fun k => decide (k > last))).min? with
  | some k => k
  | none => pool.min?.getD last

/-- Grants until slot `own` has its own: how many were decided by age, and the slot granted last. -/
def grants (own : Nat) : Nat → Nat → List (Nat × Nat) → Nat × Nat
  | 0, last, _ => (0, last)
  | n + 1, last, cs =>
    let g := grantOne last cs
    let f := if byAge cs then 1 else 0
    if g = own then (f, g)
    else
      let r := grants own n g (cs.filter (fun c => c.1 ≠ g))
      (f + r.1, r.2)

/-- Age of a stamp against the half's epoch. -/
def State.ageOf (s : State) (h : Half) (stamp : BitVec 6) : Nat :=
  (s.getF (.noc h 0) R.noc.NOC_CFG_EPOCH + 64 - stamp.toNat) % 64

/-- The age of a packet: a router that forwards one of 48 or more restamps it to 48; one from the hinge keeps the age it came with. -/
def State.pktAge (s : State) (p : MeshPkt) : Nat :=
  match p.age with
  | .now => 0
  | .since e => s.ageOf p.half e
  | .crossed a => a.toNat

/-- One arbiter: its grants up to the packet's own, FORCED, AGE_MAX and AGE_BOUND of its mesh. -/
def State.arbitrate (s : State) (h : Half) (x : ArbSite) (o : ArbObs) (age : Nat) : State :=
  let p := nocPage h x.q
  let own := x.own.getD o.slot.val
  let cs := (own, age) :: (o.others.filter (fun c => c.1.val ≠ own)).map (fun c => (c.1.val, s.ageOf h c.2))
  let g := grants own cs.length (mget 15 s.arbs x.key) cs
  let s := { s with arbs := mset 15 s.arbs x.key g.2 }
  let s := s.set64 p R.noc.FORCED_LO R.noc.FORCED_HI (s.get64 p R.noc.FORCED_LO R.noc.FORCED_HI + g.1)
  let s := s.setF p R.noc.AGE_MAX_CYCLES (max (s.getF p R.noc.AGE_MAX_CYCLES) (min o.wait 4095))
  if o.wait > 2048 then s.err p 11 else s

def arbNone : ArbObs := { slot := 0, others := [], wait := 0, taken := 0 }

/-- The arbiters of a route in order, up to one whose output has no free buffer of the packet's channel (8 an input port, R146): the packet then waits,
and the flag is false. -/
def State.arbiters (s : State) (h : Half) (age : Nat) : List (ArbSite × ArbObs) → State × Bool
  | [] => (s, true)
  | e :: t => if 8 ≤ e.2.taken then (s, false) else (s.arbitrate h e.1 e.2 age).arbiters h (min age 48) t

/-! ## Commands -/

/-- A read whose data is lost: MEM_UNCORR to the reader, cause 0x0A in a cell (R149). -/
def State.readLost (s : State) (h : Half) (reader : Option (Fin 288)) : State :=
  match reader with
  | some c =>
    if (s.cell h c.val).ctx.isSome && (s.cell h c.val).ended.isNone then s.progError h c.val 0xA (s.getF (.cell h c) R.cell.PC) else s
  | none => s.emit (.access h .device 7 [])

/-- MESH_PACKET: routed, arbitrated, handled by its error (R149). What a delivered request does is its own command. FLIT_CE and
FLIT_UE show on the destination's page, ROUTE_ERR on the source's (DESIGN CHOICE, assumption 77). -/
def meshPacket (p : MeshPkt) (s : State) : State :=
  let d := nocPage p.half p.dstQ.val
  let info := match p.load with
    | .writeData a => s.memInfo a.toNat
    | _ => bytesOf 8 0
  if !s.halfUp p.half then s
  else if !isEndpoint p.half p.dstQ.val p.dstR.val p.dstP then s.err (nocPage p.half p.srcQ.val) 8 { info := info }
  else
    let sites := pktSites p
    let (s, through) := s.arbiters p.half (s.pktAge p) (sites.zip (p.arbs ++ List.replicate sites.length arbNone))
    if !through then s
    else
      let ce := s.armed d 9
      let s := if ce then (s.disarm d).err d 9 { info := info, inj := true } else s
      let ue := s.armed d 10
      let s := if ue then (s.disarm d).err d 10 { cost := 4, info := info, inj := true } else s
      match p.err with
      | .headerBad => s.err d 10 { cost := 4, info := info }
      | .corrected => s.err d 9 { info := info }
      | .dataBad =>
        if ue then s
        else match p.load with
          | .writeData a => s.poisonLine (a.toNat / 128)
          | .readData c => s.readLost p.half c
          | .none => s
      | .none => s

/-- MESH_REQUEST_TIMEOUT: a read completes MEM_UNCORR; a write writes an error record and completes as though it had landed (R149). -/
def meshRequestTimeout (h : Half) (q : Fin 4) (write : Bool) (addr : BitVec 52) (cell : Option (Fin 288)) (s : State) :
    State :=
  if !s.halfUp h then s
  else if write then
    (s.fwRecord (.noc h q) false { cost := 4, info := s.memInfo addr.toNat }).emit (.access h .device 0 [])
  else s.readLost h cell

/-- EPOCH_ADVANCE: the half's counter, shown on its four NOC pages (R150). -/
def epochAdvance (h : Half) (s : State) : State :=
  if s.halfUp h then foldOver (allFin 4) (fun q s => s.addWrap (.noc h q) R.noc.NOC_CFG_EPOCH 1) s else s

end Sys2Proof.Machine
end

