-- ==== Sys2Proof/Machine/Optics.lean ====
section
/-! DEFINITION. Optical engines, lasers and rings (06): searches and lock loops, received-power reports, hand-overs and substitutions,
eye safety, OE power states. -/

namespace Sys2Proof.Machine

def laserPage (p : PortId) : Page := .laser p.half p.oe
/-- STATE of laser n: 0 OFF, 1 DARK bias, 2 WARMING, 3 ON, 4 RETIRED. -/
def State.laserSt (s : State) (h : Half) (o : Fin 8) (n : Nat) : Nat := s.getF (.laser h o) (R.laser.LSR_STATE.ix n)

/-- Bias and monitored output of a laser as its state has them (R179, Table 6.4): ON, the bias its setpoint needs, at most the ceiling, where
the output then falls; else values the spec bounds or leaves free. -/
def State.showBias (s : State) (h : Half) (o : Fin 8) (n : Nat) : State :=
  let l : Page := .laser h o
  let ceil := s.getF l R.laser.TILE_BIAS_CEIL
  let need := mget 0 (s.oe h o.val).need n
  let set := Config.laserSet (18 * oeKey h o.val + n)
  let st := s.laserSt h o n
  let bias := if st = 3 then min need ceil else if st = 2 then s.freeAhead 0 % (ceil + 1) else if st = 1 then s.freeAhead 0 % 26 else 0
  let out := if st ≠ 3 then s.freeAhead 1
    else if need ≤ ceil then set.toNat
    else (BitVec.ofInt 16 (set.toInt - 1 - (s.freeAhead 1 % 8192 : Nat))).toNat
  (s.drawn 2).setFs l [(R.laser.LSR_BIAS_MA.ix n, bias), (R.laser.LSR_OUT.ix n, out)]

/-- A laser goes to a state. Lit, it needs at least the bias it needed before, and 70 to 110 mA when it was new. -/
def State.setLaser (s : State) (h : Half) (o : Fin 8) (n st : Nat) : State :=
  let l : Page := .laser h o
  let x := s.oe h o.val
  let s := s.setF l (R.laser.LSR_STATE.ix n) st
  let s := if st = 3 then (s.setOe h o.val { x with need := mput x.need n (max (mget 0 x.need n) (70 + s.freeAhead 0 % 41)) }).drawn 1 else s
  let s := s.showBias h o n
  if n < 16 then s
  else
    let k := n - 16
    let lit := s.getF l R.laser.SPARE_STS_LIT
    s.setF l R.laser.SPARE_STS_LIT ((if bit lit k then lit - 2 ^ k else lit) + (if st = 3 then 2 ^ k else 0))

/-- A laser whose bias has stayed at 135 mA or more needs at least that. -/
def State.ageLaser (s : State) (h : Half) (o : Fin 8) (n : Nat) : State :=
  let x := s.oe h o.val
  (s.setOe h o.val { x with need := mput x.need n (max (mget 0 x.need n) 135) }).showBias h o n

def State.ostate (s : State) (p : PortId) : Nat := s.getF p.page R.oport.BLK_STS_OSTATE
def State.setO (s : State) (p : PortId) (st : Nat) : State := s.setF p.page R.oport.BLK_STS_OSTATE st

/-- INFO of an optical record (14 Table 14.6): global port, down cause, channel. -/
def State.portInfo (s : State) (p : PortId) (ch : Nat) : List Byte :=
  bytesOf 2 p.no ++ bytesOf 1 (s.getF p.page R.oport.LINK_STS_CAUSE) ++ bytesOf 1 ch

/-! ## Rings (R182 to R190) -/

/-- A ring is set at a heater power and its loop has met 4 good updates. -/
def State.lockRing (s : State) (h : Half) (o k w : Nat) : State :=
  s.setRing1 h o k { ringInit with heater := w, home := w, good := 4, locked := true }

/-- Neighbours of a ring: within two places on its bus, and at its place on the adjacent ports' buses (R188). -/
def neighbours (k : Nat) : List Nat :=
  let port := k / 128
  let tx := k / 64 % 2 = 1
  let ring := k % 64
  let n := if tx then 36 else 24
  (((List.range n).filter (fun r => r ≠ ring && decide (r ≤ ring + 2) && decide (ring ≤ r + 2))).map (ringKey port tx)) ++
    (if port ≥ 1 then [k - 128] else []) ++ (if port < 7 then [k + 128] else [])

/-- The measured coefficient of ring k at neighbour j in 1/1000, and the sum of a ring's. -/
def State.cross1 (s : State) (h : Half) (o k j : Nat) : Nat := mget 0 (s.oe h o).cross (1024 * k + j)
def State.crossSum (s : State) (h : Half) (o k : Nat) : Nat := ((neighbours k).map (s.cross1 h o k)).sum

/-- A ring whose coefficients sum to more than 0.25 is unusable. -/
def State.badRing (s : State) (h : Half) (o k : Nat) : Bool := decide (s.crossSum h o k > 250)

/-- Within the guard band, in µW (R182). -/
def inGuard (w : Nat) : Bool := decide (2000 ≤ w) && decide (w ≤ 28000)

/-- Cost of ring r for channel c in a cost table; none is INF. -/
def costOf (t : List (Nat × Nat × Nat)) (r c : Nat) : Option Nat :=
  ((t.filter (fun e => e.1 = r && e.2.1 = c)).map (·.2.2)).min?

/-- One round of relaxation: from each reached ring that is taken by a channel, that channel's other rings. An element is a ring with the
cost to reach it and the pairs (channel, ring) that the path sets. -/
def relaxRound (t : List (Nat × Nat × Nat)) (m : List (Nat × Nat)) (d : List (Nat × (Int × List (Nat × Nat)))) :
    List (Nat × (Int × List (Nat × Nat))) :=
  d.foldl (fun d (e : Nat × (Int × List (Nat × Nat))) =>
    match m.find? (fun x => x.2 = e.1) with
    | none => d
    | some x =>
      (List.range 24).foldl (fun d r =>
        match costOf t e.1 x.1, costOf t r x.1 with
        | some a, some b =>
          let v : Int := e.2.1 - a + b
          let old := d.find? (fun y => y.1 = r)
          if r = e.1 || (match old with
              | some y => decide (y.2.1 ≤ v)
              | none => false) then d
          else mput d r (v, e.2.2 ++ [(x.1, r)])
        | _, _ => d) d) d

def relaxRounds (t : List (Nat × Nat × Nat)) (m : List (Nat × Nat)) :
    Nat → List (Nat × (Int × List (Nat × Nat))) → List (Nat × (Int × List (Nat × Nat)))
  | 0, d => d
  | k + 1, d => relaxRounds t m k (relaxRound t m d)

/-- Add channel c to an assignment at minimum cost, along a shortest augmenting path. -/
def augment (t : List (Nat × Nat × Nat)) (m : List (Nat × Nat)) (c : Nat) : List (Nat × Nat) :=
  let d0 := (List.range 24).filterMap (fun r => (costOf t r c).map (fun w => (r, ((w : Int), [(c, r)]))))
  let d := (relaxRounds t m 24 d0).filter (fun e => !m.any (fun x => x.2 = e.1))
  match d with
  | [] => m
  | e :: r =>
    let b := r.foldl (fun (a b : Nat × (Int × List (Nat × Nat))) => if b.2.1 < a.2.1 then b else a) e
    b.2.2.foldl (fun m x => m.filter (fun y => y.1 ≠ x.1) ++ [x]) m

/-- The minimum-cost assignment of rings to channels (R184): pairs (channel, ring). -/
def minCost (t : List (Nat × Nat × Nat)) (lit : List Nat) : List (Nat × Nat) := lit.foldl (augment t) []

/-- A relock about a stored heater power: the lowest peak within 1 mW, else after a full sweep the lowest in the guard band; whether the
sweep widened (R185). -/
def relockAt (home : Nat) (peaks : List Nat) : Option Nat × Bool :=
  let ok := peaks.filter inGuard
  match (ok.filter (fun w => decide (w ≤ home + 1000) && decide (home ≤ w + 1000))).min? with
  | some w => (some w, false)
  | none => (ok.min?, true)

/-- The heater that the relock of a pinned port finds for channel c on ring c. -/
def State.relockRing (s : State) (h : Half) (o k c : Nat) (peaks : List (Nat × Nat × Nat)) : Option Nat × Bool :=
  if s.badRing h o k then (none, true)
  else relockAt (s.ring1 h o k).home ((peaks.filter (fun e => e.1 = c && e.2.1 = c)).map (·.2.2))

/-- A search, or the relock of a pinned port (R184, R185): rings assigned and locked, the others parked; a lit channel without a ring sets
SEARCH_FAIL and is lost to the receiver. The duration is a free value within its bound. -/
def State.search (s : State) (p : PortId) (x : SearchObs) : State :=
  let h := p.half
  let o := p.oe.val
  let key := ringKey (p.i.val % 8) false
  let lit := bitList 18 x.lit.toNat
  let pinned := s.isSet p.page R.oport.PORT_CFG_CLASS
  let t := x.peaks.filter (fun e => e.1 < 24 && inGuard e.2.2 && !s.badRing h o (key e.1))
  let found := lit.map (fun c => (c, s.relockRing h o (key c) c x.peaks))
  let m := if pinned then found.filterMap (fun e => e.2.1.map (fun w => (e.1, e.1, w)))
    else (minCost t lit).map (fun e => (e.1, e.2, (costOf t e.2 e.1).getD 0))
  let bound := if !pinned then 20000 else if found.any (fun e => e.2.2) then 10200 else 2000
  let s := foldOver (List.range 18) (fun c s =>
    s.setF p.page (rxMap c) (match m.find? (fun e => e.1 = c) with
      | some e => e.2.1
      | none => 0xFF)) s
  let s := foldOver (List.range 24) (fun r s =>
    match m.find? (fun e => e.2.1 = r) with
    | some e => s.lockRing h o (key r) e.2.2
    | none => s.parkRing h o (key r)) s
  let lost := lit.filter (fun c => !m.any (fun e => e.1 = c))
  let s := s.updPort p (fun y => { y with cost := if pinned then y.cost else t, lostRx := lost })
  let s := s.setFs p.page [(R.oport.SEARCH_Q_HEATER_MW, (m.map (fun e => e.2.2)).sum / 1000), (R.oport.SEARCH_Q_US, s.freeAhead 0 % (bound + 1))]
  let s := foldOver lost (fun c s => s.err p.page 11 { info := s.portInfo p c }) (s.drawn 1)
  s.showRings p.half p.oe

/-- The channel a ring serves: by RX_MAP, or by TX_SEL. -/
def State.ringChan (s : State) (p : PortId) (tx : Bool) (ring : Nat) : Option Nat :=
  if tx then if bit (s.getF p.page R.oport.TX_SEL_CAND) (ring / 2) = (ring % 2 = 1 : Bool) && ring / 2 < 18 then some (ring / 2) else none
  else (List.range 18).find? (fun c => s.rxRing p c = ring)

/-- The side that receives a lost channel asks for a substitution (R196). -/
def State.askSub (s : State) (p : PortId) (ch : Nat) : State :=
  if s.linkUp (s.lead p) then s.sendCtl p 6 (bytesOf 1 0 ++ bytesOf 1 ch) else s

/-- A ring loses lock (R190): recorded, then relocked about its stored power, or its channel is failed in that direction. -/
def State.loseLock (s : State) (h : Half) (o : Fin 8) (r : RingId) (peaks : List Nat) (inj : Bool) : State :=
  let p : PortId := ⟨h, Fin.ofNat 64 (8 * o.val + r.port.val)⟩
  let k := ringKey r.port.val r.tx r.ring.val
  let ch := s.ringChan p r.tx r.ring.val
  let info := s.portInfo p (ch.getD 0xFF)
  let s := (s.err (.oe h o) 12 { info := info, inj := inj }).addSat (.oe h o) R.oe.LOCK_LOST_CNT_COUNT 1
  let s := s.err p.page 10 { info := info, inj := inj }
  match (relockAt (s.ring1 h o.val k).home peaks).1 with
  | some w => s.lockRing h o.val k w
  | none =>
    let s := s.parkRing h o.val k
    match ch with
    | none => s
    | some c =>
      if r.tx then s.updPort p (fun x => { x with lostTx := sadd x.lostTx c })
      else
        (((s.updPort p (fun x => { x with lostRx := sadd x.lostRx c })).setF p.page (rxMap c) 0xFF).err p.page 11
          { info := info }).askSub p c

/-- Bits of a 13-bit monitor code beyond the effective ones of an integration time, which are free (R191, Table 6.6). -/
def monCode (int v free : Nat) : Nat :=
  let low := 6 - min int 6
  v / 2 ^ low * 2 ^ low % 8192 + free % 2 ^ low

/-- The selected monitor's integration ends with a reading. -/
def State.showMon (s : State) (h : Half) (o : Fin 8) (v : Nat) : State :=
  let p : Page := .oe h o
  let r := s.getF p R.oe.MON_SEL_RING
  let v := if r < 24 || (32 ≤ r && r < 68) then monCode (s.getF p R.oe.MON_SEL_INT) v (s.freeAhead 0) else 0
  ((s.drawn 1).setFs p [(R.oe.MON_VAL_VALID, 1), (R.oe.MON_VAL_VALUE, v)]).setOe h o.val { s.oe h o.val with monLeft := 0 }

/-- A sensor sample's 100 µs pass for the selected monitor, whatever its ring does. -/
def State.monTick (s : State) (h : Half) (o : Fin 8) : State :=
  let x := s.oe h o.val
  if x.monLeft = 1 then (s.drawn 1).showMon h o (s.freeAhead 0)
  else s.setOe h o.val { x with monLeft := x.monLeft - 1 }

/-- RING_LOCK_UPDATE: one update of a ring's loop (R187), its heater between 0 and P_MAX. An armed injection is a loss of its own beside one that the
update meets (01 R35). -/
def ringLockUpdate (h : Half) (o : Fin 8) (r : RingId) (x : RingObs) (s : State) : State :=
  let k := ringKey r.port.val r.tx r.ring.val
  let y := s.ring1 h o.val k
  if !(s.answers (.oe h o) && (s.pstate h o = 3) && y ≠ ringInit && !y.parked) then s
  else
    let sgn : Int := if y.odd then -1 else 1
    let step := max (-50) (min 50 (Int.fdiv (Config.loopGain (oeKey h o.val) * (sgn * (x.monitor - y.last))) 1000))
    let ns := neighbours k
    let dh := fun (j : Nat) => ((s.ring1 h o.val j).heater : Int) - (mget (s.ring1 h o.val j).heater y.seen j : Nat)
    let ff := -((ns.map (fun j => Int.fdiv ((s.cross1 h o.val k j : Int) * dh j) 1000)).sum)
    let w := (min 30000 ((y.heater : Int) + step + ff)).toNat
    let far := decide (x.offset.natAbs > 60)
    let near := decide (x.offset.natAbs ≤ 20)
    let good := if near then min 4 (y.good + 1) else 0
    let bad := if far then y.bad + 1 else 0
    let locked := y.locked || decide (good ≥ 4)
    let y' : RingSt :=
      { heater := w, home := if locked && near then w else y.home, last := x.monitor, odd := !y.odd, good := good, bad := bad, locked := locked,
        parked := false, ofs := x.offset, seen := ns.foldl (fun m j => mput m j (s.ring1 h o.val j).heater) [] }
    let s := s.setRing1 h o.val k y'
    let sel := s.getF (.oe h o) R.oe.MON_SEL_RING
    let s := if s.getF (.oe h o) R.oe.MON_SEL_PORT = r.port.val && sel = r.ring.val + (if r.tx then 32 else 0) &&
        decide (s.getF (.oe h o) R.oe.MON_SEL_INT ≤ 2) then s.showMon h o x.monitor.toNat
      else s
    let inj := s.armed (.oe h o) 12
    let s := if inj then s.disarm (.oe h o) else s
    let out := !inGuard w
    let s := if out then s.err (.oe h o) 11 { info := bytesOf 2 (64 * halfNo h + 8 * o.val + r.port.val) } else s
    let s := if locked && (bad ≥ 3 || out) then s.loseLock h o r x.peaks false else s
    let s := if inj then s.loseLock h o r x.peaks true else s
    s.showRings h o

/-! ## Hand-overs and substitutions (R193 to R198) -/

/-- The use of a spare by a port, and the channel it carries there. -/
def State.useOf (s : State) (p : PortId) (spare : Nat) : Option SpareUse :=
  (s.oe p.half p.oe.val).uses.find? (fun u => u.port = p.i.val % 8 && u.spare = spare)

/-- The lower spare channel that port p does not use, of those that have not retired. -/
def State.spareFor (s : State) (p : PortId) : Option Nat :=
  let tx := s.getF p.page R.oport.PORT_STS_CH_TX
  [16, 17].find? (fun c => !bit tx c && (s.useOf p c).isNone && s.laserSt p.half p.oe c ≠ 4)

/-- SPARE_STS.USE shows the uses of an OE. -/
def State.showUse (s : State) (h : Half) (o : Fin 8) : State :=
  s.setF (.laser h o) R.laser.SPARE_STS_USE (bitsOf ((s.oe h o.val).uses.map (fun u => 2 * u.port + (u.spare - 16))))

def State.setUses (s : State) (h : Half) (o : Fin 8) (l : List SpareUse) : State :=
  (s.setOe h o.val { s.oe h o.val with uses := l }).showUse h o

/-- A port carries channel src on a spare; a use in which src was itself a spare is replaced. -/
def State.addUse (s : State) (p : PortId) (src spare : Nat) : State :=
  let x := s.oe p.half p.oe.val
  let k := p.i.val % 8
  let from_ := match s.useOf p src with
    | some u => u.src
    | none => src
  s.setUses p.half p.oe (x.uses.filter (fun u => !(u.port = k && (u.spare = src || u.spare = spare))) ++ [⟨k, spare, from_, false⟩])

/-- Whether port p transmits channel c: a data channel that no spare carries for it, or a spare it uses. -/
def State.carriesCh (s : State) (p : PortId) (c : Nat) : Bool :=
  if c < 16 then !(s.oe p.half p.oe.val).uses.any (fun u => u.port = p.i.val % 8 && u.src = c) else (s.useOf p c).isSome

/-- A port without a spare goes down and retrains without the channel (R197). -/
def State.loseChannel (s : State) (p : PortId) (n : Nat) : State :=
  let s := s.updPort p (fun x => { x with lostTx := sadd x.lostTx n })
  if s.ostate p = 4 then (s.setO p 3).linkDown p 6 else s.linkDown p 6

/-- Retire a laser once: RETIRED, its branches closed, and its record queued to the journal with the spare that each port carries its channel on
(R195; body: assumption 11). -/
def State.retireLaser (s : State) (h : Half) (o : Fin 8) (n : Nat) : State :=
  if s.laserSt h o n = 4 then s
  else
    let s := (s.setLaser h o n 4).shutBranches h o ((List.range 8).map (18 * · + n))
    let uses := (s.oe h o.val).uses.map (fun u => if u.src = n then { u with kept := true } else u)
    let s := s.setUses h o uses
    let bits := (uses.filter (fun u => u.src = n)).foldl (fun m u => m + (u.spare - 15) * 4 ^ u.port) 0
    s.journal 2 (bytesOf 1 (oeKey h o.val) ++ bytesOf 1 n ++ bytesOf 2 bits)

/-- Light a dark spare laser: it warms and locks, or it is retired with SPARE_FAIL (R194); which is a free choice. -/
def State.lightSpare (s : State) (h : Half) (o : Fin 8) (c : Nat) : State :=
  if s.laserSt h o c = 3 || s.laserSt h o c = 4 then s
  else if s.freeAhead 0 % 2 = 0 then (s.drawn 1).setLaser h o c 3
  else ((s.drawn 1).retireLaser h o c).err (.laser h o) 10 { info := bytesOf 2 (64 * halfNo h + 8 * o.val) ++ bytesOf 1 0 ++ bytesOf 1 c }

/-- A port takes a spare: the lower one, lit; the other where that one does not lock; none where the modulator rings of the spare fail their
calibration (R193, R194), which is a free choice. -/
def State.takeSpare (s : State) (p : PortId) : State × Option Nat :=
  let h := p.half
  let o := p.oe
  let try_ := fun (s : State) => match s.spareFor p with
    | some c => s.lightSpare h o c
    | none => s
  let s := try_ (try_ s)
  match s.spareFor p with
  | some c => (s.drawn 1, if s.freeAhead 0 % 2 = 0 then some c else none)
  | none => (s, none)

/-- The ports in turn take spares: the pairs, and the ports without one. -/
def State.takeSpares (s : State) : List PortId → State × List (PortId × Nat) × List PortId
  | [] => (s, [], [])
  | p :: t =>
    let a := s.takeSpare p
    let r := a.1.takeSpares t
    match a.2 with
    | some c => (r.1, (p, c) :: r.2.1, r.2.2)
    | none => (r.1, r.2.1, p :: r.2.2)

/-- HO_REQ to a port's partner. -/
def State.askMove (s : State) (m : Move) (n : Nat) : State :=
  let p := portOf m.port
  (s.setO p 4).sendCtl p 2 (bytesOf 1 0 ++ bytesOf 1 n ++ bytesOf 1 m.spare)

/-- Start a hand-over of laser n, or a substitution on one port, on a tile that runs none. Steps 1 to 3 pass within the command: spares are
taken and lit, each port's branch of its spare opens, the partners are asked. -/
def State.beginHandOver (s : State) (h : Half) (o : Fin 8) (n : Nat) (only : Option Nat) : State :=
  let ps := (oePorts h o).filter (fun p =>
    s.linkUp (s.lead p) && bit (s.getF p.page R.oport.PORT_STS_CH_TX) n && (match only with
      | some k => p.no = k
      | none => true))
  let (s, pairs, none_) := s.takeSpares ps
  let ms : List Move := pairs.map (fun e => { port := e.1.no, spare := e.2, st := .asked })
  let s := s.openBranches h o (pairs.map (fun e => branchKey e.1 e.2))
  let s := s.setFs (.laser h o) [(R.laser.SPARE_STS_BUSY, 1), (R.laser.SPARE_STS_STEP, 3), (R.laser.SPARE_STS_FROM, n)]
  let s := foldOver none_ (fun p s => (s.err (.laser h o) 13 { cost := 2, info := s.portInfo p n }).loseChannel p n) s
  let s := s.setOe h o.val { s.oe h o.val with ho := some { n := n, port := only, moves := ms } }
  foldOver ms (fun m s => s.askMove m n) s

/-- Start a hand-over, or let it wait behind the one that runs. -/
def State.startHandOver (s : State) (h : Half) (o : Fin 8) (n : Nat) (only : Option Nat) : State :=
  let x := s.oe h o.val
  let s := if only.isNone then s.err (.laser h o) 8 { info := bytesOf 2 (64 * halfNo h + 8 * o.val) ++ bytesOf 1 0 ++ bytesOf 1 n } else s
  match x.ho with
  | none => s.beginHandOver h o n only
  | some _ => s.setOe h o.val { s.oe h o.val with queue := x.queue ++ [(n, only)] }

/-- A fade of laser n is already under way or waits. -/
def State.handingOver (s : State) (h : Half) (o : Fin 8) (n : Nat) (only : Option Nat) : Bool :=
  let x := s.oe h o.val
  x.queue.contains (n, only) || x.queue.contains (n, none) ||
    (match x.ho with
     | some y => y.n = n && (y.port = none || y.port = only)
     | none => false)

/-- A hand-over ends once every port has moved or left: laser n retires; a substitution closes its ports' branches of n, which stays lit. The next one starts; its own end, should
it move nothing, comes at the next event of the tile. -/
def State.endHandOver (s : State) (h : Half) (o : Fin 8) : State :=
  let x := s.oe h o.val
  match x.ho with
  | none => s
  | some y =>
    if !y.moves.all (fun m => m.st = .done || m.st = .left) then s
    else
      let s := if y.port.isNone then s.retireLaser h o y.n
        else s.shutBranches h o ((y.moves.filter (fun m => m.st = .done)).map (fun m => branchKey (portOf m.port) y.n))
      let s := s.setFs (.laser h o) [(R.laser.SPARE_STS_BUSY, 0), (R.laser.SPARE_STS_STEP, 8)]
      let s := (s.setOe h o.val { s.oe h o.val with ho := none, queue := x.queue.tail }).err (.laser h o) 9
        { info := bytesOf 2 (64 * halfNo h + 8 * o.val) ++ bytesOf 1 0 ++ bytesOf 1 y.n }
      match x.queue with
      | e :: _ => s.beginHandOver h o e.1 e.2
      | [] => s.dimCheck h o

/-- Change the move of a port in the running hand-over. -/
def State.setMove (s : State) (p : PortId) (st : MoveSt) : State :=
  let x := s.oe p.half p.oe.val
  match x.ho with
  | none => s
  | some y =>
    s.setOe p.half p.oe.val { x with
      ho := some { y with moves := y.moves.map (fun m => if m.port = p.no then { m with st := st } else m) } }

/-- The move of a port, while it is one of the given states. -/
def State.moveOf (s : State) (p : PortId) (n sp : Nat) (sts : List MoveSt) : Bool :=
  match (s.oe p.half p.oe.val).ho with
  | some y => y.n = n && y.moves.any (fun m => m.port = p.no && m.spare = sp && sts.contains m.st)
  | none => false

/-- HO_READY: an ALIGN flit, then the lane is duplicated. -/
def hoReady (p : PortId) (n sp : Fin 18) (s : State) : State :=
  if s.answers p.page && s.moveOf p n.val sp.val [.asked] then
    ((s.setMove p .dup).setF (laserPage p) R.laser.SPARE_STS_STEP 5).updPort (s.lead p) (fun x => { x with alignDue := true })
  else s

/-- HO_DONE: the lanes show the spare, the branch of channel n closes. -/
def hoDone (p : PortId) (n sp : Fin 18) (_k : BitVec 16) (s : State) : State :=
  if s.answers p.page && s.moveOf p n.val sp.val [.dup, .dupAgain] then
    let s := foldOver (s.lanesOf p R.oport.LANE_TX_CH n.val) (fun i s => s.setF p.page (laneFld R.oport.LANE_TX_CH i) sp.val) s
    let tx := s.getF p.page R.oport.PORT_STS_CH_TX
    let s := s.setF p.page R.oport.PORT_STS_CH_TX ((if bit tx n.val then tx - 2 ^ n.val else tx) ||| 2 ^ sp.val)
    let s := ((s.addUse p n.val sp.val).setO p 3).setMove p .done
    (s.err p.page 13 { info := s.portInfo p n.val }).endHandOver p.half p.oe
  else s

/-- A port leaves the hand-over by a full link reset without the channel. -/
def State.leaveMove (s : State) (p : PortId) (n : Nat) : State :=
  ((s.setMove p .left).loseChannel p n).endHandOver p.half p.oe

/-- HO_FAIL: duplicated once more; a second failure sends RETRAIN_REQ and the port follows R197. -/
def hoFail (p : PortId) (n sp : Fin 18) (s : State) : State :=
  if !s.answers p.page then s
  else if s.moveOf p n.val sp.val [.dup] then
    ((s.linkEvt p 8).setMove p .dupAgain).updPort (s.lead p) (fun x => { x with alignDue := true })
  else if s.moveOf p n.val sp.val [.dupAgain] then
    (((s.linkEvt p 8).sendCtl p 9 (bytesOf 1 0 ++ bytesOf 1 6 ++ bytesOf 1 8)).sendCtlFlit (s.lead p)).leaveMove p n.val
  else s

/-- HANDOVER_TIMEOUT of a port whose partner has not acknowledged. -/
def handoverTimeout (p : PortId) (s : State) : State :=
  if !s.answers p.page then s
  else
    match (s.oe p.half p.oe.val).ho with
    | some y =>
      if y.moves.any (fun m => m.port = p.no && m.st ≠ .done && m.st ≠ .left) then (s.linkEvt p 8).leaveMove p y.n else s
    | none => s

/-- SUB_REQ: the partner has lost receive channel ch; its move to the lower free spare begins, else R197. -/
def subReq (p : PortId) (ch : Fin 18) (s : State) : State :=
  if !(s.answers p.page && s.linkUp (s.lead p)) || !bit (s.getF p.page R.oport.PORT_STS_CH_TX) ch.val ||
      s.handingOver p.half p.oe ch.val (some p.no) then s
  else (s.startHandOver p.half p.oe ch.val (some p.no)).endHandOver p.half p.oe

/-- RETRAIN_REQ with cause WIDTH leaves, and the port follows R197 on its receive side. -/
def State.cannotReceive (s : State) (p : PortId) (n : Nat) : State :=
  let s := ((s.err p.page 11 { info := s.portInfo p n }).sendCtl p 9 (bytesOf 1 0 ++ bytesOf 1 6 ++ bytesOf 1 8)).sendCtlFlit (s.lead p)
  (s.updPort p (fun x => { x with lostRx := sadd x.lostRx n })).linkDown p 6

/-- HO_REQ at the receiving side: a ring for the spare is chosen and relocked, and HO_READY answers; not UP, the port avoids channel n
when it next trains. -/
def hoReq (p : PortId) (n sp : Fin 18) (peaks : List Nat) (s : State) : State :=
  if !s.answers p.page then s
  else if !s.linkUp (s.lead p) then s.updPort p (fun x => { x with lostRx := sadd x.lostRx n.val })
  else if (s.port p).hoRx = some (n.val, sp.val) then s.sendCtl p 3 (bytesOf 1 0 ++ bytesOf 1 n.val ++ bytesOf 1 sp.val)
  else
    let h := p.half
    let o := p.oe.val
    let key := ringKey (p.i.val % 8) false
    let cost := fun (r : Nat) => costOf (s.port p).cost r sp.val
    let taken := (List.range 18).map (s.rxRing p)
    let free := (List.range 24).filter (fun r => !taken.contains r && (cost r).isSome)
    let pick : Option (Nat × Nat) :=
      if s.isSet p.page R.oport.PORT_CFG_CLASS then
        (if s.badRing h o (key sp.val) then none else some (sp.val, (s.ring1 h o (key sp.val)).home))
      else (leastBy (fun r => (cost r).getD 0) free).map (fun r => (r, (cost r).getD 0))
    match pick with
    | none => s.cannotReceive p n.val
    | some (r, home) =>
      match (relockAt home peaks).1 with
      | none => s.cannotReceive p n.val
      | some w =>
        let s := (s.setF p.page (rxMap sp.val) r).lockRing h o (key r) w
        let s := s.updPort p (fun x => { x with hoRx := some (n.val, sp.val) })
        (s.sendCtl p 3 (bytesOf 1 0 ++ bytesOf 1 n.val ++ bytesOf 1 sp.val)).showRings h p.oe

/-- LASER_SUDDEN_FAIL (R198): the ports that carry the channel go down, take the spare R193 chooses at their next training, and the laser
retires. In its own hand-over the ports that have moved stay up. -/
def laserSuddenFail (h : Half) (o : Fin 8) (n : Fin 18) (s : State) : State :=
  if !(s.answers (.laser h o) && s.laserSt h o n.val = 3) then s
  else
    let s := s.err (.laser h o) 11 { cost := 4, info := bytesOf 2 (64 * halfNo h + 8 * o.val) ++ bytesOf 1 0 ++ bytesOf 1 n.val }
    let ps := (oePorts h o).filter (fun p =>
      (s.linkUp (s.lead p) || s.lstate (s.lead p) = 3) && bit (s.getF p.page R.oport.PORT_STS_CH_TX) n.val)
    let (s, pairs, none_) := s.takeSpares ps
    let s := foldOver pairs (fun e s =>
      ((((s.addUse e.1 n.val e.2).openBranches h o [branchKey e.1 e.2]).updPort e.1 (fun x => { x with lostTx := sadd x.lostTx n.val })).setMove e.1
        .left).linkDown e.1 6) s
    let s := foldOver none_ (fun p s => ((s.err (.laser h o) 13 { cost := 2, info := s.portInfo p n.val }).setMove p .left).loseChannel p n.val) s
    let s := s.retireLaser h o n.val
    let x := s.oe h o.val
    match x.ho with
    | some y =>
      if y.n = n.val then
        (s.setOe h o.val { x with ho := some { y with moves := y.moves.map (fun m => if m.st = .done then m else { m with st := .left }) } }).endHandOver h o
      else s
    | none => s

/-! ## Received-power reports (R181, R192) -/

/-- Signed reading of a 16-bit OMA. -/
def omaOf (v : BitVec 16) : Int := v.toInt

/-- A channel of a port is low: two reports in a row under 1.5 dB with its attenuator open. -/
def State.chLow (s : State) (p : PortId) (n : Nat) : Bool := decide (mget 0 (s.port p).low n ≥ 2)

/-- Take one reported value: kept, its attenuator trimmed, its low count moved. -/
def PortSt_report (x : PortSt) (ch : Nat) (v : BitVec 16) : PortSt :=
  if v = 0x8000 then x
  else
    let a := omaOf v
    let att := mget 0 x.att ch
    let low := decide (a + 900 < 150) && att = 0
    let d : Int := if (a + 500).natAbs ≤ 50 then 0 else max (-5) (min 5 ((a + 500) / 10))
    let att' := (max 0 (min 150 ((att : Int) + d))).toNat
    { x with
      oma := mput x.oma ch v
      att := mset 0 x.att ch att'
      low := mset 0 x.low ch (if low then min 2 (mget 0 x.low ch + 1) else 0) }

/-- MARGIN: the lowest partner-reported margin and its channel. -/
def State.showMargin (s : State) (p : PortId) : State :=
  match (s.port p).oma with
  | [] => s
  | e :: t =>
    let b := t.foldl (fun (a b : Nat × BitVec 16) => if omaOf b.2 < omaOf a.2 then b else a) e
    s.setFs p.page [(R.oport.MARGIN_CH, b.1), (R.oport.MARGIN_MIN, (BitVec.ofInt 16 (omaOf b.2 + 900)).toNat)]

/-- UP ports of an OE that transmit channel n. -/
def State.upPorts (s : State) (h : Half) (o : Fin 8) (n : Nat) : List PortId :=
  (oePorts h o).filter (fun p => s.linkUp (s.lead p) && bit (s.getF p.page R.oport.PORT_STS_CH_TX) n)

/-- Judge laser n by the first row of R192 that matches. A port whose partner has reported nothing yet counts as having 3.0 dB (DESIGN CHOICE,
assumption 86). -/
def State.judge (s : State) (p : PortId) (biasHeld : BitVec 18) (n : Nat) : State :=
  let h := p.half
  let o := p.oe
  let x := s.oe h o.val
  let ups := s.upPorts h o n
  let lows := ups.filter (fun q => s.chLow q n)
  let low := fun (s : State) => if s.chLow p n then s.err p.page 12 { info := s.portInfo p n } else s
  if s.laserSt h o n ≠ 3 then s
  else if !x.ceil && bit biasHeld.toNat n then
    let s := s.ageLaser h o n
    if s.handingOver h o n none then s else (s.startHandOver h o n none).endHandOver h o
  else if lows.isEmpty then s
  else if x.ceil then low s
  else if lows.length ≥ 3 then if s.handingOver h o n none then s else (s.startHandOver h o n none).endHandOver h o
  else if (ups.filter (fun q => !s.chLow q n)).all (fun q => decide (omaOf (mget 0 (s.port q).oma n) + 900 ≥ 300)) then
    foldOver lows (fun q s =>
      if s.handingOver h o n (some q.no) then s else (s.startHandOver h o n (some q.no)).endHandOver h o) s
  else low s

/-- PWR_RPT: seven values of group g, and what each laser's judgement gives. -/
def pwrRpt (p : PortId) (g : Fin 3) (values : List (BitVec 16)) (biasHeld : BitVec 18) (s : State) : State :=
  if !(s.answers p.page && s.linkUp (s.lead p)) then s
  else
    let vs := ((List.range 7).zip values).filter (fun e => 7 * g.val + e.1 < 18)
    let s := s.updPort p (fun x => vs.foldl (fun x (e : Nat × BitVec 16) => PortSt_report x (7 * g.val + e.1) e.2) x)
    let s := s.showMargin p
    foldOver (List.range 18) (fun n s => s.judge p biasHeld n) s

/-- PWR_RPT_SEND: the measured OMA of the received channels, as one CTL flit of three messages. -/
def pwrRptSend (p : PortId) (oma : List (BitVec 16)) (s : State) : State :=
  if !(s.answers p.page && s.linkUp (s.lead p)) then s
  else
    let rx := s.getF p.page R.oport.PORT_RX_CH_RX
    let val := fun (c : Nat) => if c < 18 && bit rx c then nth 0x8000 oma c else (0x8000 : BitVec 16)
    let s := s.updPort p (fun x => { x with
      rxOma := (bitList 18 rx).foldl (fun m c => mput m c (val c)) x.rxOma })
    foldOver (List.range 3) (fun g s =>
      s.sendCtl p 1 (bytesOf 1 g ++ ((List.range 7).map (fun i => bytesOf 2 (val (7 * g + i)).toNat)).flatten)) s

/-- CONTROL_REQUEST_REPEAT: SLEEP_REQ, HO_REQ of a move that waits, SUB_REQ of a lost channel. -/
def controlRequestRepeat (p : PortId) (s : State) : State :=
  if !(s.answers p.page && s.linkUp (s.lead p)) then s
  else
    let s := s.repeatSleep (s.lead p)
    let s := match (s.oe p.half p.oe.val).ho with
      | some y => foldOver (y.moves.filter (fun m => m.port = p.no && m.st = .asked)) (fun m s => s.askMove m y.n) s
      | none => s
    foldOver (s.port p).lostRx (fun c s => s.askSub p c) s

/-- BIAS_CEILING_RESTORE: the triggers resume (R180). -/
def biasCeilingRestore (h : Half) (o : Fin 8) (s : State) : State :=
  if s.answers (.laser h o) && s.getF (.laser h o) R.laser.TILE_BIAS_CEIL = 150 then s.setOe h o.val { s.oe h o.val with ceil := false }
  else s

/-- SPARE_GO: a write of SPARE_CTL (R209). -/
def spareGo (_m : Master) (h : Half) (o : Fin 8) (value : Word) (s : State) : State :=
  let l : Page := .laser h o
  let ch := bits value.toNat 12 8
  if !s.answers l then s
  else
    let s := s.setF l R.laser.SPARE_CTL_CH ch
    if !bit value.toNat 0 then s
    else if s.isSet l R.laser.SPARE_STS_BUSY || decide (ch ≥ 16) || s.laserSt h o ch ≠ 3 then s.stateErr l
    else (s.startHandOver h o ch none).endHandOver h o

/-! ## Eye safety (R199 to R201) -/

/-- LOSS_OF_LIGHT: the branches close, the port goes down; a hand-over goes on without it. -/
def State.lightLost (s : State) (p : PortId) (inj : Bool) : State :=
  let s := s.err p.page 8 { cost := 4, info := s.portInfo p 0, inj := inj }
  if bit (s.getF (laserPage p) R.laser.BRANCH_CLOSED_FIBRE) (p.i.val % 8) then s
  else
    let s := (s.err p.page 9 { info := s.portInfo p 0 }).addSat p.page R.oport.ES_CNT_COUNT 1
    ((s.closePort p 1).setMove p .left).endHandOver p.half p.oe

def lossOfLight (p : PortId) (s : State) : State := if s.answers p.page then s.lightLost p false else s

/-- A closed port that may probe: its OE is ACTIVE or DIM (R204). -/
def State.mayProbe (s : State) (p : PortId) : Bool :=
  s.answers p.page && bit (s.getF (laserPage p) R.laser.BRANCH_CLOSED_FIBRE) (p.i.val % 8) && !s.isSet p.page R.oport.BLK_CTL_SHUT &&
    (s.pstate p.half p.oe = 3 || s.pstate p.half p.oe = 2)

def State.emitProbe (s : State) (p : PortId) : State :=
  (((s.setO p 1).updPort p (fun x => { x with probing := true })).emit (.light p true)).emit (.light p false)

def probe (p : PortId) (s : State) : State := if s.mayProbe p then s.emitProbe p else s

/-- The branches that a port holds open: those of the lit lasers whose channels it carries. -/
def State.ownBranches (s : State) (p : PortId) : List Nat :=
  ((List.range 18).filter (fun c => s.laserSt p.half p.oe c = 3 && s.carriesCh p c)).map (branchKey p)

/-- LIGHT_DETECT: a port within 10 ms of its own probe opens its branches and searches or relocks, which LINK_TRAIN ends, and its link trains; another
answers with a probe. -/
def lightDetect (p : PortId) (x : SearchObs) (s : State) : State :=
  if !s.mayProbe p then s
  else if (s.port p).probing then
    let k := p.i.val % 8
    let f := s.getF (laserPage p) R.laser.BRANCH_CLOSED_FIBRE
    let s := (s.setF (laserPage p) R.laser.BRANCH_CLOSED_FIBRE (f - 2 ^ k)).emit (.light p true)
    let s := s.openBranches p.half p.oe (s.ownBranches p)
    let s := ((s.updPort p (fun y => { y with probing := false })).search p x).setO p 2
    let s := s.updPort p (fun y => { y with retrain := false })
    if s.lstate p ≠ 0 then s
    else if s.isSet p.page R.oport.PORT_CFG_REACH && !s.isSet (.oe p.half p.oe) R.oe.BLK_CAP_FAR_REACH then s.linkEvt p 12
    else s.setL p 1
  else s.emitProbe p

def shut (_m : Master) (p : PortId) (s : State) : State :=
  if s.answers p.page then ((s.closePort p 8).setF p.page R.oport.BLK_CTL_SHUT 1).setMove p .left |>.endHandOver p.half p.oe else s

def unshut (_m : Master) (p : PortId) (s : State) : State :=
  if s.answers p.page then s.setF p.page R.oport.BLK_CTL_SHUT 0 else s

/-- TILE_HEARTBEAT_LOSS: every branch closes and the ports go down, as when the OE is lost. -/
def tileHeartbeatLoss (h : Half) (o : Fin 8) (s : State) : State :=
  if s.answers (.oe h o) then (s.err (.oe h o) 9 { cost := 4, info := bytesOf 2 (64 * halfNo h + 8 * o.val) }).dropOe h o else s

/-- RESEARCH: the port searches or relocks again and its link retrains; STATE_ERR unless OPEN. -/
def research (_m : Master) (p : PortId) (x : SearchObs) (s : State) : State :=
  if !s.answers p.page then s
  else if s.ostate p ≠ 3 then s.stateErr p.page
  else
    let s := (((s.linkDown p 8).search p x).setO p 2).updPort p (fun y => { y with retrain := false })
    if s.lstate (s.lead p) = 4 then s.leaveWaiting (s.lead p) else s

/-! ## OE power states (R202 to R205) -/

/-- Lasers of a tile go to a state; retired ones stay so. -/
def State.allLasers (s : State) (h : Half) (o : Fin 8) (st : Nat) : State :=
  foldOver (List.range 18) (fun n s => if s.laserSt h o n = 4 then s else s.setLaser h o n st) s

/-- The hand-over of an OE is abandoned (Table 6.11). -/
def State.dropHandOver (s : State) (h : Half) (o : Fin 8) : State :=
  let x := s.oe h o.val
  let s := s.setOe h o.val { x with ho := none, queue := [], dim := false }
  s.setFs (.laser h o) [(R.laser.SPARE_STS_BUSY, 0)]

/-- An OE falls to OFF, DARK or RESETTING: ports down, lasers at the state's bias, its rings parked in DARK and else off. -/
def State.lowerOe (s : State) (h : Half) (o : Fin 8) (st laser : Nat) : State :=
  let s := (((s.dropHandOver h o).dropOe h o).allLasers h o laser).setFs (.oe h o) [(R.oe.BLK_STS_PSTATE, st)]
  let x := s.oe h o.val
  let rings := if st = 1 then x.rings.map (fun e => (e.1, { e.2 with locked := false, parked := true, good := 0, bad := 0 })) else []
  (s.setOe h o.val { x with rings := rings }).showRings h o

/-- Lasers lit at ACTIVE: the data lasers, and the spares that ports use. -/
def State.lightLasers (s : State) (h : Half) (o : Fin 8) : State :=
  foldOver (List.range 18) (fun n s =>
    if s.laserSt h o n = 4 then s
    else if n < 16 then s.setLaser h o n 3
    else if (s.oe h o.val).uses.any (fun u => u.spare = n) then s.lightSpare h o n
    else s.setLaser h o n 0) s

/-- Modulators of a port's lit channels are calibrated at their local lasers (R186): of a channel's two rings the one of lower heater power that
reaches −0.5 dBm is selected and locked, the other parked; with none the channel is lost to the transmitter. The heater powers it finds are free
values; `bad` lists the rings that miss −0.5 dBm. -/
def State.modCal (s : State) (p : PortId) (bad : List Nat) : State :=
  let h := p.half
  let o := p.oe.val
  let key := ringKey (p.i.val % 8) true
  let lit := (List.range 18).filter (fun n => s.laserSt h p.oe n = 3)
  let w := fun (r : Nat) => s.freeAhead r % 30001
  let ok := fun (r : Nat) => !bad.contains r && inGuard (w r) && !s.badRing h o (key r)
  let pick := fun (n : Nat) => leastBy w ([2 * n, 2 * n + 1].filter ok)
  let fails := lit.filter (fun n => (pick n).isNone)
  let s := s.drawn 36
  let s := foldOver lit (fun n s =>
    let sel := pick n
    let cand := s.getF p.page R.oport.TX_SEL_CAND
    let off := if bit cand n then cand - 2 ^ n else cand
    let s := s.setF p.page R.oport.TX_SEL_CAND (if sel = some (2 * n + 1) then off + 2 ^ n else off)
    foldOver [2 * n, 2 * n + 1] (fun r s => if sel = some r then s.lockRing h o (key r) (w r) else s.parkRing h o (key r)) s) s
  let s := s.updPort p (fun x => { x with lostTx := x.lostTx.filter (fun n => !lit.contains n) ++ fails })
  let s := foldOver fails (fun c s => s.err p.page 14 { info := s.portInfo p c }) s
  s.showRings h p.oe

/-- Modulator calibration of every port of an OE; `bad` lists rings by OPORT instance. -/
def State.modCalOe (s : State) (h : Half) (o : Fin 8) (bad : List (Nat × Nat)) : State :=
  foldOver (oePorts h o) (fun p s => s.modCal p ((bad.filter (fun e => e.1 = p.i.val)).map (·.2))) s

/-- A request of Table 6.10: the states that take it, and what it does. -/
def State.oeRequest (s : State) (h : Half) (o : Fin 8) (from_ : List Nat) (act : State → State) : State :=
  if !s.answers (.oe h o) then s else if from_.contains (s.pstate h o) then act s else s.stateErr (.oe h o)

def oeReqOff (_m : Master) (h : Half) (o : Fin 8) (s : State) : State :=
  s.oeRequest h o [1, 2, 3] (fun s => s.lowerOe h o 0 0)

/-- DARK: the partners of UP ports are told first. -/
def oeReqDark (_m : Master) (h : Half) (o : Fin 8) (s : State) : State :=
  s.oeRequest h o [2, 3] (fun s => (s.darkOn ((oePorts h o).map (·.no))).lowerOe h o 1 1)

/-- DIM: each UP port asks for sleep; the OE is DIM once none is UP. -/
def State.askDim (s : State) (h : Half) (o : Fin 8) : State :=
  let s := s.setOe h o.val { s.oe h o.val with dim := true }
  let s := foldOver ((oePorts h o).filter (fun p => s.lstate p = 2 && (s.lead p).no = p.no)) (fun p s =>
    (s.updPort p (fun x => { x with asleep := true })).sendCtl p 7 []) s
  s.dimCheck h o

def oeReqDim (_m : Master) (h : Half) (o : Fin 8) (s : State) : State := s.oeRequest h o [3] (fun s => s.askDim h o)

/-- A DIM OE is ACTIVE again within 200 ns, a duration whose value in µs is open; its ports stay asleep until they wake. -/
def State.wakeDim (s : State) (h : Half) (o : Fin 8) : State :=
  ((s.drawn 1).setFs (.oe h o) [(R.oe.BLK_STS_PSTATE, 3), (R.oe.WAKE_TIME_US, s.freeAhead 0 % 2)]).wakeDom h (28 + o.val)

def oeReqActive (_m : Master) (h : Half) (o : Fin 8) (s : State) : State :=
  s.oeRequest h o [0, 1, 2] (fun s =>
    if s.pstate h o = 2 then s.wakeDim h o
    else (s.allLasers h o 2).setF (.oe h o) R.oe.BLK_STS_PSTATE 4)

/-- OE_WAKE_DONE: the lasers are lit, and after OFF, where no ring was held, the modulators are calibrated; a port searches when its light is back. -/
def oeWakeDone (h : Half) (o : Fin 8) (us : BitVec 24) (w : WakeObs) (s : State) : State :=
  if s.answers (.oe h o) && s.pstate h o = 4 then
    let off := (s.oe h o.val).rings.isEmpty
    let s := ((s.lightLasers h o).setFs (.oe h o) [(R.oe.BLK_STS_PSTATE, 3), (R.oe.WAKE_TIME_US, us.toNat)]).wakeDom h (28 + o.val)
    let s := if off then s.modCalOe h o w.modCalBad else s
    if w.late then s.err (.oe h o) 8 { info := bytesOf 2 (64 * halfNo h + 8 * o.val) } else s
  else s

/-- OE_DIM_WAKE, by a flit queued for a port or the wake pattern at one; with a loss of light there in the same sample, the loss of light
counts (Table 6.11). -/
def oeDimWake (h : Half) (w : DimWake) (s : State) : State :=
  let wakes := fun (o : Fin 8) => s.answers (.oe h o) && s.pstate h o = 2
  match w with
  | .flit o => if wakes o then s.wakeDim h o else s
  | .pattern o k => if wakes o && !bit (s.getF (.laser h o) R.laser.BRANCH_CLOSED_FIBRE) k.val then s.wakeDim h o else s

/-- OE_IDLE_DIM, OE_IDLE_DARK: firmware lowers an idle OE (11 R341). -/
def oeIdleDim (h : Half) (o : Fin 8) (s : State) : State :=
  if s.answers (.oe h o) && s.pstate h o = 3 then s.askDim h o else s

def oeIdleDark (h : Half) (o : Fin 8) (s : State) : State :=
  if s.answers (.oe h o) && (s.pstate h o = 3 || s.pstate h o = 2) && (oePorts h o).all (fun p => s.lstate p ≠ 2 && s.lstate p ≠ 3) then
    s.lowerOe h o 1 1
  else s

/-- SLEEP_EXCHANGE_TIMEOUT: a port that has not completed the exchange goes down, and the DIM goes on without it. -/
def sleepExchangeTimeout (p : PortId) (s : State) : State :=
  let p := s.lead p
  if s.answers p.page && s.lstate p = 2 && (s.port p).asleep then
    ((s.linkEvt p 9).linkDown p 8).dimCheck p.half p.oe
  else s

/-- MON_SEL: a monitor is selected; VALID is 0 until its integration ends, which for 256 µs and more takes several sensor samples. -/
def monSel (_m : Master) (h : Half) (o : Fin 8) (value : Word) (s : State) : State :=
  let int := bits value.toNat 26 24
  if !s.answers (.oe h o) then s
  else if s.isSet (.oe h o) R.hdr.BLK_STS_RESET_BUSY then s.stateErr (.oe h o)
  else
    (s.setFs (.oe h o) [(R.oe.MON_SEL_INT, int), (R.oe.MON_SEL_PORT, bits value.toNat 10 8),
      (R.oe.MON_SEL_RING, bits value.toNat 7 0), (R.oe.MON_VAL_VALID, 0), (R.oe.MON_VAL_VALUE, 0)]).setOe h o.val
      { s.oe h o.val with monLeft := nth 41 [1, 1, 1, 1, 3, 11] int }

/-- The OE die resets (R205): its fence clears, an armed injection is cancelled, its pages with those of its ports and its tile return to
reset values, its modules restart. Retired lasers and the use of spares stay. -/
def State.resetOe (s : State) (h : Half) (o : Fin 8) : State :=
  if !s.halfUp h || s.die (dieOe h o) = .off || s.die (dieOe h o) = .reset then s
  else
  let s := s.lowerOe h o 5 1
  let s := (s.setDie (dieOe h o) .up).clearFence h o
  let gone := (List.range 18).filter (fun n => s.laserSt h o n = 4)
  let s := foldOver (.oe h o :: .laser h o :: (oePorts h o).map (·.page)) (fun p s =>
    (s.resetBlockRegs p).setFs p [(R.hdr.ERR_INJ, 0), (R.hdr.BLK_STS_READY, 0), (R.hdr.BLK_STS_FENCED, 0)]) s
  let s := foldOver gone (fun n s => s.setF (.laser h o) (R.laser.LSR_STATE.ix n) 4) s
  let s := (s.allLasers h o 1).setUses h o ((s.oe h o.val).uses.filter (·.kept))
  let s := foldOver (oePorts h o) (fun p s => s.cfgPort p) s
  let s := s.setF (.oe h o) R.hdr.BLK_STS_RESET_BUSY 1
  foldOver (oeModules o) (fun k s => if s.dlState (.ucie h k) = ucDISABLED then s else s.stopModule h k ucRESET) s

/-- OE_RESET: a write of BLK_CTL.RESET; in a reset that runs, STATE_ERR (01 R33). It acts on a die that is fenced or lost too: nothing else
returns one (05 R166; DEDUCED, assumption 80). -/
def oeReset (_m : Master) (h : Half) (o : Fin 8) (s : State) : State :=
  let st := s.die (dieOe h o)
  if !s.halfUp h then s
  else if st = .up then (if s.isSet (.oe h o) R.hdr.BLK_STS_RESET_BUSY then s.stateErr (.oe h o) else s.resetOe h o)
  else if st = .fenced || st = .lost then s.resetOe h o
  else s

/-- An OE starts: its modules that are not disabled train and negotiate, its lasers light, its modulators are calibrated, and it is ACTIVE. -/
def State.runOe (s : State) (h : Half) (o : Fin 8) (modBad : List Nat) (modCalBad : List (Nat × Nat)) : State :=
  let s := foldOver (oeModules o) (fun k s =>
    if s.dlState (.ucie h k) = ucDISABLED then s
    else if modBad.contains k.val then (s.err (.ucie h k) 8 { info := s.laneInfo (.ucie h k) 0xFF }).breakModule h k
    else s.widthModule h k) s
  let s := (s.negotiate h o).measureOe h o (s.oeRate h o)
  let s := s.lightLasers h o
  let keys := (s.oe h o.val).cross.map (fun e => e.1 / 1024)
  let s := s.cal17 h o ((keys.map (s.crossSum h o.val)).foldl max 0)
  let s := if keys.any (s.badRing h o.val) then s.err (.oe h o) 13 { info := bytesOf 2 (64 * halfNo h + 8 * o.val) } else s
  ((s.modCalOe h o modCalBad).setF (.oe h o) R.oe.BLK_STS_PSTATE 3).wakeDom h (28 + o.val)

/-- OE_RESET_DONE: through OFF to ACTIVE; modules or modulators may fail as at a start. -/
def oeResetDone (h : Half) (x : OeStart) (s : State) : State :=
  let o := x.oe
  if !(s.answers (.oe h o) && s.pstate h o = 5) then s
  else
    let s := (s.allLasers h o 0).setFs (.oe h o) [(R.oe.BLK_STS_PSTATE, 0), (R.hdr.BLK_STS_RESET_BUSY, 0)]
    let s := s.runOe h o (x.modBad.map (·.val)) x.modCalBad
    foldOver (.oe h o :: .laser h o :: (oePorts h o).map (·.page)) (fun p s => s.setReady p) s

end Sys2Proof.Machine
end

