-- ==== Sys2Proof/Machine/Train.lean ====
section
/-! DEFINITION. Link training (07 R216 to R222, R242). -/

namespace Sys2Proof.Machine

/-- The largest of 16, 8 and 4 within a bound. -/
def widest (n : Nat) : Nat := if n ≥ 16 then 16 else if n ≥ 8 then 8 else if n ≥ 4 then 4 else 0

def State.wmax (s : State) (p : PortId) : Nat :=
  match s.getF p.page R.oport.LINK_CTL_WMAX with
  | 0 => 16
  | 1 => 8
  | _ => 4

/-- Write the channels of lanes 0 to W − 1 to a lane map. -/
def State.setLanes (s : State) (p : PortId) (f : Fld) (chs : List Nat) : State :=
  foldOver (List.range 16) (fun i s => s.setF p.page (laneFld f i) (nth 0xFF chs i)) s

/-- Members of a bond whose TRN_PARAM says otherwise than it must (R216): size, member index, and the token of the lowest member. -/
def State.badMembers (s : State) (ms : List PortId) : List PortId :=
  let tok := (ms.filterMap (fun m => (s.port m).trn.map (·.token))).head?
  ((List.range ms.length).zip ms).filterMap (fun e =>
    match (s.port e.2).trn with
    | some t => if t.size.toNat = ms.length && t.member.toNat = e.1 && some t.token = tok then none else some e.2
    | none => some e.2)

/-- The lowest-numbered aligned group of 4, 2 or 1 members without a bad one. -/
def bondGroup (ms bad : List PortId) : List PortId :=
  let good := fun (l : List PortId) => l.all (fun m => !bad.contains m)
  let pairs := [ms.take 2, ms.drop 2].filter (fun l => l.length = 2 && good l)
  if good ms then ms
  else
    match pairs with
    | l :: _ => l
    | [] => ((ms.filter (fun m => !bad.contains m)).take 1)

/-- Exclude members of a bond. -/
def State.exclude (s : State) (ms grp : List PortId) : State :=
  foldOver (ms.filter (fun m => !grp.contains m)) (fun m s =>
    ((s.updPort m (fun x => { x with excl := true })).setL m 0).linkEvt m 11) s

/-- Resume (R242): the partner's E releases what it has, and the rest is replayed. -/
def State.resumeLink (s : State) (p : PortId) (e : Nat) : State :=
  let s := (s.takeAck p e).addSat p.page R.oport.DOWN_CNT_RESUMES 1
  let s := s.updPort p (fun x => { x with replay := if s.txN p = e then none else some e, rpStart := e, rpCount := 0 })
  let s := (s.setMembers p R.oport.LINK_STS_HELD 0).setMembers p R.oport.LINK_STS_HOLD_US 0
  (s.linkEvt p 2).kxResume p

/-- Fresh start (R242): a new token, numbers from 0, HELLO, and the key agreement. -/
def State.freshLink (s : State) (p : PortId) (ptoken : Word) : State :=
  let s := s.holdFail p
  let s := s.updPort p (fun x => { x with
    token := BitVec.ofNat 32 (s.freeAhead 0), ptoken := ptoken, flits := [], msgs := [], txReq := [], txRsp := [], offReq := 0,
    offRsp := 0, replay := none, rpStart := 0, rpCount := 0, ackOut := 0, sinceAck := 0, nakFor := none, hello := false })
  let s := ((s.drawn 1).setTx p 0 0).setF p.page R.oport.SEQ_RX_EXPECT 0
  ((s.forgetPort p.no).sendHello p).kxFresh p

/-- A member of a link, what its training met, and the lowest channels it can use each way with the partner. -/
structure TrainSide where
  p  : PortId
  tx : List Nat
  rx : List Nat
deriving DecidableEq, Repr

/-- Channels a port can transmit (R221, 06 R195): its own or on the spare in use, of a lit laser, not lost. -/
def State.txChans (s : State) (p : PortId) : List Nat :=
  (List.range 18).filter (fun c => s.laserSt p.half p.oe c = 3 && s.carriesCh p c && !(s.port p).lostTx.contains c)

/-- Channels a port can receive: their lanes locked, not lost. -/
def State.rxChans (s : State) (p : PortId) (locked : BitVec 18) : List Nat :=
  (List.range 18).filter (fun c => bit locked.toNat c && !(s.port p).lostRx.contains c)

/-- Steps 1 to 5 as this side sends them on a member (Table 7.3): training blocks, TRN_PARAM, TRN_ECHO. -/
def State.sendTraining (s : State) (l : PortId) (n i : Nat) (m : PortId) (x : MemberObs) : State :=
  let b := fun (v : Bool) (k : Nat) => if v then 2 ^ k else 0
  let tx := s.txChans m
  let o : Page := .oe m.half m.oe
  let flags := b (s.isSet m.page R.oport.PORT_CFG_REACH) 0 + b (n > 1) 1 + b (s.isSet o R.oe.BLK_CAP_AES_GCM) 2 + 8 + b (s.isHeldLink l) 4
  let s := (s.sendBlocks m tx.length).trainMsg m 0x10 (bytesOf 1 0 ++ bytesOf 3 (bitsOf tx) ++ bytesOf 3 (bitsOf (s.rxChans m x.lockedRx)) ++
    bytesOf 1 flags ++ bytesOf 1 (16 * n + i) ++ bytesOf 4 (s.port l).token.toNat ++ bytesOf 2 (s.rxE l))
  (s.drawn 1).trainMsg m 0x11 (bytesOf 1 0 ++ bytesOf 4 (s.freeAhead 0))

/-- A far port whose OE lacks the capability stays DOWN (R217). -/
def State.reachOk (s : State) (p : PortId) : Bool :=
  !s.isSet p.page R.oport.PORT_CFG_REACH || s.isSet (.oe p.half p.oe) R.oe.BLK_CAP_FAR_REACH

/-- The optical retrain of a member, where one is due, ends as its observation says; its fibre is OPEN. -/
def State.openMember (s : State) (m : PortId) (x : MemberObs) : State :=
  if s.getF m.page R.oport.BLK_STS_OSTATE ≠ 2 then s
  else
    let s := if (s.port m).retrain then s.search m x.search else s
    (s.updPort m (fun y => { y with retrain := false })).setF m.page R.oport.BLK_STS_OSTATE 3

/-- The width a member reaches (R221): 16, 8, 4, or 0. -/
def State.widthOf (s : State) (lead : PortId) (e : TrainSide) : Nat :=
  let x := s.port lead
  widest (min (min e.tx.length e.rx.length) (min (s.wmax lead) (min (if x.trnW = 0 then 16 else x.trnW) (if s.reduced then 4 else 16))))

/-- Step 6: the link is UP on the members of a group, at width w. -/
def State.linkGoesUp (s : State) (q : PortId) (grp : List TrainSide) (w : Nat) (t : TrnParam) : State :=
  let far := s.isSet q.page R.oport.PORT_CFG_REACH
  let held := s.isHeldLink q
  let n := grp.length
  let x := s.port q
  let s := foldOver grp (fun e s =>
    let tx := e.tx.take w
    let rx := e.rx.take w
    let s := (s.setLanes e.p R.oport.LANE_TX_CH tx).setLanes e.p R.oport.LANE_RX_CH rx
    (s.setFs e.p.page [(R.oport.LINK_STS_LSTATE, 2), (R.oport.PORT_STS_UP, 1), (R.oport.PORT_STS_WIDTH, w),
      (R.oport.PORT_STS_CH_TX, bitsOf tx), (R.oport.PORT_RX_CH_RX, bitsOf rx), (R.oport.LINK_STS_FAR, if far then 1 else 0),
      (R.oport.LINK_STS_BOND, if n = 4 then 2 else if n = 2 then 1 else 0)]).updPort e.p (fun x => { x with unlock := [] })) s
  let s := s.setFs q.page [(R.oport.FC_THR_XOFF_AT, (if far then 6144 else 384) * n),
    (R.oport.FC_THR_XON_AT, (if far then 6080 else 320) * n), (R.oport.CRC_WIN_BAD, 0), (R.oport.CRC_WIN_FLITS, 0),
    (R.oport.LINK_STS_XOFF_REQ, 0), (R.oport.LINK_STS_XOFF_RSP, 0)]
  let s := s.updPort q (fun x => { x with far := far, fails := 0, resets := 0, alignDue := true, stale := false })
  let resume := held && t.held && x.ptoken = t.token && x.trnRes ≠ some false &&
    decide (dist16 (s.txA q) t.e.toNat ≤ dist16 (s.txA q) (s.txN q))
  let s := foldOver grp (fun e s => s.trainMsg e.p 0x12 (bytesOf 1 0 ++ bytesOf 1 w ++ bytesOf 1 (if resume then 1 else 0))) s
  (if resume then s.resumeLink q t.e.toNat else s.freshLink q t.token).settle

/-- The members of a link as configured: those of the bond, lowest first. -/
def State.linkMembers (s : State) (p : PortId) : List PortId :=
  match s.bonds.find? (fun b => b.contains p.no) with
  | some b => b.map portOf
  | none => [p]

/-- LINK_TRAIN of a link, named by its lowest member: each fibre OPEN, the members train as they go with what they meet; without the partner's
TRN_PARAM it waits. A bond runs on the group of its members that trains. -/
def State.trainLink (s : State) (p : PortId) (o : TrainObs) : State :=
  let ms := s.linkMembers p
  let part := ms.filter (fun m => s.lstate m = 1)
  let l := part.headD p
  if !s.answers p.page || ms.head? ≠ some p || part.isEmpty || ms.any (fun m => s.lstate m ≠ 1 && !(s.port m).excl) ||
      part.any (fun m => s.ostate m ≠ 2 && s.ostate m ≠ 3) then s
  else if !part.all s.reachOk then
    foldOver part (fun m s => if s.reachOk m then s else (s.setL m 0).linkEvt m 12) s
  else
    let obs := (List.range ms.length).zip (ms.zip ((List.range ms.length).map (nth ⟨0, 0, ⟨[], 0⟩⟩ o.members)))
    let obs := obs.filter (fun e => s.ostate e.2.1 = 2 || s.ostate e.2.1 = 3)
    let s := foldOver obs (fun e s => s.openMember e.2.1 e.2.2) s
    let s := foldOver obs (fun e s => s.sendTraining l ms.length e.1 e.2.1 e.2.2) s
    if obs.all (fun e => (s.port e.2.1).trn.isNone) then s
    else
      let s := (s.addSat l.page R.oport.TRAIN_CNT_COUNT 1).setF l.page R.oport.LINK_RTT_NS (min o.rttNs 65535)
      if !o.ok then s.trainFail l
      else if o.rttNs > (if s.isSet l.page R.oport.PORT_CFG_REACH then 20000 else 1180) then (s.setMembers l R.oport.LINK_STS_LSTATE 4).linkEvt l 5
      else
        let sides := obs.filterMap (fun e => (s.port e.2.1).trn.map (fun t =>
          (⟨e.2.1, (s.txChans e.2.1).filter (fun c => bit e.2.2.lockedTx.toNat c && bit t.rx.toNat c),
            (s.rxChans e.2.1 e.2.2.lockedRx).filter (fun c => bit t.tx.toNat c)⟩ : TrainSide)))
        let full := (sides.filter (fun e => s.widthOf l e = 16)).map (·.p)
        let grp := if ms.length = 1 then ms
          else bondGroup ms (s.badMembers ms ++ ms.filter (fun m => !full.contains m))
        let run := sides.filter (fun e => grp.contains e.p)
        match run with
        | [] => s.trainFail l
        | e :: _ =>
          let w := s.widthOf l e
          let s := if l ≠ e.p then s.holdFail l else s
          let s := foldOver ms (fun m s => s.updPort m (fun x => { x with excl := false })) s
          let s := s.exclude ms grp
          match (s.port e.p).trn with
          | some t => if w = 0 then s.trainFail l else s.linkGoesUp e.p run w t
          | none => s

end Sys2Proof.Machine
end

