-- ==== Sys2Proof/Machine/Dma.lean ====
section
/-! DEFINITION. COPY and FILL (03 R88, R97; 08 R262) and host memory (09 R292): data of local transfers moves at dispatch, host reads
and remote messages bring theirs as they are answered. -/

namespace Sys2Proof.Machine

/-! ## Requests to host memory (R292) -/

/-- Pieces of n bytes at a host address: at most m bytes, none across a 4 KiB boundary. -/
def hostSplit : Nat → Nat → Nat → Nat → List (Nat × Nat)
  | 0, _, _, _ => []
  | k + 1, m, a, n =>
    if n = 0 then []
    else
      let c := min n (min m (4096 - a % 4096))
      (a, c) :: hostSplit k m (a + c) (n - c)

/-- The function of a space code, 1 or 2. -/
def spaceFn (sp : Nat) : Fn := fnOf (sp - 1)

/-- Write bytes to host memory for a queue; with both ports lost they are discarded, with one error record for each queue (R301). -/
def State.hostWrite (s : State) (h : Half) (q : Nat) (f : Fn) (a : Nat) (b : List Byte) : State :=
  let x := s.fnst f
  foldOver (hostSplit (b.length + 1) (max x.mps 1) a b.length) (fun e s =>
    s.hostPut (some (qKey h q)) f e.1 ((b.drop (e.1 - a)).take e.2) x.roEn) s

/-- Write bytes of a COPY or FILL to a space. -/
def State.writeSpace (s : State) (h : Half) (q sp hint a : Nat) (b : List Byte) : State :=
  if sp = 0 then s.memWrite h .dma hint a b else s.hostWrite h q (spaceFn sp) a b

/-- A COPY from host memory whose last read has been answered has its status. -/
def settleRead (d : Desc) : Desc := if d.pend = 0 then { d with done := true } else d

/-- The answer to a host read: its bytes are written and counted, or the COPY fails with MEM_UNCORR. -/
def State.readAnswer (s : State) (id : Nat) (data : Option (List Byte)) : State :=
  match s.hreads.find? (fun e => e.1 = id) with
  | none => s
  | some e =>
    let r := e.2
    let s := { s with hreads := merase s.hreads id }
    let hint := match s.desc r.half r.q r.slot with
      | some d => bits d.raw 405 404
      | none => 0
    match data with
    | some b =>
      (s.writeSpace r.half r.q r.dsp hint r.dst (padTo r.len b)).updDesc r.half r.q r.slot (fun d =>
        settleRead { d with pend := d.pend - 1, info := d.info + r.len })
    | none =>
      s.updDesc r.half r.q r.slot (fun d =>
        settleRead { d with pend := d.pend - 1, status := if d.status = 0 then 7 else d.status })

/-- Issue the read of n bytes at a host address for a descriptor, whose bytes go to (dsp, dst). An armed injection makes it time
out (R314). -/
def State.hostRead (s : State) (h : Half) (q slot : Nat) (f : Fn) (a n dsp dst : Nat) : State :=
  foldOver (hostSplit (n + 1) (max (s.fnst f).mrrs 1) a n) (fun e s =>
    let id := s.hid
    let s := { s with
      hid := id + 1
      hreads := mput s.hreads id { half := h, q := q, slot := slot, dsp := dsp, dst := dst + (e.1 - a), len := e.2 } }
    let s := s.updDesc h q slot (fun d => { d with pend := d.pend + 1 })
    let p : Page := .pcie ((s.carrier f).getD .A)
    if s.armed p 11 then ((s.disarm p).err p 11 { cost := 4, status := 7, inj := true }).readAnswer id none
    else s.hostIssue (.read f id e.1 e.2)) s

/-- The read is outstanding on the port. -/
def State.portRead (s : State) (h : Half) (id : Nat) : Bool :=
  (s.hport h).reads.any (fun r => match r with
    | .read _ i _ _ => i = id
    | _ => false)

def State.dropRead (s : State) (h : Half) (id : Nat) : State :=
  let x := s.hport h
  s.setHport h { x with reads := x.reads.filter (fun r => match r with
    | .read _ i _ _ => i ≠ id
    | _ => true) }

/-- HOST_COMPLETION: UR and CA fail the read, as too few bytes do. -/
def hostCompletion (h : Half) (id : Nat) (c : CplStatus) (s : State) : State :=
  if !s.portRead h id then s
  else
    let len := (mget { half := h, q := 0, slot := 0, dsp := 0, dst := 0, len := 0 } s.hreads id).len
    let s := s.dropRead h id
    match c with
    | .sc b =>
      let s := s.set64 (.pcie h) R.pcie.DMA_RD_LO R.pcie.DMA_RD_HI (s.get64 (.pcie h) R.pcie.DMA_RD_LO R.pcie.DMA_RD_HI + b.length)
      s.readAnswer id (if b.length = len then some b else none)
    | .ur | .ca => (s.err (.pcie h) 10 { cost := 4, status := 7 }).readAnswer id none

/-- CPL_TIMEOUT: as a failed completion, recorded on the PCIE page. -/
def cplTimeout (h : Half) (id : Nat) (s : State) : State :=
  if !s.portRead h id then s
  else ((s.err (.pcie h) 11 { cost := 4, status := 7 }).dropRead h id).readAnswer id none

/-! ## COPY (R88) -/

/-- A byte address lies in rows of len bytes. -/
def inRows (base stride len rows a : Nat) : Bool :=
  (List.range rows).any (fun r => decide (base + r * stride ≤ a) && decide (a < base + r * stride + len))

/-- The bytes a row of a COPY within one space delivers: undefined where the extents share the byte or its source. -/
def overlapRow (raw stamp : Nat) (r : Nat) (b : List Byte) : List Byte :=
  let len := bits raw 287 256
  let rows := bits raw 311 288 + 1
  let src := bits raw 191 128
  let dst := bits raw 255 192
  let ss := bits raw 359 320
  let ds := bits raw 399 360
  ((List.range b.length).zip b).map (fun e =>
    let x := dst + r * ds + e.1
    let y := src + r * ss + e.1
    if inRows src ss len rows x || inRows dst ds len rows y then Config.freeAt stamp x else e.2)

/-- The bytes of both extents may meet: a quick test on their spans. -/
def spansMeet (raw : Nat) : Bool :=
  let len := bits raw 287 256
  let rows := bits raw 311 288
  let src := bits raw 191 128
  let dst := bits raw 255 192
  decide (src < dst + rows * bits raw 399 360 + len) && decide (dst < src + rows * bits raw 359 320 + len)

/-- One row from device memory to a space; a failed read ends the COPY. -/
def State.copyRow (h : Half) (q raw stamp : Nat) (r : Nat) (acc : State × Nat × Nat) : State × Nat × Nat :=
  if acc.2.1 ≠ 0 then acc
  else
    let len := bits raw 287 256
    let hint := bits raw 405 404
    let dsp := bits raw 403 402
    let x := acc.1.memRead h .dma hint (bits raw 191 128 + r * bits raw 359 320) len
    if x.2.1 ≠ 0 then (x.1, x.2.1, acc.2.2)
    else
      let b := if dsp = 0 && spansMeet raw then overlapRow raw stamp r x.2.2 else x.2.2
      (x.1.writeSpace h q dsp hint (bits raw 255 192 + r * bits raw 399 360) b, 0, acc.2.2 + len)

/-- The messages of a remote COPY: local address, target address, bytes; none crosses a line of the target (08 R262). -/
def remoteMsgs (raw : Nat) : List (Nat × Nat × Nat) :=
  let len := bits raw 287 256
  let read := bits raw 401 400 = 3
  (List.range (bits raw 311 288 + 1)).flatMap (fun r =>
    let src := bits raw 191 128 + r * bits raw 359 320
    let dst := bits raw 255 192 + r * bits raw 399 360
    if read then (linesOf src len).map (fun e => (dst + (e.1 - src), e.1, e.2))
    else (linesOf dst len).map (fun e => (src + (e.1 - dst), e.1, e.2)))

/-- A COPY acts at dispatch: a remote one issues its messages, one from host memory its reads, one from device memory moves its rows. -/
def copyDesc (h : Half) (q : Nat) (d : Desc) (s : State) : State :=
  let raw := d.raw
  let ssp := bits raw 401 400
  let dsp := bits raw 403 402
  let len := bits raw 287 256
  let rows := bits raw 311 288 + 1
  if ssp = 3 || dsp = 3 then
    let c : RCopy :=
      { half := h, q := q, slot := d.slot, part := (s.partOfQ h q).getD 0, raw := raw, todo := remoteMsgs raw, bytes := 0, fail := none,
        out := 0 }
    ({ s with rcopies := s.rcopies ++ [c] }).settle
  else if ssp = 0 then
    let r := (List.range rows).foldl (fun acc k => State.copyRow h q raw s.fresh k acc) (s.drawn 1, 0, 0)
    r.1.updDesc h q d.slot (·.finish r.2.1 0 r.2.2)
  else if (s.carrier (spaceFn ssp)).isNone then s.updDesc h q d.slot (·.finish 7 0 0)
  else
    foldOver (List.range rows) (fun k s =>
      s.hostRead h q d.slot (spaceFn ssp) (bits raw 191 128 + k * bits raw 359 320) len dsp
        (bits raw 255 192 + k * bits raw 399 360)) s

def copy (r : QRef) (hr : HostRead) (s : State) : State := dispatch dCOPY r hr (copyDesc r.half r.q.val) s

/-! ## FILL -/

/-- n bytes of a pattern. -/
def fillBytes (pat : List Byte) (n : Nat) : List Byte := (List.range n).map (fun i => nth 0 pat (i % pat.length))

def fillDesc (h : Half) (q : Nat) (d : Desc) (s : State) : State :=
  let raw := d.raw
  let len := bits raw 231 192
  let pw := 2 ^ bits raw 235 234
  (s.writeSpace h q (bits raw 233 232) 0 (bits raw 191 128) (fillBytes (bytesOf pw (bits raw 319 256)) len)).updDesc h q d.slot
    (·.finish 0 0 len)

def fill (r : QRef) (hr : HostRead) (s : State) : State := dispatch dFILL r hr (fillDesc r.half r.q.val) s

end Sys2Proof.Machine
end

