-- ==== Sys2Proof/Machine/Collective.lean ====
section
/-! DEFINITION. The commands of collectives (08 R276 to R281). -/

namespace Sys2Proof.Machine

/-! ## Dispatch (R276) -/

/-- The member list in memory. -/
def State.memberList (s : State) (h : Half) (a n : Nat) : State × Nat × List Nat :=
  let r := s.memRead h .dma 0 a (2 * n)
  (r.1, r.2.1, codesOf 2 n r.2.2)

/-- A FID stands twice in a list. -/
def repeats : List Nat → Bool
  | [] => false
  | a :: t => t.contains a || repeats t

/-- The swarm checks, and the collective's start. -/
def collectiveDesc (h : Half) (q : Nat) (d : Desc) (s : State) : State :=
  let raw := d.raw
  let p := (s.partOfQ h q).getD 0
  let fail := fun (s : State) (st det : Nat) => s.updDesc h q d.slot (·.finish st det 0)
  let first := s.getF (.comb h) (R.comb.PF_SWARM_FIRST.ix p)
  let u := bits raw 143 128 / 256
  if s.partTag p = none || u < first || u ≥ first + s.getF (.comb h) (R.comb.PF_SWARM_CNT.ix p) then fail s 3 0x97
  else if !s.loaded h p then fail s 2 0x9B
  else
    let table := bits (s.fctxOf h p).raw 319 256
    let r := s.memRead h .dma 0 (table + (bits raw 143 128 - first * 256) * 64) 64
    let e := natOf r.2.2
    let n := bits e 12 1 + 1
    let rank := bits e 24 13
    if r.2.1 ≠ 0 then fail r.1 r.2.1 0
    else
      let l := r.1.memberList h (bits e 83 32) n
      let s := l.1
      let c : CollSt :=
        { half := h, q := q, slot := d.slot, part := p, raw := raw, rank := rank, fids := l.2.2, going := false, ready := [], got := [],
          hold := [], free := s.freeAhead 0, bytes := 0 }
      if l.2.1 ≠ 0 then fail s l.2.1 0
      else if !bit e 0 || rank ≥ n || !s.isOwn (nth 0 l.2.2 rank) || repeats l.2.2 then fail s 2 0x9B
      else if (c.op = 1 || c.op = 3) && c.count % n ≠ 0 then fail s 2 0x82
      else if !below52 c.dst (c.resultLen * c.es) then fail s 2 0x83
      else if !s.devOk h p c.dst (c.resultLen * c.es) then
        fail (s.denySpans h p 0x86 [(c.dst, c.resultLen * c.es)]) 3 0x86
      else if (c.peers.map (s.peerFit c.dt)).contains (some false) then fail s 0xB 0x95
      else if s.aborted.contains (c.swarm, c.cseq) then fail { s with aborted := s.aborted.erase (c.swarm, c.cseq) } 4 0x9D
      else
        let early := s.readys.filter (fun (e : Nat × Nat × Nat) => e.1 = c.swarm && e.2.1 = c.cseq)
        let s := s.drawn 1
        let s := { s with
          colls := s.colls ++ [{ c with ready := early.map (fun (e : Nat × Nat × Nat) => e.2.2) }]
          readys := s.readys.filter (fun (e : Nat × Nat × Nat) => !(e.1 = c.swarm && e.2.1 = c.cseq)) }
        let s := foldOver (c.peers.filter (fun f => (s.entry f).isNone)) (fun f s =>
          match s.collAt h q d.slot with
          | none => s
          | some c =>
            match s.openSession h f with
            | (some t, _) => t
            | (none, t) => t.failColl c 0xC 0x98) s
        s.pumpColl h q d.slot

def collective (r : QRef) (hr : HostRead) (s : State) : State := dispatch dCOLL r hr (collectiveDesc r.half r.q.val) s

/-- COLL_DATA: a segment the schedule does not name aborts the collective with BAD_DESC (R277); with no collective running it is
discarded. -/
def collData (p : PortId) (m : CollMsg) (s : State) : State :=
  let m := { m with opc := 0x20 }
  s.arrive p (.coll m) (fun s =>
    if m.rsvd ≠ 0 || m.len.toNat ≠ m.data.length || m.data.isEmpty || m.data.length > 128 then s
    else
      match s.running m with
      | none => s
      | some c =>
        if c.accepts m then s.takeSeg c m
        else (s.fabEvt p.half 11 m.sfid.toNat 0 { cost := 4, status := 2, detail := 0x9B }).failColl c 2 0x9B)

/-- COLL_READY: held for the running or the next collective of the swarm; one further ahead is discarded and counted. -/
def collReady (p : PortId) (m : CollMsg) (s : State) : State :=
  let m := { m with opc := 0x21 }
  s.arrive p (.coll m) (fun s =>
    let sw := m.swarm.toNat
    let cs := m.cseq.toNat
    let fid := m.sfid.toNat
    if m.rsvd ≠ 0 || m.len ≠ 0 then s
    else
      match s.running m with
      | some c =>
        if c.fids.contains fid then (s.updColl c (fun e => { e with ready := sadd e.ready fid })).pumpColl c.half c.q c.slot else s
      | none =>
        let ahead := match s.swarms.find? (fun e => e.1 = sw) with
          | none => 1
          | some e => (cs + 2 ^ 32 - e.2) % 2 ^ 32
        if ahead = 0 || ahead ≥ 2 ^ 31 then s
        else if ahead > 1 then s.addSat (.comb p.half) R.comb.COLL_DROP_COUNT 1
        else if s.readys.contains (sw, cs, fid) then s
        else { s with readys := s.readys ++ [(sw, cs, fid)] })

/-- COLL_ABORT: the collective completes LINK_LOST; one that is not dispatched yet will (R281). -/
def collAbort (p : PortId) (m : CollMsg) (s : State) : State :=
  let m := { m with opc := 0x22 }
  s.arrive p (.coll m) (fun s =>
    if m.rsvd ≠ 0 || m.len ≠ 0 then s
    else
      match s.running m with
      | some c =>
        if c.fids.contains m.sfid.toNat then (s.dropColl c).updDesc c.half c.q c.slot (·.finish 4 0x9D c.bytes) else s
      | none =>
        let e := (m.swarm.toNat, m.cseq.toNat)
        match s.swarms.find? (fun x => x.1 = e.1) with
        | some x =>
          if 0 < (e.2 + 2 ^ 32 - x.2) % 2 ^ 32 && (e.2 + 2 ^ 32 - x.2) % 2 ^ 32 < 2 ^ 31 && !s.aborted.contains e then
            { s with aborted := s.aborted ++ [e] }
          else s
        | none => if s.aborted.contains e then s else { s with aborted := s.aborted ++ [e] })

/-- COLLECTIVE_TIMEOUT: NO_ROUTE where a member it exchanges data with has no usable candidate, else TIMEOUT. -/
def collectiveTimeout (r : QRef) (slot : BitVec 16) (s : State) : State :=
  match s.collAt r.half r.q.val slot.toNat with
  | none => s
  | some c =>
    if c.peers.any (fun f => (s.route f none (some c.part) false).isNone) then s.failColl c 0xA 0x90 else s.failColl c 5 0x94

end Sys2Proof.Machine
end

