-- ==== Sys2Proof/Machine/Kx.lean ====
section
/-! DEFINITION. Key agreement and rekeying of a link (13 R409 to R414). A bond's keys are its lowest member's. -/

namespace Sys2Proof.Machine

/-- The partner's key message without its signature, laid out as the local one (assumption 19). -/
def partnerBody (m : KxMsg) : List Byte :=
  bytesOf 1 m.kind.toNat ++ bytesOf 8 m.uid.toNat ++ bytesOf 2 m.port.toNat ++ padTo 32 m.nonce ++ padTo 56 m.pub ++ bytesOf 8 m.c.toNat ++
    (if m.kind = 0 then bytesOf 2 m.chain.length ++ m.chain else bytesOf 2 0)

/-- The transcript digest: the lower UID's message first. -/
def transcript (own : List Byte) (m : KxMsg) : List Byte :=
  Config.shake256 (if Config.uid.toNat < m.uid.toNat then own ++ partnerBody m else partnerBody m ++ own)

/-- Why the partner's message is refused (R410, Table 13.7); none: it is accepted. -/
def State.kxJudge (s : State) (p : PortId) (m : KxMsg) : Option Nat :=
  let k := (s.port p).kx
  let chain := if m.kind = 0 then m.chain else k.pchain
  match s.partners.find? (fun e => e.2.ports.contains p.no) with
  | none => some 2
  | some e =>
    if !(s.canEnc p && bit e.2.caps 5) then some 5
    else if m.kind = 0 && !Config.chainOk m.chain m.uid then some 1
    else if m.uid.toNat ≠ e.2.uid then some 2
    else if !Config.verify chain (transcript k.body m) m.sig then some 3
    else if m.debug ≠ 0 && !s.isSet .sec R.sec.SEC_CTL_ALLOW_DEBUG_PEER then some 4
    else none

/-- KX_ABORT goes out, and the agreement counts as refused. -/
def State.kxRefuse (s : State) (p : PortId) (why : Nat) : State := (s.sendCtl p 0x23 (bytesOf 1 0 ++ bytesOf 1 why)).kxRefused p

def State.sendSwitch (s : State) (p : PortId) : State := s.sendCtl p 0x22 (bytesOf 1 0 ++ bytesOf 8 (s.port p).kx.cTx)

/-- Both switches are exchanged: the agreement is complete. -/
def State.kxFinish (s : State) (p : PortId) : State :=
  let k := (s.port p).kx
  if k.sentSw && k.gotSw && (k.st = 2 || k.st = 7) then
    (((s.updKx p (fun k => { k with st := 3 })).addSat .sec R.sec.KX_CNT_DONE 1).setEncOn p true).settle
  else s

/-- The partner's whole message is in: judged; accepted, the keys of both directions are derived (R411) and KX_SWITCH is sent. -/
def State.kxWhole (s : State) (p : PortId) (m : KxMsg) : State :=
  match s.kxJudge p m with
  | some why => s.kxRefuse p why
  | none =>
    let k := (s.port p).kx
    let z := Config.x448 k.secret (m.pub ++ transcript k.body m)
    let low := decide (Config.uid.toNat < m.uid.toNat)
    let s := s.updKx p (fun k => { k with
      st := if k.st = 6 then 7 else 2, secret := 0, cRx := m.c.toNat, nextTx := 2 * z + (if low then 1 else 2),
      nextRx := 2 * z + (if low then 2 else 1), sentSw := true, pchain := if m.kind = 0 then m.chain else k.pchain })
    (s.sendSwitch p).kxFinish p

/-- The state in which a fragment of a kind is taken: an end that did not start the agreement, or whose last one was refused, joins. -/
def State.kxJoin (s : State) (p : PortId) (kind : Nat) : Option State :=
  let st := (s.port p).kx.st
  if kind = 0 then
    if st = 1 || st = 2 then some s
    else if (st = 0 || st = 4) && s.canEnc p then some (s.kxStart p 0)
    else none
  else if kind = 1 then
    if st = 6 || st = 7 then some s else if st = 3 || st = 8 then some (s.kxStart p 1) else none
  else none

/-- KX_FRAG: a fragment in order is counted; every fragment is acknowledged; the last one brings the message. -/
def kxFrag (p : PortId) (kind : BitVec 8) (i : BitVec 16) (whole : Option KxMsg) (s : State) : State :=
  let p := s.lead p
  if !(s.answers p.page && s.linkUp p) then s
  else
    match s.kxJoin p kind.toNat with
    | none => if kind = 0 then s.sendCtl p 0x23 (bytesOf 1 0 ++ bytesOf 1 5) else s
    | some s =>
      let k := (s.port p).kx
      let hit := decide (i.toNat = k.got)
      let s := if hit then s.updKx p (fun k => { k with got := k.got + 1 }) else s
      let s := s.sendCtl p 0x21 (bytesOf 1 0 ++ bytesOf 2 (s.port p).kx.got)
      match whole with
      | some m => if hit && (k.st = 1 || k.st = 6) then s.kxWhole p { m with kind := kind } else s
      | none => s

/-- KX_ACK: the partner holds n fragments in order. -/
def kxAck (p : PortId) (n : BitVec 16) (s : State) : State :=
  let p := s.lead p
  let k := (s.port p).kx
  if s.answers p.page && [1, 2, 6, 7].contains k.st && k.acked < n.toNat && n.toNat ≤ (k.msg.length + 11) / 12 then
    s.updKx p (fun k => { k with acked := n.toNat })
  else s

/-- KX_SWITCH: the partner's switch count. -/
def kxSwitch (p : PortId) (c : BitVec 64) (s : State) : State :=
  let p := s.lead p
  if s.answers p.page && [1, 2, 6, 7].contains (s.port p).kx.st then
    (s.updKx p (fun k => { k with gotSw := true, cRx := c.toNat })).kxFinish p
  else s

/-- KX_ABORT: the partner has refused. -/
def kxAbort (p : PortId) (_reason : BitVec 8) (s : State) : State :=
  let p := s.lead p
  if s.answers p.page && [1, 2, 6, 7].contains (s.port p).kx.st then s.kxRefused p else s

/-- KX_RESEND_TIMER: go-back-N from the count acknowledged; KX_SWITCH again until the partner's one has come. -/
def kxResendTimer (p : PortId) (s : State) : State :=
  let p := s.lead p
  let k := (s.port p).kx
  if !(s.answers p.page && [1, 2, 6, 7].contains k.st) then s
  else
    let s := if k.acked < (k.msg.length + 11) / 12 then s.kxFrags p (if k.st ≤ 2 then 0 else 1) else s
    if k.sentSw && !k.gotSw then s.sendSwitch p else s

/-- KX_TIMEOUT: an initial agreement that is not complete 20 ms after UP counts as refused; the reason sent is a free value. -/
def kxTimeout (p : PortId) (s : State) : State :=
  let p := s.lead p
  let k := (s.port p).kx
  if s.answers p.page && (k.st = 1 || k.st = 2) then (s.drawn 1).kxRefuse p (s.freeAhead 0 % 256) else s

/-- KX_RETRY: a refused agreement starts again each second. -/
def kxRetry (p : PortId) (s : State) : State :=
  let p := s.lead p
  let st := (s.port p).kx.st
  if !(s.answers p.page && s.linkUp p) then s
  else if st = 4 then s.kxStart p 0
  else if st = 8 then s.kxStart p 1
  else s

/-- REKEY, after 1 h or 2^40 data flits. -/
def rekey (p : PortId) (s : State) : State :=
  let p := s.lead p
  if s.answers p.page && s.linkUp p && (s.port p).kx.st = 3 then s.kxStart p 1 else s

/-- KX_SWITCH_TIMEOUT: a sender that has waited 10 ms at its switch count takes the link down, cause LOCAL. -/
def kxSwitchTimeout (p : PortId) (s : State) : State :=
  let p := s.lead p
  if s.answers p.page && s.linkUp p && kxStall (s.port p).kx then s.linkDown p 8 else s

end Sys2Proof.Machine
end

