-- ==== Sys2Proof/Machine/Mailbox.lean ====
section
/-! DEFINITION. Mailboxes, doorbells and the runtime commands (09 R305 to R311; 01 R36). Firmware answers a request it has read from IN by a
message in OUT, which waits while OUT is full. -/

namespace Sys2Proof.Machine

def mbxPage (i : Fin 48) : Page := .mbx i

def isHost : Master → Bool
  | .host0 | .host1 => true
  | _ => false

/-! ## Doorbells (R36, R306) -/

/-- A doorbell of a page's header set whose bit is set and unmasked raises its recipient's interrupt: MBX_VEC on a host pair, else an
internal one. -/
def State.bell (s : State) (p : Page) : State :=
  match p with
  | .mbx i =>
    if i.val < 32 then
      if s.isSet p R.mbx.MBX_VEC_EN then s.raiseVec (fnOf (s.getF p R.mbx.MBX_VEC_FN)) (s.getF p R.mbx.MBX_VEC_VEC) else s
    else s.emit (.irq p)
  | _ => s.emit (.irq p)

/-- Set bits of DB_STS. -/
def State.pushBell (s : State) (p : Page) (m : Nat) : State :=
  let s := s.orF p R.hdr.DB_STS_STS m
  if m &&& (s.getF p R.hdr.DB_MASK_MASK ^^^ 0xFFFFFFFF) ≠ 0 then s.bell p else s

/-- Set bits of FDB_STS: firmware is the recipient, the sequencer on internal pages. -/
def State.fbell (s : State) (i : Fin 48) (m : Nat) : State :=
  let p := mbxPage i
  let s := s.orF p R.mbx.FDB_STS_STS m
  if m &&& (s.getF p R.mbx.FDB_MASK_MASK ^^^ 0xFFFFFFFF) ≠ 0 then s.emit (.irq p) else s

/-! ## Rejected writes (R307) -/

/-- A rejected write: an advisory error in the host's AER and MBX_STS.REJECT, or a bus error to an internal master. -/
def State.mbxReject (s : State) (m : Master) (i : Fin 48) : State :=
  match masterFn m with
  | some f =>
    let x := s.fnst f
    (s.setFnst f { x with aer := x.aer + 1 }).setF (mbxPage i) R.mbx.MBX_STS_REJECT 1
  | none => s.emit (.busError m)

/-- A write of the host to an internal page. -/
def State.foreign (m : Master) (i : Fin 48) : Bool := isHost m && decide (i.val ≥ 32)

/-- A write of the host to the page of an internal mailbox (R309; DEDUCED, assumption 89). -/
def foreignPage (m : Master) : Page → Bool
  | .mbx i => State.foreign m i
  | _ => false

/-- It is rejected. -/
def State.pageReject (s : State) (m : Master) : Page → State
  | .mbx i => s.mbxReject m i
  | _ => s

/-! ## Doorbell writes -/

/-- DOORBELL_SET: a write of DB_SET. -/
def doorbellSet (m : Master) (p : Page) (bits : Word) (s : State) : State :=
  if !(s.answers p && occupied p 0x28) then s
  else if foreignPage m p then s.pageReject m p
  else s.pushBell p bits.toNat

/-- DOORBELL_UNMASK: a write of DB_MASK; a bit unmasked while it is pending raises the interrupt. -/
def doorbellUnmask (m : Master) (p : Page) (mask : Word) (s : State) : State :=
  if !(s.answers p && occupied p 0x2C) then s
  else if foreignPage m p then s.pageReject m p
  else
    let was := s.getF p R.hdr.DB_MASK_MASK
    let s := s.setF p R.hdr.DB_MASK_MASK mask.toNat
    if was &&& (mask.toNat ^^^ 0xFFFFFFFF) &&& s.getF p R.hdr.DB_STS_STS ≠ 0 then s.bell p else s

/-- FDB_SET. -/
def fdbSet (m : Master) (i : Fin 48) (bits : Word) (s : State) : State :=
  if !s.answers (mbxPage i) then s
  else if State.foreign m i then s.mbxReject m i
  else s.fbell i bits.toNat

/-! ## Slots -/

def State.slotBytes (s : State) (i : Fin 48) (f : Fld) : List Byte :=
  (List.range 64).flatMap (fun k => bytesOf 4 (s.getF (mbxPage i) (f.ix k)))

/-- OP, FLAGS, SEQ, RSVD byte and LEN of the message in IN (Table 9.7), and its payload. -/
def State.inMsg (s : State) (i : Fin 48) : List Byte := s.slotBytes i R.mbx.IN_SLOT_DATA
def msgOp (b : List Byte) : Nat := natOf (b.take 1)
def msgSeq (b : List Byte) : Nat := natOf ((b.drop 2).take 2)
def msgRsvd (b : List Byte) : Nat := natOf ((b.drop 5).take 1)
def msgLen (b : List Byte) : Nat := natOf ((b.drop 6).take 2)
def msgBody (b : List Byte) : List Byte := b.drop 8

/-- A message of firmware. -/
def fwMessage (op flags seq status : Nat) (body : List Byte) : List Byte :=
  padTo 256 (bytesOf 1 op ++ bytesOf 1 flags ++ bytesOf 2 seq ++ bytesOf 1 status ++ bytesOf 1 0 ++ bytesOf 2 body.length ++ body)

/-- Messages that wait on a pair. -/
def State.waitingOut (s : State) (i : Fin 48) : List (List Byte) := mget [] s.fwq i.val

/-- Firmware writes OUT and commits it. -/
def State.putOut (s : State) (i : Fin 48) (b : List Byte) : State :=
  let s := foldOver (List.range 64) (fun k s =>
    s.setF (mbxPage i) (R.mbx.OUT_SLOT_DATA.ix k) (natOf ((b.drop (4 * k)).take 4))) s
  (s.setF (mbxPage i) R.mbx.MBX_STS_OUT_FULL 1).pushBell (mbxPage i) 1

/-- Firmware sends a message, or queues it behind those that wait. -/
def State.fwSend (s : State) (i : Fin 48) (b : List Byte) : State :=
  if !s.isSet (mbxPage i) R.mbx.MBX_STS_OUT_FULL && (s.waitingOut i).isEmpty then s.putOut i b
  else { s with fwq := mset [] s.fwq i.val (s.waitingOut i ++ [b]) }

/-- The next waiting message goes out once OUT is empty. -/
def State.fwNext (s : State) (i : Fin 48) : State :=
  match s.waitingOut i with
  | [] => s
  | b :: t =>
    if s.isSet (mbxPage i) R.mbx.MBX_STS_OUT_FULL then s
    else ({ s with fwq := mset [] s.fwq i.val t }).putOut i b

/-- EVT_NOTE on pair 0 (Table 9.8). -/
def State.note (s : State) (cls detail : Nat) : State :=
  if s.answers (mbxPage 0) then
    ({ s with noteSeq := (s.noteSeq + 1) % 65536 }).fwSend 0 (fwMessage 5 2 s.noteSeq 0 (bytesOf 1 cls ++ bytesOf 3 detail))
  else s

/-- Safe halt (10 R324). -/
def State.halted (s : State) : Bool := s.getF .ck R.ctrlch.CC_STS_MODE = 4

/-- Firmware reads IN and acknowledges it. -/
def State.ackIn (s : State) (i : Fin 48) : State := (s.setF (mbxPage i) R.mbx.MBX_STS_IN_FULL 0).pushBell (mbxPage i) 2

/-- Firmware answers the request in IN on the same pair with its SEQ. -/
def State.fwReply (s : State) (i : Fin 48) (b : List Byte) (status : Nat) (body : List Byte) : State :=
  (s.ackIn i).fwSend i (fwMessage (msgOp b) 1 (msgSeq b) status body)

/-- Firmware takes the request of a command code from IN of a host pair; it leaves it there while 8 responses wait (R308). In safe halt
every request is answered STATE_ERR; a privileged one on a pair that is not is ACCESS_DENIED; a bad RSVD byte or LEN BAD_DESC (R311). -/
def State.runtime (s : State) (i : Fin 32) (op : Nat) (priv : Bool) (lenOk : Nat → Bool)
    (act : Fin 48 → List Byte → State → State) : State :=
  let j : Fin 48 := Fin.ofNat 48 i.val
  let b := s.inMsg j
  if !(s.answers (mbxPage j) && s.isSet (mbxPage j) R.mbx.MBX_STS_IN_FULL && msgOp b = op) || (s.waitingOut j).length ≥ 8 then s
  else if s.halted then s.fwReply j b 1 []
  else if priv && i.val ≥ 4 then s.fwReply j b 3 []
  else if msgRsvd b ≠ 0 || !lenOk (msgLen b) then s.fwReply j b 2 []
  else act j b s

/-- Commands of Tables 9.8 and 13.8. -/
def knownOp (n : Nat) : Bool := [1, 2, 3, 4, 6, 0x60, 0x61, 0x62, 0x63, 0x64].contains n

/-- A request with an unknown OP is answered BAD_DESC once firmware reads it. -/
def State.unknownIn (s : State) (i : Fin 48) : State :=
  let b := s.inMsg i
  if i.val < 32 && s.isSet (mbxPage i) R.mbx.MBX_STS_IN_FULL && !knownOp (msgOp b) && (s.waitingOut i).length < 8 then
    s.fwReply i b (if s.halted then 1 else 2) []
  else s

/-! ## SEND and ACK (R306) -/

/-- MBX_SEND: the IN slot is committed; on an internal page the sequencer's doorbell is set as well (R309). -/
def mbxSend (m : Master) (i : Fin 48) (s : State) : State :=
  let p := mbxPage i
  if !s.answers p then s
  else if State.foreign m i then s.mbxReject m i
  else if s.isSet p R.mbx.MBX_STS_IN_FULL then (s.err p 8 {}).mbxReject m i
  else
    let s := (s.setF p R.mbx.MBX_STS_IN_FULL 1).fbell i 1
    let s := if i.val < 32 then s
      else
        let q : Page := .seq (if i.val < 40 then .A else .B)
        if s.answers q then s.pushBell q (2 ^ (i.val % 8)) else s
    s.unknownIn i

/-- MBX_ACK: the OUT slot is acknowledged; a waiting message goes out. -/
def mbxAck (m : Master) (i : Fin 48) (s : State) : State :=
  let p := mbxPage i
  if !s.answers p then s
  else if State.foreign m i then s.mbxReject m i
  else if !s.isSet p R.mbx.MBX_STS_OUT_FULL then s.stateErr p
  else (((s.setF p R.mbx.MBX_STS_OUT_FULL 0).fbell i 2).fwNext i).unknownIn i

/-- MBX_RSEND: firmware commits the OUT slot; the write of a host is rejected. -/
def mbxRsend (m : Master) (i : Fin 48) (s : State) : State :=
  let p := mbxPage i
  if !s.answers p then s
  else if isHost m then s.mbxReject m i
  else if s.isSet p R.mbx.MBX_STS_OUT_FULL then (s.err p 9 {}).mbxReject m i
  else (s.setF p R.mbx.MBX_STS_OUT_FULL 1).pushBell p 1

/-- MBX_RACK: firmware acknowledges the IN slot. -/
def mbxRack (m : Master) (i : Fin 48) (s : State) : State :=
  let p := mbxPage i
  if !s.answers p then s
  else if isHost m then s.mbxReject m i
  else if !s.isSet p R.mbx.MBX_STS_IN_FULL then s.stateErr p
  else s.ackIn i

/-- IN_SLOT_WRITE: rejected while the slot is full, and by an armed injection (R315). -/
def inSlotWrite (m : Master) (i : Fin 48) (word : Fin 64) (value : Word) (s : State) : State :=
  let p := mbxPage i
  if !s.answers p then s
  else if State.foreign m i then s.mbxReject m i
  else if s.armed p 8 then ((s.disarm p).err p 8 { inj := true }).mbxReject m i
  else if s.isSet p R.mbx.MBX_STS_IN_FULL then (s.err p 8 {}).mbxReject m i
  else s.setF p (R.mbx.IN_SLOT_DATA.ix word.val) value.toNat

/-- OUT_SLOT_WRITE, by firmware. -/
def outSlotWrite (m : Master) (i : Fin 48) (word : Fin 64) (value : Word) (s : State) : State :=
  let p := mbxPage i
  if !s.answers p then s
  else if isHost m then s.mbxReject m i
  else if s.isSet p R.mbx.MBX_STS_OUT_FULL then (s.err p 9 {}).mbxReject m i
  else s.setF p (R.mbx.OUT_SLOT_DATA.ix word.val) value.toNat

/-! ## Runtime commands (R311, Table 9.8) -/

/-- Host roles: port A up, port B up, takeover active. -/
def State.hostRoles (s : State) : Nat :=
  let up := fun (h : Half) => s.isSet (.pcie h) R.pcie.LINK_STS_DL_UP && s.halfUp h
  (if up s.queen then 1 else 0) + (if up (otherHalf s.queen) then 2 else 0) +
    (if [Half.A, Half.B].any (fun h => s.isSet (.pcie h) R.pcie.HOST_ROLE_CARRIES_OTHER) then 4 else 0)

/-- GET_INFO; the firmware version is that of the keeper image in force. -/
def getInfo (i : Fin 32) (s : State) : State :=
  s.runtime i 1 false (· = 0) (fun j b s =>
    let ver := match s.sec.running.find? (fun e => e.1 = .keeper) with
      | some e => e.2.version.toNat
      | none => 0
    s.fwReply j b 0 (bytesOf 4 (s.readReg .keeper 0x100).toNat ++ bytesOf 2 s.ownFid ++ bytesOf 8 Config.uid.toNat ++ bytesOf 4 ver ++
      bytesOf 1 (halfNo s.leader) ++ bytesOf 1 s.hostRoles))

/-- Distances between domains (04 Table 4.3). -/
def numaTable : List (List Nat) :=
  [[10, 12, 14, 12, 22, 21, 23, 24, 30, 40], [12, 10, 12, 14, 21, 20, 22, 23, 30, 40], [14, 12, 10, 12, 23, 22, 20, 21, 30, 40],
   [12, 14, 12, 10, 24, 23, 21, 22, 30, 40], [22, 21, 23, 24, 10, 12, 14, 12, 40, 30], [21, 20, 22, 23, 12, 10, 12, 14, 40, 30],
   [23, 22, 20, 21, 14, 12, 10, 12, 40, 30], [24, 23, 21, 22, 12, 14, 12, 10, 40, 30], [30, 30, 30, 30, 40, 40, 40, 40, 10, 40],
   [40, 40, 40, 40, 30, 30, 30, 30, 40, 10]]

/-- The half of a domain: 0 to 3 and 8 are half A. -/
def domHalf (d : Nat) : Nat := if d < 4 || d = 8 then 0 else 1

/-- The distances as reported now (04 R117): between the halves 60 over a bypass pair, 255 with no path. -/
def State.numa (s : State) : List Nat :=
  let hg := s.hingeView
  (List.range 10).flatMap (fun i => (List.range 10).map (fun j =>
    if hg = 0 || domHalf i = domHalf j then nth 0 (nth [] numaTable i) j else if hg = 1 then 60 else 255))

/-- GET_NUMA. -/
def getNuma (i : Fin 32) (s : State) : State :=
  s.runtime i 2 false (· = 0) (fun j b s => s.fwReply j b 0 (s.numa.flatMap (bytesOf 1)))

/-- Write a transit entry; without a valid candidate every byte is 0. -/
def State.setTransit (s : State) (fid : Nat) (c : List Nat) : State :=
  { s with transit := mset [] s.transit fid (if c.any (· ≥ 128) then c else []) }

/-- XT_WRITE: entries in order. -/
def xtWrite (i : Fin 32) (s : State) : State :=
  s.runtime i 3 true (fun n => decide (8 ≤ n) && decide (n ≤ 248)) (fun j b s =>
    let body := msgBody b
    let n := natOf (body.take 2)
    if n = 0 || n > 41 || msgLen b ≠ 2 + 6 * n then s.fwReply j b 2 []
    else
      let s := foldOver (List.range n) (fun k s =>
        let e := (body.drop (2 + 6 * k)).take 6
        s.setTransit (natOf (e.take 2)) ((e.drop 2).map (·.toNat))) s
      s.settle.fwReply j b 0 [])

/-- XT_READ. -/
def xtRead (i : Fin 32) (s : State) : State :=
  s.runtime i 4 false (· = 2) (fun j b s =>
    s.fwReply j b 0 (padTo 4 ((mget [] s.transit (natOf ((msgBody b).take 2))).map (BitVec.ofNat 8))))

/-- NOTE_ACK. -/
def noteAck (i : Fin 32) (s : State) : State := s.runtime i 6 false (· = 2) (fun j b s => s.fwReply j b 0 [])

end Sys2Proof.Machine
end

