-- ==== Sys2Proof/Machine/Host.lean ====
section
/-! DEFINITION. Host attach (09 R284 to R304, R312, R313): resets and power states of the functions, the data links, takeover and giveback,
BAR2, MSI-X, configuration, DOE, and locks whose holder is lost. -/

namespace Sys2Proof.Machine

/-! ## Locks whose holder is lost (R304) -/

/-- Pages whose LOCK a master holds. -/
def State.lockedBy (s : State) (id : Nat) : List Page :=
  s.regs.filterMap (fun e => if e.1 % 4096 = 0x20 && e.2.toNat % 256 = id then pageOf (e.1 / 4096 * 4096) else none)

/-- Release one lock, with its record. -/
def State.dropLock (s : State) (p : Page) (id : Nat) : State :=
  (s.setF p R.hdr.LOCK_OWNER 0).fwRecord p false { info := bytesOf 1 id }

/-- Release the locks of a master. -/
def State.dropLocks (s : State) (id : Nat) : State := foldOver (s.lockedBy id) (fun p s => s.dropLock p id) s

def fnMaster : Fn → Master
  | .f0 => .host0
  | .companion => .host1

def fnNo : Fn → Nat
  | .f0 => 0
  | .companion => 1

/-! ## Issuing what was held (R296, R297) -/

/-- Issue what the port keeps, then what it holds, where it can send. -/
def State.flushPort (s : State) (h : Half) : State :=
  if !s.portOpen h then s
  else
    let x := s.hport h
    let s := s.setHport h { x with kept := [], held := [] }
    let s := foldOver x.kept (fun r s => (s.addSat (.pcie h) R.pcie.RESEND_CNT_COUNT 1).sendOn h r) s
    foldOver x.held (fun r s => s.sendOn h r) s

/-- Pending vectors of a function that are no longer blocked send their message (R294). -/
def State.flushPba (s : State) (f : Fn) : State :=
  let x := s.fnst f
  let go := x.pba.filter (fun v => !msixBlocked x v && !x.d3)
  let s := s.setFnst f { x with pba := x.pba.filter (fun v => !go.contains v) }
  foldOver go (fun v s => s.raiseVec f v) s

/-! ## Resets (R295) -/

/-- A queue names the function in a ring space or its vector. -/
def queueNames (n : Nat) (x : QueueSt) : Bool := x.ctx.dsp = n + 1 || x.ctx.csp = n + 1 || x.ctx.vecFn = n

/-- A fabric context names the function in a ring space or its vector. -/
def fctxNames (n raw : Nat) : Bool :=
  bits raw 149 148 = n + 1 || bits raw 151 150 = n + 1 || bits raw 153 152 = n + 1 || bits raw 147 147 = n

/-- A fabric context becomes NOT_LOADED; its commands go with it. -/
def State.unloadFctx (s : State) (k : Nat) : State :=
  { s with
    fctx := merase s.fctx k
    reqs := s.reqs.filter (fun e => match e.2.owner with
      | .cmd h p _ => 8 * halfNo h + p ≠ k
      | .copy _ _ _ _ => true) }

/-- What a reset of a function does. -/
def State.resetFn (s : State) (f : Fn) : State :=
  let n := fnNo f
  let p : Page := .pcie (s.ownPort f)
  let s := s.setFnst f fnInit
  let s := s.setFs p [(R.pcie.BAR2_BASE_LO_ADDR, 0), (R.pcie.BAR2_BASE_HI_ADDR, 0), (R.pcie.BAR2_SIZE_LOG2, 36),
    (R.pcie.HOST_ROLE_PRESENT, 0)]
  let s := foldOver s.queues (fun e s =>
    if queueNames n e.2 && e.2.st ≠ 0 then s.resetQueue (halfOf (e.1 / 512)) (e.1 % 512) 9 else s) s
  let s := foldOver s.fctx (fun e s => if fctxNames n e.2.raw then s.unloadFctx e.1 else s) s
  s.dropLocks (masterId (fnMaster f))

/-- The data link of a port is down: what is not acknowledged is kept (R297). How many of the posted requests sent last are not is a free
value. -/
def State.linkLoss (s : State) (h : Half) : State :=
  let x := s.hport h
  let k := s.freeAhead 0 % (x.sent.length + 1)
  let s := (s.drawn 2).setHport h { x with sent := [], reads := [], kept := x.kept ++ x.sent.drop (x.sent.length - k) ++ x.reads }
  s.setFs (.pcie h) [(R.pcie.LINK_STS_DL_UP, 0), (R.pcie.LINK_STS_FLIT, 0), (R.pcie.LINK_STS_RATE, 0), (R.pcie.LINK_STS_WIDTH, 0),
    (R.pcie.LINK_STS_LTSSM, s.freeAhead 0)]

def State.portPerst (s : State) (h : Half) : Bool :=
  match h with
  | .A => s.pins.perstA
  | .B => s.pins.perstB

def State.setPerst (s : State) (h : Half) (on : Bool) : State :=
  { s with pins := match h with
      | .A => { s.pins with perstA := on }
      | .B => { s.pins with perstB := on } }

/-- PERST: the pin is asserted, the link drops, the function is reset. A port that carries the other function stays liable to be lost
(R313). -/
def perst (h : Half) (s : State) : State :=
  if !s.answers (.pcie h) then s.setPerst h true
  else
    let s := (s.setPerst h true).linkLoss h
    let s := s.setHport h { s.hport h with wasUp := s.isSet (.pcie h) R.pcie.HOST_ROLE_CARRIES_OTHER }
    s.resetFn (s.portFn h)

/-- HOT_RESET. -/
def hotReset (f : Fn) (s : State) : State :=
  let h := s.ownPort f
  if s.answers (.pcie h) && s.isSet (.pcie h) R.pcie.LINK_STS_DL_UP then (s.linkLoss h).resetFn f else s

/-- FLR. -/
def flr (f : Fn) (s : State) : State :=
  let h := s.ownPort f
  if s.answers (.pcie h) && s.isSet (.pcie h) R.pcie.LINK_STS_DL_UP then s.resetFn f else s

/-- PERST_DEASSERT: the port may train. -/
def perstDeassert (h : Half) (s : State) : State := s.setPerst h false

/-- A function's own port carries configuration requests. -/
def State.cfgOpen (s : State) (f : Fn) : Bool :=
  s.answers (.pcie (s.ownPort f)) && s.isSet (.pcie (s.ownPort f)) R.pcie.LINK_STS_DL_UP

/-- D3HOT_ENTRY. -/
def d3hotEntry (f : Fn) (s : State) : State :=
  if s.cfgOpen f then s.setFnst f { s.fnst f with d3 := true } else s

/-- D0_RETURN. -/
def d0Return (f : Fn) (s : State) : State :=
  if s.cfgOpen f && (s.fnst f).d3 then
    ((s.setFnst f { s.fnst f with d3 := false }).flushPort (s.ownPort f)).flushPba f
  else s

/-! ## Links, takeover, giveback (R297 to R301) -/

/-- DATA_LINK_DOWN. -/
def dataLinkDown (h : Half) (s : State) : State :=
  if s.answers (.pcie h) && s.isSet (.pcie h) R.pcie.LINK_STS_DL_UP then
    (s.linkLoss h).err (.pcie h) 12 { cost := 0 }
  else s

/-- DATA_LINK_UP: kept requests are issued again on the port; one that was lost carries its own function again once both were lost. -/
def dataLinkUp (h : Half) (flit : Bool) (rate : BitVec 4) (width : BitVec 5) (s : State) : State :=
  if !s.answers (.pcie h) || s.portPerst h || s.isSet (.pcie h) R.pcie.LINK_STS_DL_UP then s
  else
    let s := s.setFs (.pcie h) [(R.pcie.LINK_STS_DL_UP, 1), (R.pcie.LINK_STS_FLIT, if flit then 1 else 0),
      (R.pcie.LINK_STS_RATE, rate.toNat), (R.pcie.LINK_STS_WIDTH, width.toNat), (R.pcie.LINK_STS_LTSSM, s.freeAhead 0)]
    let s := (s.drawn 1).setHport h { s.hport h with lost := false, wasUp := true }
    ({ s with lostQ := [] }).flushPort h

/-- A queue with a ring in host space halts (R301). -/
def State.haltHostQueue (s : State) (e : Nat × QueueSt) : State :=
  if (e.2.ctx.dsp ≠ 0 || e.2.ctx.csp ≠ 0) && (e.2.st = qACTIVE || e.2.st = qPAUSING) then
    s.afterQ (halfOf (e.1 / 512)) (e.1 % 512) true
  else s

/-- Host attach is lost: what is kept and held is discarded, with one record for each queue whose writes are, reads fail, queues with host
rings halt; management event 5. -/
def State.attachLost (s : State) : State :=
  let all := s.portA.kept ++ s.portA.held ++ s.portB.kept ++ s.portB.held
  let s := { s with
    portA := { s.portA with kept := [], held := [] }
    portB := { s.portB with kept := [], held := [] } }
  let s := foldOver [Half.A, Half.B] (fun h s => s.setF (.pcie h) R.pcie.HOST_ROLE_CARRIES_OTHER 0) s
  let s := foldOver all (fun r s => match r with
    | .write _ _ _ _ q => s.lostWrite q
    | _ => s) s
  let s := foldOver s.hreads (fun e s => s.readAnswer e.1 none) s
  let s := foldOver s.queues (fun e s => s.haltHostQueue e) s
  (s.fwRecord (.pcie s.leader) false { cost := 6 }).mgmtEvt 5 none

/-- A port is declared lost; the other one, if it is up, takes over (Table 9.5). -/
def State.hportLost (s : State) (h : Half) : State :=
  if (s.hport h).lost then s
  else
    let o := otherHalf h
    let s := if s.isSet (.pcie h) R.pcie.LINK_STS_DL_UP then s.linkLoss h else s
    let s := s.setHport h { s.hport h with lost := true }
    let s := s.dropLocks (masterId (fnMaster (s.portFn h)))
    if (s.hport o).lost then s.attachLost
    else
      let x := s.hport h
      let y := s.hport o
      if s.isSet (.pcie o) R.pcie.LINK_STS_DL_UP || y.wasUp then
        let s := (s.setHport h { x with kept := [], held := [] }).setHport o
          { y with kept := y.kept ++ x.kept, held := y.held ++ x.held }
        let s := s.setF (.pcie h) R.pcie.HOST_ROLE_CARRIES_OTHER 0
        let s := (s.setF (.pcie o) R.pcie.HOST_ROLE_CARRIES_OTHER 1).err (.pcie o) 14 { cost := 2 }
        let s := s.flushPort o
        let s := if s.isSet (.pcie o) R.pcie.EVT_VEC_EN then s.raiseVec (s.portFn o) (s.getF (.pcie o) R.pcie.EVT_VEC_VEC) else s
        s.note 1 0
      else s

/-- PORT_LOST: a link that has been up stays down for 10 ms with PERST_N deasserted. -/
def portLost (h : Half) (s : State) : State :=
  if s.answers (.pcie h) && !s.portPerst h && !s.isSet (.pcie h) R.pcie.LINK_STS_DL_UP && (s.hport h).wasUp then s.hportLost h else s

/-- GIVEBACK (R300). -/
def giveback (_m : Master) (h : Half) (s : State) : State :=
  let p : Page := .pcie h
  let o : Page := .pcie (otherHalf h)
  if !s.answers p then s
  else if !(s.isSet p R.pcie.LINK_STS_DL_UP && s.isSet o R.pcie.HOST_ROLE_CARRIES_OTHER) then s.stateErr p
  else ((s.setF o R.pcie.HOST_ROLE_CARRIES_OTHER 0).err p 13 {}).note 2 0

/-! ## BAR2 (R290, R291) -/

/-- The function's accesses reach the device: its port is up, memory space is enabled, it is in D0. -/
def State.memOpen (s : State) (f : Fn) : Bool := s.cfgOpen f && (s.fnst f).mse && !(s.fnst f).d3

/-- The device address of a BAR2 offset. -/
def State.bar2Addr (s : State) (f : Fn) (offset : Nat) : Nat :=
  let p : Page := .pcie (s.ownPort f)
  let sz := 2 ^ s.getF p R.pcie.BAR2_SIZE_LOG2
  (s.getF p R.pcie.BAR2_BASE_LO_ADDR * 2 ^ 28 + s.getF p R.pcie.BAR2_BASE_HI_ADDR * 2 ^ 32) / sz * sz + offset

def State.bar2Bad (s : State) (f : Fn) : State :=
  let x := s.fnst f
  (s.setFnst f { x with aer := x.aer + 1 }).err (.pcie (s.ownPort f)) 8 {}

/-- Lines of a BAR2 read are read at their homes, and the data leaves. -/
def State.bar2Serve (s : State) (f : Fn) (a len : Nat) (u : Upset) : State :=
  let r := (linesOf a len).foldl (fun (acc : State × Bool × List Byte × Upset) e =>
    let r := acc.1.lineOp (s.ownPort f) .host false e.1 0 [] e.2 acc.2.2.2
    (r.1, acc.2.1 || r.2.1 ≠ 0, acc.2.2.1 ++ padTo e.2 r.2.2, .none)) (s, false, [], u)
  r.1.emit (.bar2Data f r.2.2.1 r.2.1)

/-- BAR2_READ: Unsupported Request where an address is not mapped, poisoned data where a line cannot be read; held while a stack
controller holds one of its lines (04 R123). -/
def bar2Read (f : Fn) (offset len : Nat) (u : Upset) (s : State) : State :=
  let h := s.ownPort f
  let a := s.bar2Addr f offset
  if !s.cfgOpen f then s
  else if !s.memOpen f || offset + len > 2 ^ s.getF (.pcie h) R.pcie.BAR2_SIZE_LOG2 || len > 4096 then s.emit (.bar2UR f)
  else if (linesOf a len).any (fun e => !s.mapped e.1) then (s.bar2Bad f).emit (.bar2UR f)
  else if s.holds [(a, len)] then s.hold (.bar2 f a len u)
  else s.bar2Serve f a len u

/-- BAR2_WRITE: lines of unmapped addresses are dropped; poisoned data poisons each line it touches. -/
def bar2Write (f : Fn) (offset : Nat) (data : List Byte) (poisoned : Bool) (s : State) : State :=
  let h := s.ownPort f
  let a := s.bar2Addr f offset
  if !s.memOpen f || offset + data.length > 2 ^ s.getF (.pcie h) R.pcie.BAR2_SIZE_LOG2 then s
  else
    let ls := linesOf a data.length
    let s := if ls.any (fun e => !s.mapped e.1) then s.bar2Bad f else s
    let s := foldOver (ls.filter (fun e => s.mapped e.1)) (fun e s =>
      if poisoned then s.poisonLine (e.1 / 128)
      else (s.lineOp h .host true e.1 0 ((data.drop (e.1 - a)).take e.2) e.2 .none).1) s
    if poisoned && !ls.isEmpty then s.err (.pcie h) 9 { cost := 4, status := 7, info := s.memInfo a } else s

/-! ## MSI-X and configuration (R288, R289, R294) -/

/-- Write a word of a function's MSI-X table; a vector that is no longer blocked sends its pending message. -/
def State.msixWrite (s : State) (f : Fn) (k : Nat) (v : Word) : State :=
  let x := s.fnst f
  (s.setFnst f { x with msix := mset (if k % 4 = 3 then 1 else 0) x.msix k v }).flushPba f

/-- MSIX_UNMASK: the mask bit of the vector's control word is cleared. -/
def msixUnmask (f : Fn) (vec : Fin 2048) (s : State) : State :=
  if s.memOpen f then s.msixWrite f (4 * vec.val + 3) (putBits (msixWord (s.fnst f) vec.val 3) 0 0 0) else s

/-- The identifiers a function presents (R287): both carry one serial number, the device's UID. -/
def State.fnIds (s : State) (f : Fn) : FnIds :=
  { vendor := 0x1F6B, device := 0x9600 + fnNo f, cls := 0x120000, revision := (s.readReg .keeper 0x100).toNat / 256 % 256,
    subsys := s.cfg.subsys.getD 0, serial := Config.uid }

/-- CONFIGURATION_WRITE. -/
def configurationWrite (f : Fn) (w : CfgWrite) (s : State) : State :=
  if !s.cfgOpen f then s
  else
    let x := s.fnst f
    let p : Page := .pcie (s.ownPort f)
    match w with
    | .memorySpace on => s.setFnst f { x with mse := on }
    | .busMaster on =>
      ((s.setFnst f { x with bme := on }).setF p R.pcie.HOST_ROLE_PRESENT (if on then 1 else 0)).flushPort (s.ownPort f)
    | .msixEnable on => (s.setFnst f { x with msixEn := on }).flushPba f
    | .relaxedOrdering on => s.setFnst f { x with roEn := on }
    | .bar2Resize n => if !x.mse && 28 ≤ n && n ≤ 41 then s.setF p R.pcie.BAR2_SIZE_LOG2 n else s
    | .maxPayload n => if [128, 256, 512].contains n then s.setFnst f { x with mps := n } else s
    | .identifiers => s.emit (.ids f (s.fnIds f))
    | .maxRead n => if [128, 256, 512, 1024, 2048, 4096].contains n then s.setFnst f { x with mrrs := n } else s

/-! ## DOE (R312) -/

/-- A DOE Discovery answer: vendor 0x0001, protocol, next index. -/
def doeAnswer (i : Nat) : List Byte :=
  if i = 0 then bytesOf 4 (0x0001 + 0x01000000)
  else if i = 1 then bytesOf 4 (0x0001 + 0x00010000)
  else bytesOf 4 0xFFFF

/-- DOE_REQUEST: one object at a time; discovery is answered at once, an SPDM message stays in flight for its answer, an object of another
protocol or beyond 16 KiB is discarded. -/
def doeRequest (f : Fn) (o : DoeObj) (s : State) : State :=
  let x := s.fnst f
  if !s.cfgOpen f || x.doe.isSome then s
  else
    match o with
    | .discovery i => s.emit (.doe f (doeAnswer i))
    | .spdm b => if b.length ≤ 16384 then s.setFnst f { x with doe := some b } else s
    | .other _ _ => s

/-- DOE_ABORT. -/
def doeAbort (f : Fn) (s : State) : State :=
  if s.cfgOpen f then s.setFnst f { s.fnst f with doe := none } else s

end Sys2Proof.Machine
end

