-- ==== Sys2Proof/Machine/Hbm.lean ====
section
/-! DEFINITION. HBM stacks (04 R115, R122 to R124, R137, R139): accesses held and released, interleave, training, slices retired. -/

namespace Sys2Proof.Machine

/-! ## Held accesses -/

/-- A held access is served. -/
def State.serveHeld (s : State) : Held → State
  | .line r => s.serveReq r
  | .fab p m => (s.rcFree m).answer p m
  | .own h tag m => (s.rcFree m).answerOwn h tag m
  | .bar2 f a len u => s.bar2Serve f a len u

/-- The held accesses that meet a condition are served, in their order. -/
def State.releaseIf (s : State) (ok : Held → Bool) : State :=
  let hs := s.mem.held
  if hs.any ok then
    let s := { s with mem := { s.mem with held := hs.filter (fun x => !ok x) } }
    foldOver (hs.filter ok) (fun x s => s.serveHeld x) s
  else s

/-- The accesses that are no longer held are served, and remote COPYs that waited for memory go on. -/
def State.releaseHeld (s : State) : State := (s.releaseIf (fun x => !s.holds [heldSpan x])).settle

/-! ## Interleave (R115) -/

/-- The row's contents become undefined to every reader: its bytes leave the list, its poison is kept. -/
def State.undefRow (s : State) (key : Nat) : State :=
  let m := s.mem
  { s with
    mem := { m with bytes := m.bytes.filter (fun e => undefKey e.1 ≠ key), undef := mput m.undef key s.fresh }
    fresh := s.fresh + 1 }

/-- Rewrite row j of a half to a mode: accesses to the row that its controllers hold complete under the old mode first (R115, R139); lines of the
row leave both caches; a change of mode leaves the contents
undefined; 0b11 leaves the field and sets ILV_BAD. -/
def State.ilvRow (s : State) (h : Half) (j mode : Nat) : State :=
  if mode = 3 then s.err (.comb h) 13
  else
    let old := s.ilvMode h j
    let b := hbmBase h + j * rowSize
    let s := s.releaseIf (fun x => decide (b ≤ heldAddr x) && decide (heldAddr x < b + rowSize))
    let s := (s.dropLines b (b + rowSize)).dirSts
    let s := s.setF (.comb h) (ilvFld j) mode
    if old = mode then s else s.undefRow (72 * halfNo h + j)

/-- ILV_WRITE of register i (ILV4 holds eight rows). -/
def ilvWrite (_m : Master) (h : Half) (i : Fin 5) (value : Word) (s : State) : State :=
  if s.answers (.comb h) then
    foldOver (List.range (if i.val < 4 then 16 else 8))
      (fun k s => s.ilvRow h (16 * i.val + k) (bits value.toNat (2 * k + 1) (2 * k))) s
  else s

/-! ## HBM training (R122 to R124) -/

/-- Start training a stack: group 0 held. -/
def State.hbmTrainStart (s : State) (h : Half) (i : Nat) : State :=
  let t : TrainSt := { group := 0, failed := false, slowOk := true, eye := 255 }
  let s := { s with mem := { s.mem with train := mput s.mem.train (12 * halfNo h + i) t } }
  (s.setF (hbmPage h i) R.hbmc.BLK_STS_STATE 2).setF (hbmPage h i) R.hbmc.HBM_CFG_RATE 64

/-- The stacks of a quadrant train one at a time: the lowest one still in LOW starts (R123; 12 Table 12.2). -/
def State.nextTrain (s : State) (h : Half) (q : Nat) : State :=
  let st := fun (i : Nat) => s.getF (hbmPage h i) R.hbmc.BLK_STS_STATE
  let mine := (List.range 3).map (3 * q + ·)
  if mine.any (fun i => st i = 2) then s
  else match mine.find? (fun i => st i = 1) with
    | some i => s.hbmTrainStart h i
    | none => s

/-- HBM_GROUP_TRAINED: the group under training (with its retry) is judged by its worst eyes in 1/256 UI: 0.25 UI at 9.6 Gb/s, and 0.35 UI at
6.4 Gb/s where a retry failed. After group 3 TRAIN_Q is updated (Table 4.7, step 6) and the stack is FULL, DEGRADED or FAILED. -/
def hbmGroupTrained (h : Half) (i : Fin 12) (e : GroupEyes) (s : State) : State :=
  let p : Page := .hbmc h i
  let k := 12 * halfNo h + i.val
  match s.mem.train.find? (fun x => x.1 = k) with
  | none => s
  | some x =>
    if s.getF p R.hbmc.BLK_STS_STATE ≠ 2 then s
    else
      let eye := if e.first ≥ 64 then e.first else e.retry
      let t : TrainSt :=
        { group := x.2.group + 1, failed := x.2.failed || decide (eye < 64), slowOk := x.2.slowOk && decide (e.slow ≥ 90),
          eye := min x.2.eye eye }
      if t.group < 4 then ({ s with mem := { s.mem with train := mput s.mem.train k t } } : State).releaseHeld
      else
        let info := bytesOf 8 0 ++ bytesOf 1 i.val
        let s := { s with mem := { s.mem with train := merase s.mem.train k } }
        let s := (s.setFs p [(R.hbmc.TRAIN_Q_EYE_MIN, t.eye), (R.hbmc.TRAIN_Q_TRAIN_MS, s.freeAhead 0)]).drawn 1
        let s :=
          if !t.failed then s.setFs p [(R.hbmc.BLK_STS_STATE, 3), (R.hbmc.HBM_CFG_RATE, 96)]
          else if t.slowOk then
            (s.setFs p [(R.hbmc.BLK_STS_STATE, 4), (R.hbmc.HBM_CFG_RATE, 64)]).err p 11 { cost := 2, info := info }
          else (s.err p 11 { cost := 5, info := info }).failStack h i.val
        s.releaseHeld.nextTrain h (i.val / 3)

/-- HBM_RETRAIN: training again from step 1 in DEGRADED, else STATE_ERR (R124). -/
def hbmRetrain (_m : Master) (h : Half) (i : Fin 12) (s : State) : State :=
  if s.answers (.hbmc h i) then
    if s.getF (.hbmc h i) R.hbmc.BLK_STS_STATE = 4 then s.hbmTrainStart h i.val else s.stateErr (.hbmc h i)
  else s

/-! ## Slices (R137) -/

/-- SLICE_RETIRE: the slice is retired, SLICE_RETIRED recorded with class JOB; the ninth retired slice fails the stack. -/
def sliceRetire (h : Half) (i : Fin 12) (slice : Fin 72) (_why : RetireCause) (s : State) : State :=
  let p : Page := .hbmc h i
  if s.answers p && s.getF p R.hbmc.BLK_STS_STATE ≠ 5 && !s.retired h i.val slice.val then
    let sp := s.sliceSpan h i.val slice.val
    let parts := s.partsIn h sp.1 sp.2
    let s := s.retireSlice h i.val slice.val
    let s := s.err p 13
      { cost := 5, parts := parts,
        info := bytesOf 8 sp.1 ++ bytesOf 1 i.val ++ bytesOf 1 slice.val }
    if s.retiredCount h i.val > 8 then (s.failStack h i.val).releaseHeld else s
  else s

end Sys2Proof.Machine
end

