-- ==== Sys2Proof/Machine/HingeFlits.lean ====
section
/-! DEFINITION. Hinge flits and the training of a bundle (05 R152 to R156, R158). -/

namespace Sys2Proof.Machine

/-! ## Flits (R152, R153, R155) -/

/-- The fields of a flit of 256 bytes: an 8-byte header and fifteen slots, then in the 4-byte sequence and acknowledgement field two numbers of
16 bits (DESIGN CHOICE, assumption 78), then CRC-32C of all that precedes it. -/
def hfSeq (b : List Byte) : Nat := natOf ((b.drop 248).take 2)
def hfAck (b : List Byte) : Nat := natOf ((b.drop 250).take 2)
def hfGood (b : List Byte) : Bool := natOf (b.drop 252) = crc32c (b.take 252)

/-- A flit with another sequence number and acknowledgement. -/
def hfNumber (b : List Byte) (seq ack : Nat) : List Byte :=
  let c := b.take 248 ++ bytesOf 2 seq ++ bytesOf 2 ack
  c ++ bytesOf 4 (crc32c c)

/-- Bit n of a run of bytes inverted. -/
def flipBit (b : List Byte) (n : Nat) : List Byte := b.set (n / 8) (nth 0 b (n / 8) ^^^ BitVec.ofNat 8 (2 ^ (n % 8)))

/-- Bits at which two copies of a flit differ. -/
def diffBits (a b : List Byte) : List Nat :=
  (List.range 2048).filter (fun n => bit (nth 0 a (n / 8)).toNat (n % 8) ≠ bit (nth 0 b (n / 8)).toNat (n % 8))

/-- The lane that carries bit n of a flit: bits go to the lanes in turn (DESIGN CHOICE, assumption 78), a spare in the place of the lane it
replaces; at half width over the first 32 good lanes. -/
def State.laneOf (s : State) (l : DieLink) (n : Nat) : Nat :=
  if s.dlState l = hgHALF then nth 0 (s.goodLanes l) (n % 32)
  else
    match (List.range 4).find? (fun i => nth 0xFF (s.spareMap l) i = n % 64) with
    | some i => 64 + i
    | none => n % 64

/-- Flits sent again at an end of a bundle: numbered on, kept in its replay buffer. -/
def State.resend (s : State) (h : Half) (b : Fin 16) (fs : List HFlit) : State :=
  let l : DieLink := .hinge h b
  foldOver fs (fun f s =>
    let x := s.dl l
    let bytes := hfNumber f.bytes x.next x.exp
    (s.setDl l { x with next := (x.next + 1) % 65536, sent := x.sent ++ [{ f with seq := x.next, bytes := bytes }] }).emit
      (.hingeFlit h b bytes)) s

/-- A bundle carries no more traffic: at both ends its unacknowledged flits go first on the bundle the hash now selects, and stay where none does
(R156, Table 5.5). -/
def State.moveFlits (s : State) (b : Fin 16) : State :=
  foldOver [Half.A, Half.B] (fun h s =>
    let l : DieLink := .hinge h b
    let fs := (s.dl l).sent
    let s := s.setDl l { s.dl l with sent := [] }
    foldOver fs (fun f s =>
      match s.pickBundle f.flow with
      | some c => s.resend h c [f]
      | none => s.setDl l { s.dl l with sent := (s.dl l).sent ++ [f] }) s) s

/-! ## Training -/

/-- The bundle is up at a width, its lanes as this start found them; the training time and the worst eye are free values. Flits that waited
for it are sent. -/
def State.bundleTrained (s : State) (b : Fin 16) (full : Bool) : State :=
  let s := s.setBundle b (if full then hgFULL else hgHALF)
  let s := foldOver [Half.A, Half.B] (fun h s => s.relane (.hinge h b)) s
  let s := foldOver [Half.A, Half.B] (fun h s =>
    let p : Page := .hinge h b
    let s := (s.setFs p [(R.dlink.BLK_STS_X32, if full then 0 else 1), (R.dlink.TRAIN_Q_TRAIN_US, s.freeAhead 0),
      (R.dlink.TRAIN_Q_EYE_MIN, s.freeAhead 1), (R.dlink.CREDIT_PEND_US, 0), (R.hdr.BLK_STS_RESET_BUSY, 0)]).drawn 2
    let s := s.setReady p
    if full then s else s.err p 12 { cost := 2, info := s.laneInfo (.hinge h b) 0xFF }) s
  let old := fun (h : Half) => (s.dl (.hinge h b)).sent
  let a := old .A
  let z := old .B
  let s := foldOver [Half.A, Half.B] (fun h s =>
    s.setDl (.hinge h b) { s.dl (.hinge h b) with exp := 0, since := 0, bad := none, next := 0, sent := [] }) s
  (s.resend .A b a).resend .B b z

/-- A bundle trains with the lanes that are good at both ends: at full or half width, or it fails (the flag). -/
def State.trainBundle (s : State) (b : Fin 16) (pass : Bool) : State × Bool :=
  let good := min (s.goodLanes (.hinge .A b)).length (s.goodLanes (.hinge .B b)).length
  if pass && decide (64 ≤ good) then (s.bundleTrained b true, true)
  else if pass && decide (32 ≤ good) then (s.bundleTrained b false, true)
  else
    (if pass then s else foldOver [Half.A, Half.B] (fun h s => s.err (.hinge h b) 8 { info := s.laneInfo (.hinge h b) 0xFF }) s, false)

end Sys2Proof.Machine
end

