-- ==== Sys2Proof/Machine/Halves.lean ====
section
/-! DEFINITION. What the control complex does to channels, to the hinge and to halves (10 R318 to R329; 12 R379, R380): outvoting, safe halt, the
hinge lost and returned, a half fenced or lost. -/

namespace Sys2Proof.Machine

/-! ## Channels -/

def chanNo : Chan → Nat
  | .ca => 0
  | .cb => 1
  | .ck => 2

def chanPage : Chan → Page
  | .ca => .ctrlch .A
  | .cb => .ctrlch .B
  | .ck => .ck

def chanFld : Chan → Fld
  | .ca => R.ctrlch.CC_STS_CA_STATE
  | .cb => R.ctrlch.CC_STS_CB_STATE
  | .ck => R.ctrlch.CC_STS_CK_STATE

def allChans : List Chan := [.ca, .cb, .ck]

/-- The channel of a half. -/
def halfChan : Half → Chan
  | .A => .ca
  | .B => .cb

def chanHalf : Chan → Option Half
  | .ca => some .A
  | .cb => some .B
  | .ck => none

/-- CH_STATE: 0 INIT, 1 ACTIVE, 2 STANDBY, 3 RESYNC, 4 FAILED, 5 LOST. -/
def State.chan (s : State) (c : Chan) : Nat := s.getF .ck (chanFld c)

def State.setChan (s : State) (c : Chan) (st : Nat) : State :=
  (s.setCc (chanFld c) st).setF (chanPage c) R.ctrlch.BLK_STS_CH_STATE st

/-- MODE: 0 INIT, 1 TRIPLE, 2 PAIR, 3 PAIR_STANDBY, 4 HALTED, 5 SINGLE. -/
def State.ccMode (s : State) : Nat := s.getF .ck R.ctrlch.CC_STS_MODE
def State.setMode (s : State) (m : Nat) : State := s.setCc R.ctrlch.CC_STS_MODE m

/-- The channels that vote. -/
def State.voters (s : State) : List Chan := allChans.filter (fun c => s.chan c = 1)

/-- A channel runs firmware: it votes or stands by. -/
def State.chanRuns (s : State) (c : Chan) : Bool := s.chan c = 1 || s.chan c = 2

/-- Count disagreements and discarded copies. -/
def State.disagree (s : State) : State :=
  s.setCc R.ctrlch.DISAGREE_COUNT (satAdd 16 (s.getF .ck R.ctrlch.DISAGREE_COUNT) 1)

/-- The length of a hold is a free value of at most 256 cycles (R319). Commands not accepted are issued again. -/
def State.holdActuators (s : State) : State :=
  let n := s.freeAhead 0 % 257
  let s := s.drawn 1
  let s := s.setCc R.ctrlch.HOLD_MAX_CYCLES (max (s.getF .ck R.ctrlch.HOLD_MAX_CYCLES) n)
  { s with cc := { s.cc with copies := [], promo := [] } }

/-- A channel is resynchronised (R320). -/
def State.resync (s : State) (c : Chan) : State :=
  (s.setChan c 3).addSat (chanPage c) R.ctrlch.RESYNC_TOTAL 1

/-- A channel is outvoted: it resynchronises, or fails at its fourth time within 24 h. How many of its earlier outvotes are older than that is a free value. -/
def State.outvote (s : State) (c : Chan) : State :=
  let p := chanPage c
  let day := s.freeAhead 0 % (min (s.getF p R.ctrlch.RESYNC_DAY) 254 + 1) + 1
  let inj := s.cc.injd.contains (chanNo c)
  let s := ({ s.drawn 1 with cc := { s.cc with injd := sdel s.cc.injd (chanNo c) } }).disagree
  let s := (s.setCc R.ctrlch.DISAGREE_LAST_CH (chanNo c)).setF p R.ctrlch.RESYNC_DAY day
  let s := s.err p 8 { inj := inj }
  let s := if day ≥ 4 then s.setChan c 4 else s.resync c
  (s.mgmtEvt 1 (chanHalf c)).holdActuators

/-- Safe halt (R324) with a cause of HALT_INFO. -/
def State.safeHalt (s : State) (cause : Nat) : State :=
  let s := (s.setMode 4).setCc R.ctrlch.HALT_INFO_CAUSE cause
  let s := s.setCc R.ctrlch.HALT_INFO_FRAME s.cc.frame
  let s := { s with pins := { s.pins with fault := true }, cc := { s.cc with copies := [], promo := [] } }
  let s := foldOver allChans (fun c s => s.err (chanPage c) 15 { cost := 6 }) s
  s.mgmtEvt 2 none

/-! ## Partitions that a half carries -/

/-- Partitions that hold cells, queues or memory on a half, as the pages of half v show. -/
def State.partsOn (s : State) (v h : Half) : List Nat :=
  let mem := s.partsIn v (hbmBase h) (hbmBase h + hbmSize) ||| s.partsIn v (scratchBase h) (scratchBase h + scratchWin) |||
    s.partsIn v (tierBase h) (tierBase h + tierWin)
  (List.range 8).filter (fun p => s.partState v p = 1 &&
    (s.isSet (.seq h) (R.seq.PART_CELLS_CELL_CNT.ix p) || s.isSet (.seq h) (R.seq.PART_QUEUES_Q_CNT.ix p) || bit mem p))

/-- The complex terminates them with PARTNER_GONE (03 R107). -/
def State.termHalf (s : State) (h : Half) : State :=
  foldOver (s.partsOn (otherHalf h) h) (fun p s => s.terminatePart p 0xE) s

/-! ## The hinge (R154, R157, R328) -/

/-- UP bundles of a role, highest number first: 0 MEM, 1 CTL, 2 FAB, 3 OFF. -/
def State.roleUp (s : State) (r : Nat) : List (Fin 16) := (s.roleBundles r).reverse

/-- The last UP bundle of a role is gone: another one takes the role (R157). -/
def State.refillRole (s : State) (r : Nat) : State :=
  if !(s.roleUp r).isEmpty then s
  else if r = 1 then
    match s.roleUp 0 ++ s.roleUp 2 with
    | b :: _ => s.setRole b 1
    | [] => s
  else if r = 0 then
    match s.roleUp 2 with
    | b :: _ => s.setRole b 0
    | [] => s
  else s

/-- Roles of the configuration in force (05 Table 5.4 where it sets none). -/
def defaultRoles : List Nat := [0, 0, 0, 0, 0, 0, 2, 1, 1, 2, 0, 0, 0, 0, 0, 0]
def State.cfgRole (s : State) (b : Fin 16) : Nat :=
  match s.cfg.roles with
  | some l => nth 3 (l.map (·.toNat)) b.val
  | none => nth 0 defaultRoles b.val

/-- A half of a lost hinge that does not lead. -/
def State.farHalf (s : State) : Half := otherHalf s.leader

def fencedFld : Half → Fld
  | .A => R.ctrlch.CC_STS_FENCED_A
  | .B => R.ctrlch.CC_STS_FENCED_B

def upFld : Half → Fld
  | .A => R.keeper.BOOT_STS_HALF_A_UP
  | .B => R.keeper.BOOT_STS_HALF_B_UP

/-- Why a half is lost: 0 it is not; 1 clock, PLL or rail; 2 fence; 3 fence for a lost hinge. -/
def State.whyLost (s : State) (h : Half) : Nat := mget 0 s.lostWhy (halfNo h)

/-! ## A half is fenced (R329) or lost (12 R379, R380) -/

/-- DARK on every UP port of a half; its OEs go DARK. -/
def State.darkHalf (s : State) (h : Half) : State :=
  let s := s.darkOn ((List.range 64).map (64 * halfNo h + ·))
  foldOver (allFin 8) (fun o s => if s.pstate h o = 0 then s else s.lowerOe h o 1 1) s

/-- Shares of the power cap: equal, or all of it where one half alone serves (11 R340). -/
def State.setShares (s : State) : State :=
  let cap := s.getF .gPwr R.pwrG.CAP_NOW_W
  let n := ([Half.A, Half.B].filter s.halfUp).length
  foldOver [Half.A, Half.B] (fun h s => if s.halfUp h then s.setF (.pwr h) R.pwrH.SHARE_SHARE_W (cap / n) else s) s

/-- The cap in force changes. -/
def State.applyCap (s : State) (w : Nat) : State := (s.setF .gPwr R.pwrG.CAP_NOW_W w).setShares

/-- Records of global pages that wait go to the new leading half's ring; what else the lost half's ring holds is lost (14 R431). -/
def State.moveRecs (s : State) (h : Half) : State :=
  let l := (s.ring h).held.filter (fun r => r.page < 0x1000000)
  let s := s.setRing h { s.ring h with held := [] }
  if s.leader = h then s
  else
    foldOver l (fun r s => s.holdRec s.leader r) s

/-- The other half leads once the queen half is lost, unless it is lost too (12 R380). -/
def State.changeLead (s : State) (h : Half) : State :=
  let s := if s.leader = h && s.whyLost (otherHalf h) = 0 then s.setF .keeper R.keeper.STRAPS_LEADER (halfNo (otherHalf h)) else s
  s.moveRecs h

/-- The half that leads now serves alone in reduced service: its sequencer goes RUN, its cells at 600 MHz (12 Table 12.8). -/
def State.reducedLead (s : State) (h : Half) : State :=
  let q : List Nat := [0, 1, 2, 3]
  let s := { s with cdclk := q.foldl (fun m k =>
    mput m (cdKey h k) { cdInit with cap := 600 }) s.cdclk }
  let s : State := foldOver q (fun k (s : State) => s.setFs (.clk h) [(R.clk.CEIL_MHZ.ix k, 600), (R.clk.CEIL_LIMIT.ix k, 1)]) s
  if s.getF (.seq h) R.seq.BLK_STS_STATE = 0 then s.setF (.seq h) R.seq.BLK_STS_STATE 1 else s

/-- The lead passes from a half that is lost; in reduced service the new leading half serves alone. -/
def State.passLead (s : State) (h : Half) : State :=
  let led := s.leader
  let s := s.changeLead h
  if s.reduced && s.leader ≠ led then s.reducedLead s.leader else s

/-- A half is fenced. But for a lost hinge this is the loss of its comb die, and the lead passes (12 Table 12.4, R380). -/
def State.fenceHalf (s : State) (h : Half) (why : Nat) : State :=
  if s.whyLost h ≠ 0 then s
  else
    let s := ((s.termHalf h).stopSeq h 0xE).darkHalf h
    let s := s.hportLost h
    let s := { s with lostWhy := mput s.lostWhy (halfNo h) why }
    let s := s.setDie (dieComb h) .fenced
    let s := if why = 3 then s else ((s.loseCopies (otherHalf h)).setChan (halfChan h) 4).passLead h
    let s := ((s.setCc (fencedFld h) 1).setF .keeper (upFld h) 0).setShares
    (((s.err .ck 12 { cost := 5 }).mgmtEvt 4 (some h)).note 4 0).releaseHeld

/-- The half's dies of a kind go to a state. -/
def State.setHalfDies (s : State) (h : Half) (st : DieSt) : State :=
  let s := foldOver (List.range 4) (fun q s => s.setDie (dieCd h q) st) s
  foldOver (List.range 8) (fun o s => (s.setDie (dieOe h o) st).setDie (dieLaser h o) st) s

/-- The voters that are left once a half's channel is lost. -/
def State.votersLeft (s : State) : State :=
  if s.ccMode = 0 || s.ccMode = 4 then s
  else
    let s := match allChans.find? (fun c => s.chan c = 2) with
      | some c => if s.voters.length < 2 then s.setChan c 1 else s
      | none => s
    match s.voters.length with
    | 0 => s.safeHalt 2
    | 1 => if s.chan (halfChan s.leader) = 1 then s.setMode 5 else s.safeHalt 2
    | 2 => s.setMode (if allChans.any (fun c => s.chan c = 2) then 3 else 2)
    | _ => s.setMode 1

/-- Automatic resets of a half in the last hour (12 R381). -/
def State.autoCount (s : State) : Half → Nat
  | .A => s.getF .keeper R.keeper.HALF_RST_STS_AUTO_A
  | .B => s.getF .keeper R.keeper.HALF_RST_STS_AUTO_B

/-- With both comb dies lost and no automatic reset allowed the device is in D-KEEPER (12 Table 12.8). -/
def State.bothLost (s : State) : State :=
  let stays := fun (h : Half) => s.die (dieComb h) = .lost && (s.whyLost h ≠ 1 || s.autoCount h ≥ 2)
  if stays .A && stays .B then s.setF .gPwr R.tpc.BLK_STS_STATE 1 else s

/-- A half is lost: its work ends with PARTNER_GONE, its port is lost, its lines in M are poisoned, its dies are off. -/
def State.halfLost (s : State) (h : Half) (why : Nat) : State :=
  if s.whyLost h = 1 || s.die (dieComb h) = .lost then s
  else
    let fenced := s.whyLost h ≠ 0
    let s := if fenced then s else (s.termHalf h).failAll h 0xE
    let s := foldOver (allFin 8) (fun o s => if s.pstate h o = 0 then s else s.lowerOe h o 0 0) s
    let s := s.hportLost h
    let s := { s with lostWhy := mput s.lostWhy (halfNo h) why }
    let s := (s.setDie (dieComb h) .lost).setHalfDies h .off
    let s := s.loseCopies (otherHalf h)
    let s := ((s.setCc (fencedFld h) 0).setF .keeper (upFld h) 0).setShares
    let s := ((s.passLead h).setChan (halfChan h) 5).votersLeft
    let s := s.fwRecord .keeper false { cost := 5, status := 0xE }
    (s.note 4 0).bothLost.releaseHeld

/-! ## The hinge lost and returned (R328) -/

/-- No path joins the halves: partitions of the half that does not lead are terminated, and it is fenced. The complex does this, so not in safe
halt. -/
def State.splitHalves (s : State) : State :=
  if s.getF .ck R.ctrlch.CC_STS_HINGE = 2 && s.bypassUp = 0 && !s.halted then s.fenceHalf s.farHalf 3 else s

/-- The hinge is lost: no bundle serves, cross-half lines follow R139. -/
def State.hingeLost (s : State) : State :=
  if s.getF .ck R.ctrlch.CC_STS_HINGE = 2 then s
  else
    let s := foldOver allBundles (fun b s => if s.dlState (.hinge .A b) = hgBROKEN then s else s.setBundle b hgDOWN) s
    let s := s.hingeLostMem.setCc R.ctrlch.CC_STS_HINGE 2
    let s := s.err .ck 11 { cost := if s.bypassUp = 0 then 5 else 4, parts := bitsOf (s.partsOn s.leader s.farHalf) }
    ((s.mgmtEvt 3 none).note 3 0).splitHalves

/-- The hinge returns with the bundles that trained: roles again, and a fence that stands only for it is lifted. The sequencer stays STOPPED
(03 Table 3.15). -/
def State.hingeBack (s : State) (up : List (Fin 16)) : State :=
  let s := foldOver up (fun b s => ((s.setRole b (s.cfgRole b)).trainBundle b true).1) s
  let s := ((s.refillRole 1).refillRole 0).setCc R.ctrlch.CC_STS_HINGE 0
  let s := (s.mgmtEvt 3 none).note 3 0
  foldOver [Half.A, Half.B] (fun h s =>
    if s.whyLost h = 3 then
      let s := { s with lostWhy := merase s.lostWhy (halfNo h) }
      let s := (((s.setDie (dieComb h) .up).setCc (fencedFld h) 0).setF .keeper (upFld h) 1).setShares
      s.mgmtEvt 4 (some h)
    else s) s

end Sys2Proof.Machine
end

