-- ==== Sys2Proof/Machine/Control.lean ====
section
/-! DEFINITION. The voted control complex (10 R317 to R329): frames, command copies and votes, heartbeats, the hinge's retraining, restarts; and the
training of a link, which may be a bypass. -/

namespace Sys2Proof.Machine

/-! ## Votes (R318, R319, R323) -/

/-- The complex takes commands. -/
def State.ccLive (s : State) : Bool := [1, 2, 3, 5].contains s.ccMode

def State.expectSeq (s : State) (a : Nat) : Nat := mget 0 s.cc.expect a
def State.copiesOf (s : State) (a : Nat) : List CmdCopy := mget [] s.cc.copies a

def State.setCopies (s : State) (a : Nat) (l : List CmdCopy) : State :=
  { s with cc := { s.cc with copies := mset [] s.cc.copies a l } }

/-- Two copies agree bit for bit. -/
def sameCmd (a b : CmdCopy) : Bool := a.actuator = b.actuator && a.seq = b.seq && a.payload = b.payload

/-- The actuator accepts a command: it acts once. -/
def State.acceptCmd (s : State) (c : CmdCopy) : State :=
  let a := c.actuator.val
  let n := s.get64 .ck R.ctrlch.VOTES_LO R.ctrlch.VOTES_HI + 1
  let s := (s.setCc R.ctrlch.VOTES_LO (n % 2 ^ 32)).setCc R.ctrlch.VOTES_HI (n / 2 ^ 32)
  ({ s with cc := { s.cc with expect := mset 0 s.cc.expect a ((c.seq.toNat + 1) % 2 ^ 32), last := mput s.cc.last a c } }).emit
    (.actuate a c.payload.toNat)

/-- R327: the leading half's channel goes on alone, the other half's channel fences its half. -/
def State.goSingle (s : State) : State :=
  let s := s.disagree.setMode 5
  (s.fenceHalf s.farHalf 2).holdActuators

/-- The pair disagrees on an actuator, or a copy is missing (R323): the standby is promoted; without one the complex halts, but for a pair
without CK. -/
def State.pairDisagree (s : State) (a : Nat) : State :=
  if s.ccMode = 3 then
    let s := s.disagree
    { s with cc := { s.cc with promo := sadd s.cc.promo a } }
  else if s.chan .ck ≠ 1 then s.goSingle
  else s.disagree.safeHalt 2

/-- A promotion fails. -/
def State.promoteFail (s : State) : State :=
  let s := foldOver allChans (fun c s => if s.chan c = 2 then s.err (chanPage c) 10 { cost := 6 } else s) s
  s.safeHalt 1

/-- The standby's copy decides a promotion. -/
def State.promote (s : State) (c : CmdCopy) : State :=
  let l := (s.copiesOf c.actuator.val).filter (fun x => x.seq = c.seq)
  match l.filter (fun x => sameCmd x c) with
  | [] => s.promoteFail
  | x :: _ =>
    let s := (s.setChan c.chan 1).setMode 2
    foldOver (allChans.filter (fun k => k ≠ c.chan && k ≠ x.chan && s.chan k = 1)) (fun k s => s.outvote k) s

/-- A copy of the command that is expected, or of the last one accepted, joins its window. -/
def State.judge1 (s : State) (c : CmdCopy) : State :=
  let a := c.actuator.val
  let l := s.copiesOf a ++ [c]
  let s := s.setCopies a l
  let cur := l.filter (fun x => x.seq = c.seq)
  if c.seq.toNat ≠ s.expectSeq a then
    -- the command is accepted already: the copy is compared
    match s.cc.last.find? (fun e => e.1 = a) with
    | some e => if sameCmd e.2 c || s.ccMode ≠ 1 then s else (s.outvote c.chan).setMode 2
    | none => s
  else if s.ccMode = 5 then s.acceptCmd c
  else
    let twin := (s.copiesOf a).any (fun x => x.chan ≠ c.chan && sameCmd x c)
    if twin then
      let s := s.acceptCmd c
      if s.ccMode ≠ 1 then s
      else
        match cur.find? (fun x => !sameCmd x c) with
        | some x => (s.outvote x.chan).setMode 2
        | none => s
    else if s.ccMode = 1 then (if cur.length ≥ 3 then s.disagree.safeHalt 3 else s)
    else if cur.length ≥ 2 then s.pairDisagree a
    else s

/-- COMMAND_COPY: a copy of a channel that votes, or of the standby while a promotion holds its actuator; every other channel's copies are
ignored. A copy with another number than the one expected, or the one just accepted, is discarded and counted. -/
def commandCopy (c : CmdCopy) (s : State) : State :=
  let a := c.actuator.val
  let st := s.chan c.chan
  let promo := s.cc.promo.contains a
  if !s.ccLive || !(st = 1 || (st = 2 && promo)) then s
  else
    let p := chanPage c.chan
    let hit := s.armed p 8
    let s := if hit then { s.disarm p with cc := { s.cc with injd := sadd s.cc.injd (chanNo c.chan) } } else s
    let c := if hit then { c with payload := c.payload ^^^ 1 } else c
    if promo then
      if st = 2 && (s.copiesOf a).any (fun x => x.seq = c.seq) then s.promote c else s
    else
      let wasLast := match s.cc.last.find? (fun e => e.1 = a) with
        | some e => e.2.seq = c.seq && !(s.copiesOf a).isEmpty
        | none => false
      if c.seq.toNat ≠ s.expectSeq a && !wasLast then s.disagree
      else if (s.copiesOf a).any (fun x => x.seq = c.seq && x.chan = c.chan) then s
      else s.judge1 c

/-- VOTE_WINDOW_EXPIRE of the oldest window of an actuator. -/
def voteWindowExpire (a : Fin 32) (s : State) : State :=
  if !s.ccLive then s
  else if s.cc.promo.contains a.val then s.promoteFail
  else
    match s.copiesOf a.val with
    | [] => if s.ccMode = 5 then (s.safeHalt (s.freeAhead 0)).drawn 1 else s
    | x :: t =>
      let cur := (x :: t).filter (fun y => y.seq = x.seq)
      let accepted := x.seq.toNat ≠ s.expectSeq a.val
      let missing := s.voters.filter (fun k => !cur.any (fun y => y.chan = k))
      let rest := (x :: t).filter (fun y => y.seq ≠ x.seq)
      if accepted then
        let s := s.setCopies a.val rest
        if s.ccMode ≠ 1 then s
        else
          match missing with
          | [] => s
          | k :: _ => (s.outvote k).setMode 2
      else if s.ccMode = 1 then (s.setCopies a.val rest).disagree.safeHalt 3
      else s.pairDisagree a.val

/-! ## Frames and resynchronisation (R317, R320) -/

/-- A channel in RESYNC ends its sequence. -/
def State.rejoin (s : State) (c : Chan) (o : ResyncObs) : State :=
  if s.chan c ≠ 3 then s
  else if !o.selfTest then (s.setChan c 4).mgmtEvt 1 (chanHalf c)
  else if !o.storeOk then ((s.err (chanPage c) 13 {}).setChan c 4).mgmtEvt 1 (chanHalf c)
  else if s.ccMode = 2 then (s.setChan c 2).setMode 3
  else s

/-- CONTROL_FRAME: heartbeats and digests, which are free values; channels that end their resynchronisation join as STANDBY; a lost hinge
without a bypass is acted on. -/
def controlFrame (joining : List (Chan × ResyncObs)) (s : State) : State :=
  if !s.ccLive then s
  else
    let s := { s with cc := { s.cc with frame := (s.cc.frame + 1) % 2 ^ 24 } }
    let d := s.freeAhead 0
    let s := foldOver allChans (fun c s => if s.chanRuns c then s.setF (chanPage c) R.ctrlch.CS_CRC_DIGEST d else s) (s.drawn 1)
    (foldOver joining (fun e s => s.rejoin e.1 e.2) s).splitHalves

/-! ## Heartbeats (R326, R327) -/

/-- A running channel declares another one failed. -/
def declares (v : HbViews) : Chan → Chan → Bool
  | .ca, .cb => !v.caSeesCb
  | .ca, .ck => !v.caSeesCk
  | .cb, .ca => !v.cbSeesCa
  | .cb, .ck => !v.cbSeesCk
  | .ck, .ca => !v.ckSeesCa
  | .ck, .cb => !v.ckSeesCb
  | _, _ => false

/-- The next channel in the order CA, CB, CK. -/
def nextChan : Chan → Chan
  | .ca => .cb
  | .cb => .ck
  | .ck => .ca

/-- Four heartbeats of a peer are missed. -/
def State.missHb (s : State) (v : HbViews) (c : Chan) : State :=
  let p := chanPage c
  let n := nextChan c
  let s := if declares v c n then s.addSat p R.ctrlch.HB_MISS_PEER2 4 else s
  let s := if declares v c (nextChan n) then s.addSat p R.ctrlch.HB_MISS_PEER1 4 else s
  if declares v c n || declares v c (nextChan n) then s.err p 9 {} else s

/-- A channel's heartbeat has failed: the standby takes a voter's place, a standby that fails is FAILED (R334); a half whose die does not run
is lost. -/
def State.hbFailed (s : State) (x : Chan) (dieRuns : Bool) : State :=
  let standby := s.chan x = 2
  let s := s.holdActuators
  if standby then (((s.setChan x 4).mgmtEvt 1 (chanHalf x)).setMode 2)
  else
    let s := match allChans.find? (fun c => s.chan c = 2) with
      | some c => s.setChan c 1
      | none => s
    let s := if dieRuns then s.resync x else s.setChan x 5
    let s := (s.mgmtEvt 1 (chanHalf x)).setMode 2
    match chanHalf x with
    | some h => if dieRuns then s else s.halfLost h 2
    | none => s

/-- HEARTBEAT_LOSS: the views at the end of the frame after four missed heartbeats. -/
def heartbeatLoss (v : HbViews) (s : State) : State :=
  if !s.ccLive then s
  else
    let run := allChans.filter s.chanRuns
    let d := fun (x y : Chan) => run.contains x && declares v x y
    let s := foldOver run (fun c s => s.missHb v c) s
    let ck := run.contains .ck
    if d .ca .cb && d .cb .ca then
      if ck && !d .ck .ca && !d .ck .cb then (s.holdActuators).hingeLost
      else if ck && !d .ck .ca then s.holdActuators.fenceHalf .B 2 |> State.votersLeft
      else if ck && !d .ck .cb then s.holdActuators.fenceHalf .A 2 |> State.votersLeft
      else
        let s := if ck then s.setChan .ck (if v.dieRuns then 3 else 5) else s
        s.goSingle
    else
      match allChans.find? (fun x => run.contains x && (run.filter (fun y => y ≠ x)).length ≥ 2 &&
          (run.filter (fun y => y ≠ x)).all (fun y => d y x)) with
      | some x =>
        let s := s.hbFailed x v.dieRuns
        if x = .ck && v.pairDisagrees && s.ccMode = 2 then s.goSingle else s
      | none =>
        if run.length = 2 && run.all (fun x => run.any (fun y => d x y)) then s.pairDisagree 0 else s

/-! ## The hinge (R328) -/

/-- HINGE_RETRAIN_TIMER: each second the complex retrains a lost hinge; four bundles bring it back. -/
def hingeRetrainTimer (bundles : List (Fin 16)) (s : State) : State :=
  let up := allBundles.filter (fun b => bundles.contains b)
  let ok := fun (h : Half) => s.die (dieComb h) = .up || s.whyLost h = 3
  if s.getF .ck R.ctrlch.CC_STS_HINGE = 2 && !s.halted && ok .A && ok .B && up.length ≥ 4 then s.hingeBack up else s

/-- LINK_TRAIN. A bypass pair that comes UP while the hinge is lost carries its traffic: the distances change. -/
def linkTrain (p : PortId) (o : TrainObs) (s : State) : State :=
  let t := s.trainLink p o
  if s.isBypass p && s.hingeView = 2 && t.hingeView = 1 then (t.mgmtEvt 3 none).note 3 0 else t

/-! ## Restart (R325) -/

/-- The complex restarts with the channels whose self-test passes; their dies must run. -/
def State.ccRestartWith (s : State) (ok : List Chan) : State :=
  if s.ccMode ≠ 4 then s.stateErr .ck
  else
    let live := allChans.filter (fun c => ok.contains c && s.answers (chanPage c))
    if live.length < 2 then s.err .ck 10 { cost := 6 }
    else
      let s := foldOver allChans (fun c s => s.setChan c (if live.contains c then 1 else if s.chan c = 5 then 5 else 4)) s
      let s := s.setMode (if live.length = 3 then 1 else 2)
      let s := { s with cc := { s.cc with copies := [], promo := [], injd := [] } }
      if s.capHeld then ({ s with capHeld := false }).applyCap (s.getF .gPwr R.pwrG.CAP_REQ_W) else s

/-- Every management response carries the command byte and a status byte (R331). -/
def State.mgmtReply (s : State) (b : Binding) (cmd status : Nat) (data : List Byte) : State :=
  let s := if status = 0 then s else s.err .ck 14 {}
  s.emit (.mgmt b (bytesOf 1 cmd ++ bytesOf 1 status ++ data))

/-- The binding reaches the endpoint: the keeper runs, and over PCIe the function's link is up. -/
def State.reached (s : State) (b : Binding) : Bool :=
  s.die 0 = .up &&
    (match b with
     | .i3c => s.isSet .ck R.ctrlch.MGMT_ADDR_DA_VALID
     | .pcie f => s.cfgOpen f)

/-- The endpoint serves its commands: a keeper in its ROM answers MCTP control and recovery commands alone (13 R399). -/
def State.bound (s : State) (b : Binding) : Bool := !s.sec.rom && s.reached b

/-- CC_RESTART over the management interface, I3C only. -/
def ccRestart (b : Binding) (ok : List Chan) (s : State) : State :=
  if !s.bound b then s
  else
    match b with
    | .pcie _ => s.mgmtReply b 5 3 []
    | .i3c => if s.ccMode ≠ 4 then (s.stateErr .ck).mgmtReply b 5 1 [] else (s.mgmtReply b 5 0 []).ccRestartWith ok

/-- CC_RESTART_WRITE: a write of 1 to G.CTRLCH0.BLK_CTL.CC_RESTART. -/
def ccRestartWrite (_m : Master) (ok : List Chan) (s : State) : State := if s.answers .ck then s.ccRestartWith ok else s

end Sys2Proof.Machine
end

