-- ==== Sys2Proof/Machine/Hinge.lean ====
section
/-! DEFINITION. Hinge bundles as commands (05 R156 to R160): broken, trained, a failed lane, retraining and resets. -/

namespace Sys2Proof.Machine

/-- A bundle is declared BROKEN; when every bundle is BROKEN or DOWN the hinge is lost. Role changes are the complex's: none in safe halt. -/
def State.breakBundle (s : State) (b : Fin 16) : State :=
  let r := s.role b
  let s := s.setBundle b hgBROKEN
  let s := (s.setF (.hinge .A b) R.dlink.BLK_STS_X32 0).setF (.hinge .B b) R.dlink.BLK_STS_X32 0
  let s := foldOver [Half.A, Half.B] (fun h s => s.err (.hinge h b) 13 { cost := 2, info := s.laneInfo (.hinge h b) 0xFF }) s
  let s := if s.halted then s else s.refillRole r
  let s := s.moveFlits b
  if allBundles.all (fun b => s.dlState (.hinge .A b) = hgBROKEN || s.dlState (.hinge .A b) = hgDOWN) then s.hingeLost else s

/-- A bundle leaves service to train: its traffic moves (Table 5.5). -/
def State.retrainBundle (s : State) (b : Fin 16) : State :=
  let s := s.setBundle b hgTRAINING
  let s := (s.setF (.hinge .A b) R.dlink.BLK_STS_X32 0).setF (.hinge .B b) R.dlink.BLK_STS_X32 0
  s.moveFlits b

/-- A receive lane of a bundle fails: a spare replaces it; with none left the bundle retrains through a full reset. A lane that fails while the
bundle trains is counted there (R169). -/
def State.hingeLane (s : State) (h : Half) (b : Fin 16) (lane : Nat) : State :=
  let l : DieLink := .hinge h b
  if (s.dl l).failed.contains lane then s
  else if s.dlState l = hgTRAINING then s.noteLane l lane
  else if !s.bundleUp b then s
  else
    let r := s.spareLane l lane
    if r.2 then r.1 else r.1.retrainBundle b

/-- Charge the differing bits of a bad copy to their lanes; of a lane's earlier charges, how many lie within the last second is a free value.
8 in that time make the lane fail (R153, R159). -/
def State.chargeLanes (s : State) (h : Half) (b : Fin 16) (bits : List Nat) : State :=
  let l : DieLink := .hinge h b
  let lanes := bits.map (s.laneOf l)
  foldOver ((List.range 68).filter (lanes.contains ·)) (fun k s =>
    let x := s.dl l
    let old := mget 0 x.charge k
    let n := (if old = 0 then 0 else s.freeAhead 0 % (old + 1)) + lanes.count k
    let s := (s.setDl l { x with charge := mset 0 x.charge k n }).drawn (if old = 0 then 0 else 1)
    if 8 ≤ n then s.hingeLane h b k else s) s

/-- An acknowledgement comes in: flits before it leave the replay buffer, and a negative one has the rest sent again. -/
def State.hingeAcked (s : State) (h : Half) (b : Fin 16) (ack : Nat) (nak : Bool) : State :=
  let l : DieLink := .hinge h b
  let x := s.dl l
  let rest := x.sent.filter (fun f => !(decide (1 ≤ dist16 f.seq ack) && decide (dist16 f.seq ack ≤ 64)))
  let s := s.setDl l { x with sent := rest }
  if nak then foldOver rest (fun f s => s.emit (.hingeFlit h b f.bytes)) (s.addSat (dlPage l) R.dlink.REPLAY_CNT_COUNT 1) else s

/-- A flit with a bad CRC, genuine or injected: counted, and recorded for each of the two. -/
def State.badFlit (s : State) (l : DieLink) (bad inj : Bool) : State :=
  let p := dlPage l
  let s := (if inj then s.disarm p else s).addSat p R.dlink.CRC_CNT_COUNT 1
  let s := if inj then s.err p 10 { info := s.laneInfo l 0xFF, inj := true } else s
  if bad then s.err p 10 { info := s.laneInfo l 0xFF } else s

/-- A flit that was sent arrives at end h of a bundle. -/
def State.hingeArrive (s : State) (h : Half) (b : Fin 16) (f : HingeFlit) : State :=
  let l : DieLink := .hinge h b
  let got := f.flips.foldl flipBit f.bytes
  let inj := s.armed (dlPage l) 10
  if inj || !hfGood got then
    let s := s.badFlit l (!hfGood got) inj
    let x := s.dl l
    (s.setDl l { x with bad := some (x.bad.getD got) }).emit (.hingeAck h b x.exp true)
  else
    let s := s.hingeAcked h b (hfAck got) f.nak
    let x := s.dl l
    if hfSeq got ≠ x.exp then s
    else
      let n := (x.exp + 1) % 65536
      let ack := x.since + 1 ≥ 8
      let s := s.setDl l { x with exp := n, bad := none, since := if ack then 0 else x.since + 1 }
      let s := if ack then s.emit (.hingeAck h b n false) else s
      match x.bad with
      | some y => s.chargeLanes h b (diffBits y got)
      | none => s

/-- A link of a half by its number. -/
def linkOf (h : Half) : LinkNo → DieLink
  | .bundle b => .hinge h b
  | .module k => .ucie h k

/-- HINGE_FLIT. Over a bundle that is up: a fresh flit, which the far end sends where its replay buffer of 64 has room and R155 picks this
bundle for it, or one sent again. Numbers are of 16 bits and begin at 0 after each training (DESIGN CHOICE, assumption 78). A UCIe
module's flit has the format and the retry of UCIe 2.0: its CRC fails where bits changed. -/
def hingeFlit (h : Half) (no : LinkNo) (f : HingeFlit) (s : State) : State :=
  let l := linkOf h no
  if !s.answers (dlPage l) || f.bytes.length ≠ 256 then s
  else
    match no with
    | .module k =>
      if s.dlState l ≠ ucACTIVE then s
      else
        let inj := s.armed (.ucie h k) 10
        let bad := !f.flips.isEmpty
        if inj || bad then s.badFlit l bad inj else if f.nak then s.addSat (dlPage l) R.dlink.REPLAY_CNT_COUNT 1 else s
    | .bundle b =>
      let far := farEnd h b
      let y := s.dl far
      let seq := hfSeq f.bytes
      if !s.bundleUp b then s
      else if y.sent.any (fun e => e.seq = seq) then s.hingeArrive h b f
      else if seq = y.next && decide (y.sent.length < 64) && s.pickBundle f.flow = some b then
        (s.setDl far { y with next := (y.next + 1) % 65536, sent := y.sent ++ [{ seq := seq, bytes := f.bytes, flow := f.flow }] }).hingeArrive h b f
      else s

/-- HINGE_ACK_TIMER: 100 ns with flits not acknowledged. -/
def hingeAckTimer (h : Half) (b : Fin 16) (s : State) : State :=
  let l : DieLink := .hinge h b
  let x := s.dl l
  if s.answers (dlPage l) && s.bundleUp b && x.since > 0 then (s.setDl l { x with since := 0 }).emit (.hingeAck h b x.exp false)
  else s

/-! ## Training and resets -/

/-- Both ends of a bundle answer. -/
def State.bundleThere (s : State) (b : Fin 16) : Bool := s.answers (.hinge .A b) && s.answers (.hinge .B b)

def State.setRetry (s : State) (b : Fin 16) (on : Bool) : State :=
  s.setDl (.hinge .A b) { s.dl (.hinge .A b) with retry := on }

/-- BUNDLE_BROKEN: firmware then resets the bundle once (R156). -/
def bundleBroken (b : Fin 16) (why : BreakCause) (s : State) : State :=
  let st := s.dlState (.hinge .A b)
  if !s.bundleThere b || !(st = hgTRAINING || st = hgFULL || st = hgHALF) then s
  else
    let both := fun (f : Half → State → State) (s : State) => foldOver [Half.A, Half.B] f s
    let s := match why with
      | .credit => both (fun h s => s.setF (.hinge h b) R.dlink.CREDIT_PEND_US 1000) s
      | .training => both (fun h s => s.err (.hinge h b) 8 { info := s.laneInfo (.hinge h b) 0xFF }) s
      | .lanes => s
    (s.setRetry b (!s.halted)).breakBundle b

/-- HINGE_TRAIN_DONE of a bundle in TRAINING, or of firmware's one reset after BROKEN; lanes that it finds bad at an end count as failed there (R158,
R169). -/
def hingeTrainDone (b : Fin 16) (badA badB : List (Fin 68)) (pass : Bool) (s : State) : State :=
  let st := s.dlState (.hinge .A b)
  let again := st = hgBROKEN && (s.dl (.hinge .A b)).retry
  if !s.bundleThere b || !(st = hgTRAINING || again) then s
  else
    let s := foldOver badB (fun k s => s.noteLane (.hinge .B b) k.val) (foldOver badA (fun k s => s.noteLane (.hinge .A b) k.val) s)
    let r := (s.setRetry b false).trainBundle b pass
    if r.2 || again then r.1 else r.1.breakBundle b

/-- LANE_FAIL of a receive lane. -/
def laneFail (l : DieLink) (lane : Fin 68) (s : State) : State :=
  if !s.answers (dlPage l) || (s.dl l).failed.contains lane.val then s
  else
    match l with
    | .ucie h k => s.moduleLane h k lane.val
    | .hinge h b => s.hingeLane h b lane.val

/-- RETRAIN_FULL: while the link trains, STATE_ERR (R169). -/
def retrainFull (_m : Master) (l : DieLink) (s : State) : State :=
  let p := dlPage l
  if !s.answers p then s
  else
    match l with
    | .hinge _ b => if s.bundleUp b then s.retrainBundle b else s.stateErr p
    | .ucie h k => if s.dlState l = ucACTIVE then s.trainModule h k else s.stateErr p

/-- HINGE_LINK_RESET: the full reset of a link (a write of BLK_CTL.RESET): the block's registers at reset values, lanes that failed stay
excluded and those its test finds join them. A bundle's other end is reset with it where its half is there. A module is back at
BLOCK_RESET_DONE. A module that is disabled sets STATE_ERR and does nothing (DESIGN CHOICE, assumption 80). -/
def hingeLinkReset (_m : Master) (t : LinkTest) (s : State) : State :=
  let l := t.link
  let clear := fun (l : DieLink) (s : State) =>
    let p := dlPage l
    let s := (s.resetBlockRegs p).setFs p [(R.hdr.ERR_INJ, 0), (R.hdr.BLK_STS_RESET_BUSY, 1), (R.hdr.BLK_STS_READY, 0),
      (R.hdr.BLK_STS_FENCED, 0), (R.dlink.BLK_STS_X32, 0)]
    s.setDl l { s.dl l with exp := 0, since := 0, bad := none, charge := [] }
  let tested := fun (s : State) => foldOver t.bad (fun k s => s.noteLane l k.val) s
  if !s.answers (dlPage l) then s
  else if s.isSet (dlPage l) R.hdr.BLK_STS_RESET_BUSY then s.stateErr (dlPage l)
  else
    match l with
    | .hinge h b =>
      if s.bundleThere b then tested (clear (farEnd h b) (clear l (s.retrainBundle b)))
      else tested ((clear l s).setF (dlPage l) R.dlink.BLK_STS_STATE hgDOWN)
    | .ucie h k =>
      if s.dlState l = ucDISABLED then s.stateErr (dlPage l)
      else tested ((clear l s).stopModule h k ucRESET)

end Sys2Proof.Machine
end

