-- ==== Sys2Proof/Machine/Mgmt.lean ====
section
/-! DEFINITION. The management interface (10 R330 to R333): the I3C target, MCTP, the management commands, events and telemetry. -/

namespace Sys2Proof.Machine

/-! ## What the commands report -/

/-- CC_STS as it reads. -/
def State.ccSts (s : State) : Nat :=
  (putBits (putBits (s.readReg .ck 0x100) 9 8 s.hingeView) 3 0 s.bypassUp).toNat

/-- A kernel part or a stream runs. -/
def State.working (s : State) : Bool :=
  s.cells.any (fun e => e.2.ctx.isSome) || s.queues.any (fun e => e.2.fly.any (fun d => d.stream))

/-- DSTATE (11 Table 11.8): 0 D-OFF, 1 D-KEEPER, 2 D-STANDBY, 3 D-ACTIVE, 4 D-DRAIN. -/
def State.dstate (s : State) : Nat := s.getF .gPwr R.tpc.BLK_STS_STATE
def State.setDstate (s : State) (n : Nat) : State := s.setF .gPwr R.tpc.BLK_STS_STATE n

/-- The reading of a die in 1/8 °C: the hottest of its sensors that are not excluded; none without a sample. -/
def State.reading (s : State) (h : Half) (d : Nat) : Option Int :=
  let l := (List.range (dieSensors d)).filterMap (fun i =>
    let k := 540 * halfNo h + firstSensor d + i
    if s.excl.contains k then none else (s.sens.find? (fun e => e.1 = k)).map (·.2))
  match l with
  | [] => none
  | x :: t => some (t.foldl max x)

/-- The hottest reading of some dies of a half as a signed byte in °C, rounded down; 0x7F where there is none. -/
def State.hottest (s : State) (l : List (Half × Nat)) : List Byte :=
  match l.filterMap (fun e => if s.halfUp e.1 then s.reading e.1 e.2 else none) with
  | [] => [0x7F]
  | x :: t => [BitVec.ofInt 8 (Int.fdiv (t.foldl max x) 8)]

def diesOf (h : Half) (l : List Nat) : List (Half × Nat) := l.map (fun d => (h, d))
def junctionDies : List Nat := [0, 1, 2, 3, 4] ++ (List.range 8).map (· + 8)

/-- A remote input as a signed byte in °C. -/
def State.thTemp (s : State) (i : Nat) : List Byte :=
  if s.isSet .gTherm (R.thermG.TH_CFG_EN.ix i) && !s.isSet .gTherm (R.thermG.TH_FAULT.ix i) then
    [BitVec.ofInt 8 (Int.fdiv (BitVec.ofNat 16 (s.getF .gTherm (R.thermG.TH_TEMP.ix i))).toInt 16)]
  else [0x7F]

/-- Sum of a counter over the halves that are up. -/
def State.sumUp (s : State) (f : Fld) : Nat :=
  let l := [Half.A, Half.B].filter s.halfUp
  if l.isEmpty then 2 ^ 32 - 1 else (l.map (fun h => s.getF (.comb h) f)).sum

def State.fencedHalves (s : State) : Nat :=
  s.getF .ck R.ctrlch.CC_STS_FENCED_A + 2 * s.getF .ck R.ctrlch.CC_STS_FENCED_B

/-- The telemetry record (Table 10.7); the keeper time is a free value. -/
def State.telemetry (s : State) : List Byte :=
  let hbm := (List.range 12).map (· + 16)
  let tile := (List.range 8).map (· + 28)
  let ports := ((List.range 128).filter (fun n => s.lstate (portOf n) = 2)).length
  let cells := ((List.range 576).filter (fun n =>
    s.isSet (cellPage (halfOf (n / 288)) (n % 288)) R.cell.CELL_ID_MAPPED)).length
  bytesOf 4 (s.freeAhead 0) ++ bytesOf 2 (s.getF .gPwr R.pwrG.VIN_W) ++ bytesOf 2 (s.getF .gPwr R.pwrG.CAP_NOW_W) ++
    s.hottest (diesOf .A junctionDies) ++ s.hottest (diesOf .B junctionDies) ++ s.hottest (diesOf .A hbm ++ diesOf .B hbm) ++
    s.hottest (diesOf .A tile ++ diesOf .B tile) ++ (List.range 4).flatMap s.thTemp ++ bytesOf 1 s.dstate ++ bytesOf 1 s.ccMode ++
    bytesOf 1 (s.hingeView + 4 * s.fencedHalves) ++ bytesOf 1 s.hostRoles ++ bytesOf 2 ports ++ bytesOf 2 cells ++
    bytesOf 4 (s.sumUp R.comb.ALL_CNT_COUNT) ++ bytesOf 4 (s.sumUp R.comb.FATAL_CNT_COUNT) ++ List.replicate 32 0

/-- TELEMETRY_REFRESH. -/
def telemetryRefresh (s : State) : State :=
  if s.die 0 = .up then { s.drawn 1 with telem := s.telemetry } else s

/-! ## Commands (Table 10.6) -/

/-- GET_TELEMETRY: the record of the last refresh. -/
def getTelemetry (b : Binding) (s : State) : State := if s.bound b then s.mgmtReply b 1 0 (padTo 64 s.telem) else s

/-- GET_HEALTH. -/
def getHealth (b : Binding) (s : State) : State :=
  if s.bound b then
    s.mgmtReply b 2 0 (bytesOf 4 s.ccSts ++ bytesOf 1 (halfNo s.leader) ++ bytesOf 1 s.hostRoles ++ bytesOf 1 s.fencedHalves ++
      bytesOf 4 (s.readReg .ck 0x124).toNat)
  else s

/-- The DDR5 training step of the bring-up has come (12 Table 12.2, step 10). -/
def State.ddrStep (s : State) (h : Half) : Bool :=
  s.answers (.comb h) && decide (6 ≤ s.getF .keeper R.keeper.BOOT_STS_PHASE) && decide (s.getF .keeper R.keeper.BOOT_STS_PHASE ≤ 9)

/-- A description is complete. For a channel that has not started training it replaces the one before, and a channel that waits trains; else, and in
safe halt, it is kept for the next start. -/
def State.takeDimm (s : State) (h : Half) (c : Fin 8) (b : List Byte) : State :=
  let k := chanKey h c.val
  if s.halted then ({ s with dimmNext := mput s.dimmNext k b }).mgmtReply .i3c 3 0 []
  else if s.answers (.ddrc h c) && s.getF (.ddrc h c) R.ddrc.BLK_STS_STATE ≠ 0 then
    ({ s with dimmNext := mput s.dimmNext k b }).mgmtReply .i3c 3 1 []
  else
    let s := ({ s with mem := { s.mem with dimms := mput s.mem.dimms k b } }).mgmtReply .i3c 3 0 []
    if s.ddrStep h && !s.spdOut.contains k then s.ddrStart h c.val else s

/-- DIMM_DESC: a quarter of a description. Whether the quarters before it arrived within the 10 s of the last one is a free value. -/
def dimmDesc (b : Binding) (h : Half) (c : Fin 8) (offset : Nat) (bytes : List Byte) (s : State) : State :=
  if !s.bound b then s
  else
    match b with
    | .pcie _ => s.mgmtReply b 3 3 []
    | .i3c =>
      if bytes.length ≠ 256 || !([0, 256, 512, 768].contains offset) then s.mgmtReply b 3 2 []
      else
        let k := chanKey h c.val
        let parts := mput (mget [] s.dimmIn k) offset bytes
        if parts.length < 4 then ({ s with dimmIn := mput s.dimmIn k parts }).mgmtReply b 3 0 []
        else if s.freeAhead 0 % 2 = 0 then
          ({ s.drawn 1 with dimmIn := mput s.dimmIn k [(offset, bytes)] }).mgmtReply b 3 0 []
        else ({ s.drawn 1 with dimmIn := merase s.dimmIn k }).takeDimm h c (parts.flatMap (fun (e : Nat × List Byte) => e.2))

/-- An event as GET_EVENTS gives it. -/
def evtBytes (e : MgmtEvt) : List Byte :=
  bytesOf 1 e.cls ++ bytesOf 1 e.half ++ bytesOf 2 e.detail ++ bytesOf 4 (Config.free e.stamp)

/-- GET_EVENTS: the oldest events leave the queue; an empty queue releases ALERT_N. -/
def getEvents (b : Binding) (count : BitVec 8) (s : State) : State :=
  if !s.bound b then s
  else if count.toNat = 0 || count.toNat > 8 then s.mgmtReply b 4 2 []
  else
    let l := s.evq.take count.toNat
    let rest := s.evq.drop count.toNat
    let s := ({ s with evq := rest, pins := { s.pins with alert := !rest.isEmpty } }).setCc R.ctrlch.EVT_PEND_COUNT rest.length
    s.mgmtReply b 4 0 (bytesOf 1 l.length ++ l.flatMap evtBytes)

/-- The EID field of a binding. -/
def eidFld : Binding → Fld
  | .i3c => R.ctrlch.MGMT_ADDR_EID_I3C
  | .pcie .f0 => R.ctrlch.MGMT_ADDR_EID_FN0
  | .pcie .companion => R.ctrlch.MGMT_ADDR_EID_FN1

/-- SET_ENDPOINT_ID; the response is DSP0236's: completion code, status, EID, pool size (assumption 25). EIDs 0 and 255 are invalid data. -/
def setEndpointId (b : Binding) (eid : BitVec 8) (s : State) : State :=
  if !s.reached b then s
  else if eid = 0 || eid = 0xFF then (s.err .ck 14 {}).emit (.mgmt b [1, 2])
  else (s.setCc (eidFld b) eid.toNat).emit (.mgmt b ([1, 0, 0, eid] ++ [0]))

/-- MCTP_REASSEMBLY_TIMEOUT: the message is discarded. -/
def mctpReassemblyTimeout (b : Binding) (s : State) : State := if s.bound b then s.err .ck 14 {} else s

/-! ## The I3C target (R330, Table 10.5) -/

/-- The target answers on its bus. -/
def State.i3cUp (s : State) : Bool := s.die 0 = .up
def State.hasDa (s : State) : Bool := s.isSet .ck R.ctrlch.MGMT_ADDR_DA_VALID

/-- A CCC it acknowledges, with an effect; and one directed to a target that has no address. -/
def State.ccc (s : State) (ok : Bool) (act : State → State) : State :=
  if !s.i3cUp then s else if ok then act (s.emit (.i3cAck true)) else s.emit (.i3cAck false)

def State.setI3c (s : State) (x : I3cSt) : State := { s with i3c := x }

/-- ENEC, DISEC: bit 0 enables in-band interrupts (assumption 25). -/
def enec (bits : BitVec 8) (s : State) : State :=
  s.ccc true (fun s => s.setI3c { s.i3c with events := s.i3c.events ||| (bits &&& 1).toNat })
def disec (bits : BitVec 8) (s : State) : State :=
  s.ccc true (fun s => s.setI3c { s.i3c with events := s.i3c.events &&& (bits &&& 1 ^^^ 1).toNat })

def State.setDa (s : State) (valid : Bool) (da : Nat) : State :=
  (s.setCc R.ctrlch.MGMT_ADDR_DA_VALID (if valid then 1 else 0)).setCc R.ctrlch.MGMT_ADDR_DA da

def rstdaa (s : State) : State := s.ccc true (fun s => s.setDa false 0)

/-- The provisional ID, most significant byte first. -/
def pidBytes : List Byte := (bytesOf 6 (0x1F6B * 2 ^ 33 + Config.uid.toNat % 2 ^ 32)).reverse

/-- ENTDAA: a target without an address sends its PID, BCR and DCR and takes the address. -/
def entdaa (da : BitVec 7) (s : State) : State :=
  s.ccc (!s.hasDa) (fun s => (s.emit (.i3c (pidBytes ++ [0x26, 0x00]))).setDa true da.toNat)

def setdasa (static da : BitVec 7) (s : State) : State :=
  s.ccc (!s.hasDa && static = 0x4C) (fun s => s.setDa true da.toNat)

def setmrl (len : BitVec 16) (s : State) : State := s.ccc true (fun s => s.setI3c { s.i3c with mrl := len.toNat })
def setmwl (len : BitVec 16) (s : State) : State := s.ccc true (fun s => s.setI3c { s.i3c with mwl := len.toNat })

/-- A GET CCC, directed. -/
def State.getCcc (s : State) (data : List Byte) : State := s.ccc s.hasDa (fun s => s.emit (.i3c data))

def getpid (s : State) : State := s.getCcc pidBytes
def getbcr (s : State) : State := s.getCcc [0x26]
def getdcr (s : State) : State := s.getCcc [0x00]

/-- GETSTATUS: the spec gives no contents; the two bytes are a free value. -/
def getstatus (s : State) : State := (s.getCcc (bytesOf 2 (s.freeAhead 0))).drawn 1

/-- GETMRL, with the one data byte of an IBI; GETMWL (assumption 10). -/
def getmrl (s : State) : State := s.getCcc ((bytesOf 2 s.i3c.mrl).reverse ++ [1])
def getmwl (s : State) : State := s.getCcc (bytesOf 2 s.i3c.mwl).reverse

/-- GETMXDS: writes and reads at 12.5 MHz (code 0); the clock-to-data turnaround is a free value. -/
def getmxds (s : State) : State := (s.getCcc [0, BitVec.ofNat 8 (8 * (s.freeAhead 0 % 8))]).drawn 1

/-- RSTACT: action 1 resets the management interface only; actions other than 0 and 1 are not supported. -/
def rstact (action : BitVec 8) (s : State) : State :=
  s.ccc (action.toNat ≤ 1) (fun s =>
    if action = 0 then s
    else
      let s := ({ s with dimmIn := [], spdm := merase s.spdm 2 }).setI3c { events := 0, mrl := 0, mwl := 0, hot := s.i3c.hot }
      (s.setDa false 0).setCc R.ctrlch.MGMT_ADDR_EID_I3C 0)

/-- HOT_JOIN: requested once while no address is assigned. -/
def hotJoin (s : State) : State :=
  if s.i3cUp && !s.hasDa && !s.i3c.hot then (s.setI3c { s.i3c with hot := true }).emit .hotJoin else s

/-- IBI_REPEAT: the class of the oldest unread event. -/
def ibiRepeat (s : State) : State :=
  match s.evq with
  | e :: _ => if s.i3cUp && s.ibiOn then s.emit (.ibi e.cls) else s
  | [] => s

end Sys2Proof.Machine
end

