-- ==== Sys2Proof/Machine/Clock.lean ====
section
/-! DEFINITION. Clocks and the power cap (11 R340 to R344, R348 to R352): the clocks' rise, the cap loop, domains, REFCLK. -/

namespace Sys2Proof.Machine

/-! ## The clock of a compute die rises (R343, R344) -/

/-- CLOCK_RAMP_STEP: 10 µs of rising. The clock rises by 100 MHz at most; a duty that rises from idle comes to a free value above its present one
(R344 bounds it by 50 µs in all; assumption 70). -/
def clockRampStep (h : Half) (q : Fin 4) (s : State) : State :=
  let f := R.clk.CEIL_MHZ.ix q.val
  let now := s.getF (.clk h) f
  if s.answers (.clk h) && s.die (dieCd h q.val) = .up then
    let s := if now < s.ceilOf h q.val then s.setF (.clk h) f (min (now + 100) (s.ceilOf h q.val)) else s
    let x := s.cd h q.val
    if x.rise < 15 then (s.drawn 1).setCd h q.val { x with rise := x.rise + 1 + s.freeAhead 0 % (15 - x.rise) } else s
  else s

/-- FMAX: 600 to 1,500 MHz in steps of 10; other writes are ignored. -/
def fmax (_m : Master) (h : Half) (value : Word) (s : State) : State :=
  let n := bits value.toNat 10 0
  if s.answers (.clk h) && decide (600 ≤ n) && decide (n ≤ 1500) && n % 10 = 0 then
    foldOver (List.range 4) (fun q s => s.showClock h q) (s.setF (.clk h) R.clk.FMAX_MHZ n)
  else s

/-! ## The cap (R340, R341) -/

/-- CAP_REQ: applied by the complex; held while it does not run, and in D-DRAIN (R362). -/
def capReq (_m : Master) (value : Word) (s : State) : State :=
  let w := value.toNat % 65536
  if !(s.answers .gPwr && decide (1500 ≤ w) && decide (w ≤ 5200)) then s
  else
    let t := s.setF .gPwr R.pwrG.CAP_REQ_W w
    if !s.ccLive || s.draining then { t with capHeld := true } else t.applyCap w

/-- Steps of 10 % by which a half's HBM requests are limited: at most five. -/
def State.hbmLimit (s : State) (h : Half) : Nat := mget 0 s.capHbm (halfNo h)
def State.setHbmLimit (s : State) (h : Half) (n : Nat) : State := { s with capHbm := mset 0 s.capHbm (halfNo h) n }

/-- Change the cap ceiling and duty of every compute die of a half. -/
def State.setCap (s : State) (h : Half) (cap duty : Nat) : State :=
  foldOver (List.range 4) (fun q s => s.setCd h q { s.cd h q with cap := cap, capD := duty }) s

/-- Firmware holds the leading half's cells at 600 MHz in reduced service (12 R370). -/
def State.heldSlow (s : State) (h : Half) : Bool := s.reduced && h = s.leader

/-- One step down: the clock from FMAX to 600 MHz, the duty to 1/16, HBM to 50 %. -/
def State.capLower (s : State) (h : Half) : State :=
  let x := s.cd h 0
  if x.cap > 600 then s.setCap h (max 600 (min x.cap (s.fmaxOf h) - 10)) x.capD
  else if x.capD > 0 then s.setCap h x.cap (x.capD - 1)
  else s.setHbmLimit h (min 5 (s.hbmLimit h + 1))

/-- One step up, in the reverse order. -/
def State.capRaise (s : State) (h : Half) : State :=
  let x := s.cd h 0
  if s.hbmLimit h > 0 then s.setHbmLimit h (s.hbmLimit h - 1)
  else if x.capD < 15 then s.setCap h x.cap (x.capD + 1)
  else if s.heldSlow h || x.cap = 1500 then s
  else s.setCap h (if x.cap + 10 ≥ s.fmaxOf h then 1500 else x.cap + 10) 15

/-- The stage of Table 11.3 in force on a half. -/
def State.capStage (s : State) (h : Half) : Nat :=
  if !s.halfUp h then 0
  else if s.hbmLimit h > 0 then 3
  else if (s.cd h 0).capD < 15 then 2
  else if !s.heldSlow h && decide ((s.cd h 0).cap < s.fmaxOf h) then 1
  else 0

/-- CAP_LOOP: one run. A half above its share takes one step down, one below it one step up. -/
def capLoop (o : CapObs) (s : State) : State :=
  if !(s.die 0 = .up && decide (2 ≤ s.dstate)) then s
  else
    let peak := max (s.getF .gPwr R.pwrG.LIMIT_PEAK_W) (min o.input 65535)
    let s := s.setFs .gPwr [(R.pwrG.VIN_W, min o.input 65535), (R.pwrG.LIMIT_PEAK_W, peak), (R.pwrG.CAP_NOW_FLOOR, min o.floor 65535)]
    let s := foldOver [Half.A, Half.B] (fun h s =>
      if !s.halfUp h then s
      else
        let load := match h with
          | .A => o.loadA
          | .B => o.loadB
        let share := s.getF (.pwr h) R.pwrH.SHARE_SHARE_W
        let s := s.setF (.pwr h) R.pwrH.SHARE_LOAD_W (min load 65535)
        if load > share then s.capLower h else if load < share then s.capRaise h else s) s
    s.setF .gPwr R.pwrG.LIMIT_STAGE (max (s.capStage .A) (s.capStage .B))

/-- CAP_UNMET: a half at the floor of stage 3 still exceeds its share. -/
def capUnmet (s : State) : State :=
  let at5 := fun (h : Half) => s.halfUp h && s.hbmLimit h = 5 &&
    decide (s.getF (.pwr h) R.pwrH.SHARE_LOAD_W > s.getF (.pwr h) R.pwrH.SHARE_SHARE_W)
  if s.answers .gPwr && (at5 .A || at5 .B) then s.err .gPwr 8 else s

/-! ## Domains (R349, R350) -/

/-- DOMAIN_GATE, by the rules of Table 11.7a. -/
def domainGate (d : DomRef) (toOff : Bool) (s : State) : State :=
  let h := d.half
  let k := d.k.val
  let st := s.dom h k
  if !s.answers (.clk h) || !(st = 2 || (st = 1 && toOff)) then s
  else if k < 4 then (if s.dieBusy h k then s else s.setDom h k (if toOff then 0 else 1))
  else if 8 ≤ k && k < 28 then (if toOff then s else s.setDom h k 1)
  else if 28 ≤ k && k < 36 then
    let p := s.pstate h (Fin.ofNat 8 (k - 28))
    if toOff then (if p = 0 then s.setDom h k 0 else s) else if p ≤ 2 then s.setDom h k 1 else s
  else s

/-- DOMAIN_WAKE. -/
def domainWake (d : DomRef) (s : State) : State :=
  if s.answers (.clk d.half) && s.dom d.half d.k.val ≤ 1 then s.setDom d.half d.k.val 2 else s

/-! ## Device state (R352) -/

/-- DEVICE_IDLE. -/
def deviceIdle (s : State) : State := if s.dstate = 3 && !s.working then s.setDstate 2 else s

/-! ## REFCLK (R348) -/

def State.refOn (s : State) : Half → Bool
  | .A => s.pins.refA
  | .B => s.pins.refB

def State.setRef (s : State) (h : Half) (on : Bool) : State :=
  let s := { s with pins := match h with
    | .A => { s.pins with refA := on }
    | .B => { s.pins with refB := on } }
  s.setF (.clk h) R.clk.REFCLK_PRESENT (if on then 1 else 0)

/-- REFCLK_LOSS. -/
def refclkLoss (h : Half) (s : State) : State :=
  if s.answers (.clk h) then (s.setRef h false).err (.clk h) 9 else s.setRef h false

/-- REFCLK_HOLDOVER_EXPIRE: the half's comb die has lost its clock. -/
def refclkHoldoverExpire (h : Half) (s : State) : State :=
  if !s.refOn h && (s.halfUp h || s.die (dieComb h) = .fenced) then s.halfLost h 1 else s

/-- REFCLK_RETURN. -/
def refclkReturn (h : Half) (s : State) : State := s.setRef h true

end Sys2Proof.Machine
end

