-- ==== Sys2Proof/Machine/Power.lean ====
section
/-! DEFINITION. Supplies and shutdowns (11 R338, R345 to R347, R352, R359; 01 R14): what a half loses without power, the rails off, the power-fail
path, the cuts, the orderly stop, POR_N and the straps. -/

namespace Sys2Proof.Machine

/-! ## What a half loses -/

/-- The half whose memory holds an address (04 Table 4.1). -/
def regionHalf (a : Nat) : Option Half :=
  if a < hbmSize then some .A
  else if hbmBase .B ≤ a && a < hbmBase .B + hbmSize then some .B
  else if scratchBase .A ≤ a && a < scratchBase .A + scratchWin then some .A
  else if scratchBase .B ≤ a && a < scratchBase .B + scratchWin then some .B
  else if tierBase .A ≤ a && a < tierBase .A + tierWin then some .A
  else if tierBase .B ≤ a && a < tierBase .B + tierWin then some .B
  else none

/-- Entries whose key does not lie in the half's block of n keys. -/
def offHalf {β : Type} (h : Half) (n : Nat) (l : List (Nat × β)) : List (Nat × β) := l.filter (fun e => e.1 / n ≠ halfNo h)

/-- Keys of the half's HBM rows and of its tier. -/
def undefKeys (h : Half) : List Nat := (List.range 72).map (72 * halfNo h + ·) ++ [144 + halfNo h]

/-- The contents of a half's memory are lost: HBM and tier undefined, scratch 0 (04 R129, assumption 35). -/
def State.clearMem (s : State) (h : Half) : State :=
  let m := s.mem
  let keep := fun (a : Nat) => regionHalf a ≠ some h
  let m := { m with
    bytes := m.bytes.filter (fun e => keep e.1)
    undef := (undefKeys h).foldl (fun u k => mput u k s.fresh) m.undef
    poison := m.poison.filter (fun k => keep (64 * k))
    seenUE := m.seenUE.filter (fun k => keep (64 * k))
    train := m.train.filter (fun e => e.1 / 12 ≠ halfNo h)
    held := m.held.filter (fun r => heldReq r ≠ some h && keep (heldAddr r)) }
  (({ s with mem := m }).drawn 1).setCache h []

/-- A register lies in the half's region. -/
def inRegion (h : Half) (a : Nat) : Bool := decide (halfBase h ≤ a) && decide (a < halfBase h + (if h = .A then 0x07000000 else 0x08000000))

/-- The half of a link between dies. -/
def dlHalf (k : Nat) : Nat := if k < 32 then k / 16 else (k - 32) / 32

/-- Everything a half holds returns to its reset value; a cell's pending retirement stays for the next start (02 R75). -/
def State.clearHalf (s : State) (h : Half) : State :=
  let n := halfNo h
  let s := s.clearMem h
  let s := (s.setHport h hportInit).setFnst (s.portFn h) fnInit
  let s := (s.setRsv h []).setRing h { seq := 0, held := [] }
  { s with
    regs := s.regs.filter (fun e => !inRegion h e.1)
    cells := s.cells.filterMap (fun e =>
      if e.1 / 288 ≠ n then some e
      else if e.2.retire || e.2.swap then some (e.1, { cellInit with retire := e.2.retire, swap := e.2.swap })
      else none)
    swaps := s.swaps.filter (fun k => k / 288 ≠ n)
    queues := offHalf h 512 s.queues
    sems := s.sems.filter (fun e => semHalf e.1 ≠ h)
    dlinks := s.dlinks.filter (fun e => dlHalf e.1 ≠ n)
    fwWins := offHalf h 136 s.fwWins
    arbs := offHalf h 4096 s.arbs
    throttled := offHalf h 36 s.throttled
    volts := offHalf h 36 s.volts
    oes := offHalf h 8 s.oes
    ports := offHalf h 64 s.ports
    reqs := s.reqs.filter (fun e => tagHalf e.1 ≠ h)
    rcache := s.rcache.filter (fun e => e.half ≠ h)
    fctx := offHalf h 8 s.fctx
    rcopies := s.rcopies.filter (fun e => e.half ≠ h)
    colls := s.colls.filter (fun e => e.half ≠ h)
    hreads := s.hreads.filter (fun e => e.2.half ≠ h)
    lostQ := s.lostQ.filter (fun k => k / 512 ≠ n)
    spdOut := s.spdOut.filter (fun k => k / 8 ≠ n)
    sens := offHalf h 540 s.sens
    excl := s.excl.filter (fun k => k / 540 ≠ n)
    watch := s.watch.filter (fun e => e.1 ≥ 72 || e.1 / 36 ≠ n)
    ticks := merase s.ticks n
    cdclk := offHalf h 4 s.cdclk
    capHbm := merase s.capHbm n
    cdHit := s.cdHit.filter (fun k => k / 4 ≠ n)
    cals := s.cals.filter (fun e => e.1 / 2 ^ 17 ≠ 1 + n)
    coal := s.coal.filter (fun e => !inRegion h e.1) }

/-! ## Rails off (Table 11.8) -/

/-- Partitions with work in flight. -/
def State.busyParts (s : State) : List Nat :=
  (List.range 8).filter (fun p => s.queues.any (fun e => !e.2.fly.isEmpty && s.partOfQ (halfOf (e.1 / 512)) (e.1 % 512) = some p))

/-- Parts and streams stop where they stand: nothing completes. -/
def State.abandon (s : State) : State :=
  { s with
    cells := s.cells.map (fun e => (e.1, { e.2 with
      ctx := none, ended := none, wait := none, loops := [], me0 := [], me1 := [], vu := [], lsu := [] }))
    rcopies := []
    colls := [] }

/-- Every open branch closes (06 R178). -/
def State.closeAll (s : State) : State := foldOver (List.range 128) (fun n s => s.closeBranches (portOf n)) s

/-- The complex as it is before a bring-up. -/
def State.ccDown (s : State) : State :=
  let s := { s with cc := { frame := 0, expect := [], copies := [], last := [], promo := [], injd := [] } }
  s.setFs .ck [(R.ctrlch.CC_STS_MODE, 0), (R.ctrlch.CC_STS_CA_STATE, 0), (R.ctrlch.CC_STS_CB_STATE, 0), (R.ctrlch.CC_STS_CK_STATE, 0),
    (R.ctrlch.BLK_STS_CH_STATE, 0), (R.ctrlch.CC_STS_HINGE, 0), (R.ctrlch.CC_STS_FENCED_A, 0), (R.ctrlch.CC_STS_FENCED_B, 0)]

/-- The VIN48 rails go off, with SHUTDOWN.CAUSE; the keeper's pages keep their values (R363, 12 R391). -/
def State.railsOff (s : State) (cause : Nat) : State :=
  let s := s.closeAll
  let s := (s.clearHalf .A).clearHalf .B
  let s := { s with
    dies := s.dies.filter (fun e => e.1 = 0)
    fn0 := fnInit
    fn1 := fnInit
    hreads := []
    partners := []
    transit := []
    epochs := []
    swarms := []
    readys := []
    aborted := []
    fwq := []
    bonds := []
    cfg := {}
    lostWhy := []
    reduced := false
    spdm := s.spdm.filter (fun e => e.1 = 2) }
  let s := s.ccDown.setFs .keeper [(R.keeper.BOOT_STS_HALF_A_UP, 0), (R.keeper.BOOT_STS_HALF_B_UP, 0), (R.keeper.BOOT_STS_REDUCED, 0)]
  (s.setF .gPwr R.pwrG.SHUTDOWN_CAUSE cause).setDstate 1

/-- The VIN48 rails are up. -/
def State.railsUp (s : State) : Bool := decide (2 ≤ s.dstate)

/-! ## The power-fail path (R345, R362) -/

/-- POWER_FAIL. In safe halt the cells stop and the rails are cut at 40 V, by UNDERVOLTAGE. -/
def powerFail (s : State) : State :=
  let t := { s with pins := { s.pins with pwrFail := true } }
  if !s.railsUp then t
  else if s.halted then t.abandon
  else
    let s := if s.draining then t else (t.setDstate 4).mgmtEvt 7 none
    let s := s.err .gPwr 10 { parts := bitsOf s.busyParts }
    ((s.abandon).sendDark s.leader).railsOff 3

/-! ## The cuts (R346) -/

def State.cut (s : State) (bit cause : Nat) : State :=
  ((({ s with pins := { s.pins with fault := true } }).err .gPwr bit)).railsOff cause

/-- UNDERVOLTAGE. -/
def undervoltage (s : State) : State :=
  let t := { s with pins := { s.pins with vin48 := false } }
  if s.railsUp then t.cut 11 5 else t

/-- OVERVOLTAGE. -/
def overvoltage (s : State) : State := if s.railsUp then s.cut 12 6 else s

/-- VIN48_LOW: below 42.0 V while the rails are up. -/
def vin48Low (s : State) : State :=
  let t := { s with pins := { s.pins with vin48 := false } }
  if s.railsUp then t.err .gPwr 9 else t

/-- VIN48_RISE: the supply is there; BRING_UP_START raises the rails. -/
def vin48Rise (s : State) : State := { s with pins := { s.pins with vin48 := true } }

/-! ## The orderly stop (R359, R105) -/

/-- Step 1: D-DRAIN, dispatch stops, memory training stops (04 R139). It does not run in safe halt (R324), nor a second time. -/
def State.orderlyStop (s : State) : State :=
  if s.halted || !(s.dstate = 2 || s.dstate = 3) then s
  else
    let s := (s.setDstate 4).mgmtEvt 7 none
    ({ s with mem := { s.mem with train := [] } } : State).releaseHeld

/-- Records that wait in the buffers and are not journaled are written to the journal (Table 11.11, step 6). -/
def State.journalHeld (s : State) : State :=
  foldOver ((s.ringA.held ++ s.ringB.held).filter (fun r => !bit r.flags 3)) (fun r s => s.journal 6 (recBytes r)) s

/-- DRAIN_END: what still runs completes THERMAL_STOP, sequencers stop, DARK goes out, the OEs go OFF, the rails go off. -/
def drainEnd (s : State) : State :=
  if !s.draining then s
  else
    let s := (((s.stopSeq .A 0xD).stopSeq .B 0xD).stopDone .A).stopDone .B
    let s := s.sendDark s.leader
    let s := foldOver [Half.A, Half.B] (fun h s =>
      foldOver (allFin 8) (fun o s => if s.pstate h o = 0 then s else s.lowerOe h o 0 0) s) s
    s.journalHeld.railsOff 2

/-! ## POR_N and the straps (R338, R352; 01 R14, R15) -/

/-- POR_ASSERT: the rails go off with no drain; the strap latch and THERMTRIP_N are released. -/
def porAssert (s : State) : State :=
  let t := { s with pins := { s.pins with por := true, sampled := false, edge := false, pwrFail := false, therm := false, fault := false } }
  if s.railsUp then t.railsOff 1 else t

/-- POR_DEASSERT. -/
def porDeassert (s : State) : State :=
  if s.pins.por then { s with pins := { s.pins with por := false, edge := true } } else s

/-- PRI_SEL_SAMPLE, by keeper hardware. -/
def priSelSample (s : State) : State :=
  if s.pins.vAon && !s.pins.por && !s.pins.sampled then
    let q := if s.pins.priSel then 1 else 0
    ({ s with pins := { s.pins with sampled := true } }).setFs .keeper
      [(R.keeper.STRAPS_PRI_SEL, q), (R.keeper.STRAPS_LEADER, q), (R.keeper.STRAPS_BRDID, s.pins.brdid.toNat)]
  else s

/-- PRI_SEL_CHANGE: only PRI_SEL_NOW shows it. -/
def priSelChange (level : Bool) (s : State) : State :=
  let t := { s with pins := { s.pins with priSel := level } }
  if s.pins.vAon then t.setF .keeper R.keeper.STRAPS_PRI_SEL_NOW (if level then 1 else 0) else t

/-! ## V_AON lost -/

/-- A journal record programmed last may be torn: whether a program was in progress is a free choice (R361). -/
def tearLast (n : Nat) (l : List JRec) : List JRec :=
  match l.reverse with
  | r :: t => if n % 2 = 0 then l else (({ r with whole := false } : JRec) :: t).reverse
  | [] => []

/-- V_AON_LOSS: D-OFF. The NOR devices, the fuses (those of the HBM stacks too) and a stored debug token stay (13 R393, R406); so do the levels the board drives. -/
def vAonLoss (s : State) : State :=
  { State.reset with
    pins := { s.pins with vAon := false, sampled := false, edge := false, fault := false, therm := false, alert := false }
    ppr := s.ppr
    nv := { State.reset.nv with
      prim := { s.nv.prim with journal := tearLast (s.freeAhead 0) s.nv.prim.journal }
      mirr := { s.nv.mirr with journal := tearLast (s.freeAhead 1) s.nv.mirr.journal } }
    sec := { State.reset.sec with svn := s.sec.svn, revoke := s.sec.revoke, token := s.sec.token }
    out := s.closeAll.out
    fresh := s.fresh + 2
    pending := s.pending }

end Sys2Proof.Machine
end

