-- ==== Sys2Proof/Machine/Thermal.lean ====
section
/-! DEFINITION. Temperatures (11 R347, R353 to R358; 05 R168; 06 R180, R189): the sensor sample, exclusion, trip, surge, thresholds and
dithering, region limits, the remote inputs. -/

namespace Sys2Proof.Machine

def thermDies : List Nat := [0, 1, 2, 3, 4] ++ (List.range 28).map (· + 8)
def isCompute (d : Nat) : Bool := decide (d < 4)
def isStack (d : Nat) : Bool := decide (16 ≤ d) && decide (d < 28)
def isLaser (d : Nat) : Bool := decide (28 ≤ d)
def isOeDie (d : Nat) : Bool := decide (8 ≤ d) && decide (d < 16)

/-- Thresholds of a die in 1/8 °C (Table 11.10): 1 WARN, 2 THROTTLE, 3 CRIT, 4 TRIP. -/
def threshold (d n : Nat) : Int :=
  8 * (if isStack d then [0, 90, 95, 105, 110] else if isLaser d then [0, 75, 80, 90, 95] else [0, 95, 100, 108, 115]).getD n 0

def sensorKey (h : Half) (d i : Nat) : Nat := 540 * halfNo h + firstSensor d + i

/-! ## Debounce and dithering (R357, R358), for dies and remote inputs alike -/

def watchInit : WatchSt := { hist := [], chg := [], prev := 0 }
def State.watch1 (s : State) (k : Nat) : WatchSt := mget watchInit s.watch k
def State.setWatch (s : State) (k : Nat) (x : WatchSt) : State := { s with watch := mset watchInit s.watch k x }
def dieWatch (h : Half) (d : Nat) : Nat := 36 * halfNo h + d

/-- The state after the last readings (newest first, four count): up where four lie at or above a threshold, down where four lie below the
threshold of the state left minus `hys`. -/
def settleState (th : Nat → Int) (top : Nat) (hys : Int) (hist : List Int) (cur : Nat) : Nat :=
  let l := hist.take 4
  if l.length < 4 then cur
  else
    let up := (List.range (top + 1)).filter (fun n => decide (n > cur) && l.all (fun r => decide (r ≥ th n)))
    match up.getLast? with
    | some n => n
    | none =>
      let stays := (List.range (cur + 1)).filter (fun n => n = 0 || !l.all (fun r => decide (r < th n - hys)))
      stays.getLast?.getD 0

/-! ## Exclusion (R355) -/

/-- The middle of a list of changes; the lower one of an even number's two. -/
def median (l : List Int) : Int := nth 0 (l.mergeSort (fun a b => decide (a ≤ b))) ((l.length - 1) / 2)

/-- The sensors of a die that jump between two samples. -/
def jumps (h : Half) (d : Nat) (old new : List (Nat × Int)) (excl : List Nat) : List Nat :=
  let first := firstSensor d
  let live := ((List.range (dieSensors d)).map (sensorKey h d)).filter (fun k => !excl.contains k)
  let change := fun (k : Nat) => if mhas old k then mget 0 new k - mget 0 old k else 0
  live.filter (fun k =>
    let near := (live.filter (fun j => j ≠ k && Config.sensNear (k % 540) (j % 540))).map change
    decide (first ≤ k % 540) && decide ((change k).natAbs > 64) && decide (2 ≤ near.length) && decide ((median near).natAbs < 16))

/-- Exclude sensors of a die until the next start. -/
def State.excludeSensors (s : State) (h : Half) (d : Nat) (l : List Nat) : State :=
  foldOver l (fun k s =>
    let s := { s with excl := sadd s.excl k }
    (s.addSat (.therm h) (R.therm.DIE_STS_EXCL.ix d) 1).err (.therm h) 13) s

/-! ## The trip (R347) -/

/-- The hottest reading of a die that trips it. -/
def State.tripAt (s : State) (h : Half) (d : Nat) : Option Int :=
  let live := ((List.range (dieSensors d)).map (sensorKey h d)).filter (fun k => !s.excl.contains k && mhas s.sens k)
  let hot := live.filter (fun k => decide (mget 0 s.sens k ≥ threshold d 4))
  let before := match (s.watch1 (dieWatch h d)).hist with
    | r :: _ => decide (r ≥ threshold d 4)
    | [] => false
  if hot.isEmpty then none
  else if isStack d then (if before then s.reading h d else none)
  else if 2 ≤ hot.length || live.length = 1 then s.reading h d
  else none

/-- The trip: the rails are cut, THERMTRIP_N asserts, the keeper's firmware restarts. Journal records it held are lost, and a page program
in progress leaves a torn record: whether one was is a free choice. -/
def State.trip (s : State) (h : Half) (d : Nat) (r : Int) : State :=
  let s := s.setFs .gTherm [(R.thermG.TRIP_INFO_VALID, 1), (R.thermG.TRIP_INFO_HALF, halfNo h), (R.thermG.TRIP_INFO_DIE, d),
    (R.thermG.TRIP_INFO_DEG_C, (BitVec.ofInt 8 (Int.fdiv r 8)).toNat)]
  let s := s.err .gTherm 16
  let s := ({ s with pins := { s.pins with therm := true } }).railsOff 4
  let nv := { s.nv with
    prim := { s.nv.prim with journal := tearLast (s.freeAhead 0) s.nv.prim.journal }
    mirr := { s.nv.mirr with journal := tearLast (s.freeAhead 1) s.nv.mirr.journal }
    queue := [] }
  (({ s with nv := nv }).drawn 2).setF .gPwr R.pwrG.NV_STS_QUEUED 0

/-! ## Surge (R355) -/

def State.surge (s : State) (h : Half) (d : Nat) (inj : Bool) : State :=
  let s := (s.addSat (.therm h) R.therm.SURGE_CNT_COUNT 1).err (.therm h) 11 { inj := inj }
  if isCompute d then
    (s.setF (.therm h) (R.therm.DIE_STS_SURGE.ix d) 1).setCd h d { s.cd h d with surge := 600 }
  else s

/-! ## States and their actions (R356 to R358) -/

/-- More than half of the die's sensors are excluded: it is held in THROTTLE. -/
def State.heldHot (s : State) (h : Half) (d : Nat) : Bool :=
  decide (2 * s.getF (.therm h) (R.therm.DIE_STS_EXCL.ix d) > dieSensors d)

/-- A die changes its state. Beyond 16 changes in 10,000 samples it is held in the higher of its last two states. -/
def State.dieTo (s : State) (h : Half) (d cur new : Nat) : State :=
  let p : Page := .therm h
  let now := mget 0 s.ticks (halfNo h)
  let x := s.watch1 (dieWatch h d)
  let chg := now :: x.chg.filter (fun t => decide (t + 10000 > now))
  let s := s.setWatch (dieWatch h d) { x with chg := chg, prev := cur }
  let tip := decide (chg.length > 16) && !s.isSet p (R.therm.DIE_STS_HOLD.ix d)
  let st := if tip then max cur new else new
  let s := s.setF p (R.therm.DIE_STS_STATE.ix d) st
  let s := if new = 1 && cur < 1 then s.orF p R.hdr.ERR_STS (2 ^ 8) else s
  let s := if new = 2 && cur < 2 then s.err p 9
    else if new = 3 then s.err p 10
    else if cur ≥ 2 then s.fwRecord p false
    else s
  let s := if tip then
      ((s.setF p (R.therm.DIE_STS_HOLD.ix d) 1).addSat p R.therm.DITHER_CNT_COUNT 1).err p 12
    else s
  if new = 3 then s.orderlyStop else s

/-- Thresholds of one die at a sample. -/
def State.judgeDie (s : State) (h : Half) (d : Nat) : State :=
  let p : Page := .therm h
  let cur := s.getF p (R.therm.DIE_STS_STATE.ix d)
  let n := settleState (threshold d) 3 24 (s.watch1 (dieWatch h d)).hist cur
  let n := if s.heldHot h d then max 2 n else n
  if n = cur || (decide (n < cur) && s.isSet p (R.therm.DIE_STS_HOLD.ix d)) then s else s.dieTo h d cur n

/-- THROTTLE of a compute die at a sample: the thermal ceiling, then the duty to 4/16. -/
def State.throttleCd (s : State) (h : Half) (q : Nat) : State :=
  let x := s.cd h q
  let t := min x.therm (s.fmaxOf h)
  if t > 600 then s.setCd h q { x with therm := max 600 (t - 50) }
  else if x.thermD > 3 then s.setCd h q { x with thermD := x.thermD - 1 }
  else s

/-- The bias ceiling at a case temperature in 1/8 °C: 5 mA less for each °C above 80 (06 R180). -/
def biasCeil (r : Int) : Nat := (150 - max 0 (Int.fdiv (5 * (r - 640) + 7) 8)).toNat

/-- A laser tile at a sample. -/
def State.tileSample (s : State) (h : Half) (o : Fin 8) (r : Int) : State :=
  let p : Page := .laser h o
  let was := s.getF p R.laser.TILE_BIAS_CEIL
  let now := biasCeil r
  let s := s.setFs p [(R.laser.TILE_CASE_C, (max 0 (Int.fdiv r 8)).toNat), (R.laser.TILE_BIAS_CEIL, now)]
  let s := if now = was then s else foldOver (List.range 18) (fun n s => s.showBias h o n) s
  if now < 150 then
    let s := s.setOe h o.val { s.oe h o.val with ceil := true }
    if was = 150 then s.err p 12 else s
  else s

/-- Feed-forward of −KT × ΔT to an OE's rings, locked and parked (06 R189), for a change in 1/8 °C: heaters stay within 0 and 30 mW. -/
def State.feedForward (s : State) (h : Half) (o : Fin 8) (dt : Int) : State :=
  let x := s.oe h o.val
  let kt := fun (k : Nat) => Config.kt (1024 * oeKey h o.val + k)
  let rings := x.rings.map (fun e =>
    (e.1, { e.2 with heater := min 30000 ((e.2.heater : Int) - Int.fdiv (kt e.1 * dt) 8000).toNat }))
  (s.setOe h o.val { x with rings := rings }).showRings h o

/-- Actions and views of a die at a sample, with the reading before it. -/
def State.dieActs (s : State) (h : Half) (d : Nat) (before : Option Int) (r : Int) : State :=
  let deg := (BitVec.ofInt 8 (Int.fdiv r 8)).toNat
  let s := s.setF (.therm h) (R.therm.DIE_STS_DEG_C.ix d) deg
  if isCompute d then (if 2 ≤ s.getF (.therm h) (R.therm.DIE_STS_STATE.ix d) then s.throttleCd h d else s)
  else if isStack d then s.setF (.hbmc h (Fin.ofNat 12 (d - 16))) R.hbmc.TEMP_DEG_C deg
  else if isOeDie d then
    let o := Fin.ofNat 8 (d - 8)
    let s := (s.setF (.oe h o) R.oe.OE_TEMP_DEG_C deg).monTick h o
    match before with
    | some b => s.feedForward h o (r - b)
    | none => s
  else if isLaser d then s.tileSample h (Fin.ofNat 8 (d - 28)) r
  else s

/-! ## Region limits (05 R168) -/

/-- One pair of neighbours: its NOC page, the lower of its two REGION_STS bits, the dies (numbers in 36 h + d), the two readings and supplies. The
second die is the comb die of the half that samples. -/
structure PairObs where
  q    : Nat
  bit  : Nat
  dieA : Nat
  dieB : Nat
  a    : Option Int
  b    : Option Int
  va   : Nat
  vb   : Nat
deriving DecidableEq, Repr

/-- The pairs of a half: OEs 0 to 3 join along Q0 and 4 to 7 along Q3; the hinge shows in NOC0 (assumption 36). -/
def State.pairs (s : State) (h : Half) : List PairObs :=
  let k := fun (h : Half) (d : Nat) => 36 * halfNo h + d
  let v := fun (n : Nat) => mget 0 s.volts n
  let pair := fun (q bit d : Nat) =>
    (PairObs.mk q bit (k h d) (k h 4) (s.reading h d) (s.reading h 4) (v (k h d)) (v (k h 4)))
  let o := otherHalf h
  (List.range 4).map (fun q => pair q 0 q) ++ (List.range 12).map (fun i => pair (i / 3) 2 (16 + i)) ++
    (List.range 8).map (fun e => pair (if e < 4 then 0 else 3) 4 (8 + e)) ++
    (if s.halfUp o then
      [PairObs.mk 0 6 (k o 4) (k h 4) (s.reading o 4) (s.reading h 4) (v (k o 4)) (v (k h 4))] else [])

def PairObs.dT (x : PairObs) : Nat :=
  match x.a, x.b with
  | some a, some b => (a - b).natAbs
  | _, _ => 0
def PairObs.dV (x : PairObs) : Nat := max x.va x.vb - min x.va x.vb

/-- REGION_STS bits of a pair that are over. -/
def PairObs.over (x : PairObs) : Nat := (if x.dT > 240 then 2 ^ x.bit else 0) ||| (if x.dV > 150 then 2 ^ (x.bit + 1) else 0)

/-- The hotter die of a pair. Of equal ones it is the compute die, the stack, the OE die, or this half's comb die (DESIGN CHOICE, assumption 81). -/
def PairObs.hotter (x : PairObs) : Nat :=
  match x.a, x.b with
  | some a, some b => if x.bit = 6 then (if a > b then x.dieA else x.dieB) else if a ≥ b then x.dieA else x.dieB
  | _, _ => if x.bit = 6 then x.dieB else x.dieA

/-- The supplies of a sample, by die. -/
def State.setVolts (s : State) (o : SensorObs) : State :=
  let k := 36 * halfNo o.half
  let put := fun (first : Nat) (l : List Nat) (m : List (Nat × Nat)) =>
    ((List.range l.length).zip l).foldl (fun m e => mput m (k + first + e.1) e.2) m
  let m := put 16 o.vHbm (put 8 o.vOe (put 4 [o.vComb] (put 0 o.vCd s.volts)))
  { s with volts := mput m (36 * halfNo (otherHalf o.half) + 4) o.vFar }

/-- Lower a compute die's region ceiling by 100 MHz, down to 600. -/
def State.lowerRegion (s : State) (h : Half) (q : Nat) : State :=
  let x := s.cd h q
  s.setCd h q { x with region := max 600 (min x.region (s.fmaxOf h) - 100) }

/-- The limits at a sample: a pair newly over a limit is recorded and its hotter die throttled until the release. A compute die's ceiling falls
100 MHz at once and then every 1 ms; the throttles of Table 5.8 on a stack, an OE die and a comb die bound bandwidth and rates only. -/
def State.regions (s : State) (h : Half) : State :=
  let ps := s.pairs h
  let ms := mget 0 s.ticks (halfNo h) % 10 = 0
  foldOver ps (fun x s =>
    let p : Page := .noc h (Fin.ofNat 4 x.q)
    let same := ps.filter (fun y => y.q = x.q)
    let now := same.foldl (fun m y => m ||| y.over) 0
    let s := s.setFs p [(R.noc.REGION_STS_OVER, now),
      (R.noc.REGION_MAX_DT_MAX, min 255 (max (s.getF p R.noc.REGION_MAX_DT_MAX) (x.dT / 8))),
      (R.noc.REGION_MAX_DV_MAX, min 65535 (max (s.getF p R.noc.REGION_MAX_DV_MAX) x.dV))]
    let new := x.over ≠ 0 && !mhas s.throttled x.dieA
    let s := if new then ({ s with throttled := mput s.throttled x.dieA x.hotter }).err p 12 else s
    let hot := mget x.hotter s.throttled x.dieA
    if x.over ≠ 0 && (new || ms) && hot % 36 < 4 then s.lowerRegion h (hot % 36) else s) s

/-- REGION_THROTTLE_RELEASE of a pair, by its stack or OE die where it has one, after 10 ms: it holds only where both differences are within 140 mV and
27 °C. -/
def regionThrottleRelease (h : Half) (q : Fin 4) (p : RegionPair) (s : State) : State :=
  let d := match p with
    | .compute => 36 * halfNo h + q.val
    | .hbm i => 36 * halfNo h + 16 + i.val
    | .oe o => 36 * halfNo h + 8 + o.val
    | .hinge => 36 * halfNo (otherHalf h) + 4
  match (s.pairs h).find? (fun x => x.dieA = d) with
  | none => s
  | some x =>
    if !s.answers (.noc h q) || decide (x.dT > 216) || decide (x.dV > 140) then s
    else
      let s := { s with throttled := merase s.throttled d }
      match p with
      | .compute => s.setCd h q.val { s.cd h q.val with region := 1500 }
      | _ => s

/-! ## The sample (R353) -/

/-- Show the highest state among a half's dies; the global page shows that of both halves (Table 11.14). -/
def State.showTherm (s : State) (h : Half) : State :=
  let s := s.setF (.therm h) R.tpc.BLK_STS_STATE
    (thermDies.foldl (fun m d => max m (s.getF (.therm h) (R.therm.DIE_STS_STATE.ix d))) 0)
  s.setF .gTherm R.tpc.BLK_STS_STATE (max (s.getF (.therm .A) R.tpc.BLK_STS_STATE) (s.getF (.therm .B) R.tpc.BLK_STS_STATE))

/-- SENSOR_SAMPLE: exclusion, then trip, surge and thresholds. -/
def sensorSample (o : SensorObs) (s : State) : State :=
  let h := o.half
  if !(s.railsUp && s.answers (.therm h)) then s
  else
    let old := s.sens
    let oldRead := fun (d : Nat) => (s.watch1 (dieWatch h d)).hist.head?
    let olds := thermDies.map (fun d => (d, oldRead d))
    let sens := (o.temps.filter (fun e => decide (e.1 < 540))).foldl (fun m e => mput m (540 * halfNo h + e.1) e.2) old
    let s := { s with sens := sens, ticks := mset 0 s.ticks (halfNo h) (mget 0 s.ticks (halfNo h) + 1) }
    let s := foldOver thermDies (fun d s => s.excludeSensors h d (jumps h d old sens s.excl)) s
    match thermDies.findSome? (fun d => (s.tripAt h d).map (fun r => (d, r))) with
    | some (d, r) => s.trip h d r
    | none =>
      let inj := s.armed (.therm h) 11
      let s := foldOver thermDies (fun d s =>
        match s.reading h d with
        | none => s
        | some r =>
          let x := s.watch1 (dieWatch h d)
          let rises := match x.hist with
            | _ :: b :: _ => decide (r - b > 32)
            | _ => false
          let inj0 := inj && d = 0
          let s := if rises then s.surge h d false else s
          let s := if inj0 then s.surge h d true else s
          s.setWatch (dieWatch h d) { x with hist := (r :: x.hist).take 4 }) s
      let s := if inj then s.disarm (.therm h) else s
      let s := foldOver olds (fun e s =>
        match s.reading h e.1 with
        | none => if s.heldHot h e.1 then s.judgeDie h e.1 else s
        | some r => (s.judgeDie h e.1).dieActs h e.1 e.2 r) s
      ((s.setVolts o).regions h).showTherm h

/-- SURGE_RELEASE: 1 ms without a surge, and each 1 ms after it. -/
def surgeRelease (h : Half) (d : Fin 36) (s : State) : State :=
  if !(s.answers (.therm h) && isCompute d.val && decide ((s.cd h d.val).surge < 1500)) then s
  else
    let x := s.cd h d.val
    if x.surge + 100 ≥ s.fmaxOf h then
      (s.setF (.therm h) (R.therm.DIE_STS_SURGE.ix d.val) 0).setCd h d.val { x with surge := 1500 }
    else s.setCd h d.val { x with surge := x.surge + 100 }

/-- THERMAL_CEILING_RISE: the duty returns first, then the clock. -/
def thermalCeilingRise (h : Half) (q : Fin 4) (s : State) : State :=
  let x := s.cd h q.val
  if !(s.answers (.therm h) && decide (s.getF (.therm h) (R.therm.DIE_STS_STATE.ix q.val) < 2)) then s
  else if x.thermD < 15 then s.setCd h q.val { x with thermD := x.thermD + 1 }
  else if x.therm < 1500 then s.setCd h q.val { x with therm := if x.therm + 50 ≥ s.fmaxOf h then 1500 else x.therm + 50 }
  else s

/-- DITHER_HOLD_EXPIRE: the hold ends, or renews while the count stays above 16. -/
def ditherHoldExpire (h : Half) (d : Fin 36) (renew : Bool) (s : State) : State :=
  if s.answers (.therm h) && !renew then s.setF (.therm h) (R.therm.DIE_STS_HOLD.ix d.val) 0 else s

/-! ## Remote inputs (R354) -/

def remKey (i : Fin 12) : Nat := 72 + i.val
/-- A field of a remote input: of the diode TDi, or of the thermistor TH(i − 8). -/
def remFld (td th : Fld) (i : Fin 12) : Fld := if i.val < 8 then td.ix i.val else th.ix (i.val - 8)

/-- REMOTE_SAMPLE. -/
def remoteSample (o : RemoteObs) (s : State) : State :=
  let i := o.input
  let f := fun (td th : Fld) => s.getF .gTherm (remFld td th i)
  if !s.answers .gTherm || f R.thermG.TD_CFG_EN R.thermG.TH_CFG_EN = 0 then s
  else if o.fault then
    let was := f R.thermG.TD_FAULT R.thermG.TH_FAULT
    let s := (s.setF .gTherm (remFld R.thermG.TD_FAULT R.thermG.TH_FAULT i) 1).setWatch (remKey i) watchInit
    if was = 1 then s else s.err .gTherm 14
  else
    let s := s.setFs .gTherm [(remFld R.thermG.TD_FAULT R.thermG.TH_FAULT i, 0),
      (remFld R.thermG.TD_TEMP R.thermG.TH_TEMP i, (BitVec.ofInt 16 o.temp).toNat)]
    let x := s.watch1 (remKey i)
    let th := fun (n : Nat) => (16 : Int) * ([0, f R.thermG.TD_CFG_WARN_C R.thermG.TH_CFG_WARN_C, f R.thermG.TD_CFG_CRIT_C R.thermG.TH_CFG_CRIT_C].getD n 0 : Nat)
    let hist := (o.temp :: x.hist).take 4
    let n := settleState th 2 48 hist x.prev
    let s := s.setWatch (remKey i) { x with hist := hist, prev := n }
    if n = 2 && x.prev ≠ 2 then
      if f R.thermG.TD_CFG_CRIT_STOP R.thermG.TH_CFG_CRIT_STOP = 1 then s.orderlyStop
      else
        let s := s.err .gTherm 15
        (s.drawn 1).mgmtEvt (s.freeAhead 0 % 256) none
    else s

end Sys2Proof.Machine
end

