-- ==== Sys2Proof/Machine/Keeper.lean ====
section
/-! DEFINITION. The keeper's start (12 R364 to R366, R389; 11 R361; 13 R400, R402, R406) and its loss (14 R420). -/

namespace Sys2Proof.Machine

/-! ## Journals and calibration records read at a start -/

/-- Torn records of a device are discarded (11 R361). -/
def tornOf (n : Nor) : Nat := (n.journal.filter (fun r => !r.whole)).length
def dropTorn (n : Nor) : Nor := { n with journal := n.journal.filter (·.whole) }

/-- The complete records of both devices. -/
def State.journalRecs (s : State) : List JRec :=
  let a := (if s.nv.prim.ok then s.nv.prim.journal else []).filter (·.whole)
  let b := (if s.nv.mirr.ok then s.nv.mirr.journal else []).filter (·.whole)
  a ++ b.filter (fun r => !a.any (fun x => x.seqno = r.seqno))

/-- Bodies of the complete records of a type. -/
def State.bodies (s : State) (type : Nat) : List (List Byte) := (s.journalRecs.filter (fun r => r.type.toNat = type)).map (·.body)
def byteAt (b : List Byte) (i : Nat) : Nat := (nth 0 b i).toNat

/-- A bodies' half is the one given. -/
def State.bodiesOf (s : State) (type : Nat) (h : Half) : List (List Byte) := (s.bodies type).filter (fun b => byteAt b 0 = halfNo h)

/-- GEN a is newer than b (12 R389). -/
def newerGen (a b : BitVec 32) : Bool := decide (1 ≤ (a - b).toNat) && decide ((a - b).toNat ≤ 2 ^ 31 - 1)

/-- Valid slots of a set on a device, as (slot, record). -/
def validSlots (n : Nor) (set : Nat) : List (Nat × CalSlot) :=
  if n.ok then n.slots.filter (fun e => e.1 / 2 = set && e.2.valid) else []

def newestOf (l : List (Nat × CalSlot)) : Option (Nat × CalSlot) :=
  l.foldl (fun m e => match m with
    | none => some e
    | some x => if newerGen e.2.gen x.2.gen then some e else m) none

/-- The newest valid record of a set, from the four slots. -/
def State.newest (s : State) (set : Nat) : Option (Nat × CalSlot) := newestOf (validSlots s.nv.prim set ++ validSlots s.nv.mirr set)

/-- A device without the newest record of a set gets it, in the slot it has on the other device. -/
def copySlot (n : Nor) (e : Nat × CalSlot) : Nor :=
  if n.ok && !n.slots.any (fun x => x.1 / 2 = e.1 / 2 && x.2 = e.2) then { n with slots := mput n.slots e.1 e.2 } else n

/-- Slots that a cut left torn are discarded, every set takes its newest record, the devices are made alike. -/
def State.readSlots (s : State) : State :=
  let torn := fun (n : Nor) => if n.ok then (n.slots.filter (fun e => !e.2.valid)).length else 0
  let t := torn s.nv.prim + torn s.nv.mirr
  let clean := fun (n : Nor) => { n with slots := n.slots.filter (fun e => e.2.valid) }
  let best := (List.range 8).filterMap (fun k => s.newest k)
  let nv := { s.nv with
    prim := best.foldl copySlot (clean s.nv.prim)
    mirr := best.foldl copySlot (clean s.nv.mirr) }
  let s := { s with nv := nv }
  let s := s.setFs .gCal [(R.cal.REC_STS_TORN, min t 255), (R.cal.REC_STS_VALID, bitsOf (best.map (fun e => e.1 / 2)))]
  if t > 0 then s.err .gCal 10 else s

/-- Both journals are read: torn records are discarded and counted, the next number follows the last. -/
def State.readJournals (s : State) : State :=
  let t := (if s.nv.prim.ok then tornOf s.nv.prim else 0) + (if s.nv.mirr.ok then tornOf s.nv.mirr else 0)
  let s := { s with nv := { s.nv with
    prim := dropTorn s.nv.prim
    mirr := dropTorn s.nv.mirr
    seqno := s.journalRecs.foldl (fun m (r : JRec) => max m (r.seqno.toNat + 1)) 0 } }
  let s := s.setF .gPwr R.pwrG.NV_STS_TORN (min t 255)
  if t > 0 then s.err .gPwr 13 else s

/-! ## The start -/

/-- The debug state code (13 R406). -/
def debugCode (mask : Option Nat) : Nat :=
  if Config.debugKill then 0xFF
  else match mask with
    | some m => 1 + m
    | none => 0

/-- Fuse values as the pages show them, and the debug state of this start: every start consumes a stored token. -/
def State.fuses (s : State) : State :=
  let mask := if Config.debugKill then none else s.sec.token
  let s := { s with sec := { s.sec with token := none, mask := mask } }
  let s := s.setFs .sec [(R.sec.SEC_STS_DEBUG, debugCode mask), (R.sec.SEC_STS_REVOKED, s.sec.revoke),
    (R.sec.SEC_STS_LIFECYCLE, Config.lifecycle.toNat), (R.sec.SEC_CTL_INJ_DIS, if Config.injLock then 1 else 0)]
  foldOver (List.range 4) (fun i s => s.setF .sec (R.sec.SVN_VALUE.ix i) (s.svn i)) s

def fuseBytes (s : State) : List Byte :=
  bytesOf 4 Config.romVersion.toNat ++ bytesOf 1 Config.lifecycle.toNat ++ bytesOf 1 s.sec.revoke ++
    (List.range 4).flatMap (fun i => bytesOf 1 (s.svn i)) ++ bytesOf 1 (if Config.debugKill then 1 else 0) ++
    bytesOf 1 (if Config.injLock then 1 else 0)

def keeperPages : List Page := [.keeper, .ck, .sec, .gTherm, .gPwr, .gClk, .gCal] ++ (allFin 48).map .mbx

/-- The identity certificate and the PUF (13 R402, R403). -/
def State.identity (s : State) : State :=
  let pufOk := s.sec.puf
  let certOk := Config.shake256 s.nv.prim.cert = Config.idCertHash || Config.shake256 s.nv.mirr.cert = Config.idCertHash
  let s := { s with sec := { s.sec with cert := certOk } }
  let s := if pufOk then s else s.err .sec 12
  if certOk then s else s.err .sec 13

/-- The keeper's firmware runs: it reads the devices and is ready. -/
def State.keeperReady (s : State) (x : Image) : State :=
  let s := (s.setInForce .keeper x).extend 2 0 x.version.toNat x.digest
  let s := s.extend 7 2 0 (Config.shake256 (bytesOf 4 (debugCode s.sec.mask)))
  let s := (s.identity.mendImages.readJournals).readSlots
  let s := match s.newest 7 with
    | some e => s.setFs .keeper [(R.keeper.CFG_NEXT_SET, natOf (e.2.body.take 2)), (R.keeper.CFG_NEXT_STORED, 1)]
    | none => s
  let s := foldOver keeperPages (fun p s => s.setF p R.hdr.BLK_STS_READY 1) s
  let s := s.setFs .gClk [(R.clkG.KFAST_STATE, 2), (R.clkG.KFAST_LOCK, 1), (R.clkG.KFAST_MHZ, 400)]
  s.setF .keeper R.keeper.BOOT_STS_PHASE 1

/-- Start from ROM: fuses, M1 once, the keeper image. With no valid copy the keeper stays in its ROM and FAULT_N asserts. -/
def State.romStart (s : State) : State :=
  let s := s.fuses
  let s := if mhas s.sec.meas 1 then s else s.extend 1 2 0 (Config.shake256 (fuseBytes s))
  match s.loadImage .keeper with
  | (s, some x) => ({ s with sec := { s.sec with rom := false } }).keeperReady x
  | (s, none) => { s with sec := { s.sec with rom := true }, pins := { s.pins with fault := true } }

/-- V_AON_RISE: D-KEEPER. -/
def vAonRise (k : KeeperStart) (s : State) : State :=
  if s.pins.vAon then s
  else
    let s := { s with pins := { s.pins with vAon := true }, nv := match k.nor with
      | some n => { s.nv with prim := n.1, mirr := n.2 }
      | none => s.nv }
    let s := (s.setDie 0 .up).setDstate 1
    let s := s.setF .keeper R.keeper.STRAPS_PRI_SEL_NOW (if s.pins.priSel then 1 else 0)
    { s with sec := { s.sec with puf := k.pufOk } }.romStart

/-! ## Loss of the keeper die (14 R420) -/

/-- KEEPER_LOSS: the pair starts the orderly stop; journal records not yet written are lost. -/
def keeperLoss (s : State) : State :=
  if s.die 0 ≠ .up then s
  else
    let parts := (List.range 8).filter (fun p => s.getF (.seq s.leader) (R.seq.PART_CTL_STATE.ix p) ≠ 0)
    let s := s.fwRecord .keeper true { cost := 5, parts := bitsOf parts }
    let s := ((s.setChan .ck 5).votersLeft).orderlyStop
    let s := s.setDie 0 .lost
    { s with nv := { s.nv with queue := [] } }

end Sys2Proof.Machine
end

