-- ==== Sys2Proof/Machine/Calib.lean ====
section
/-! DEFINITION. Calibrations as commands, record stores and the NV journal (12 R376, R383 to R389; 11 R360). -/

namespace Sys2Proof.Machine

/-! ## Scheduled calibrations -/

/-- Firmware runs a calibration; it stops in safe halt (R390). -/
def calFirmware (id : Nat) : Bool := [0x02, 0x03, 0x04, 0x11, 0x12, 0x13, 0x16].contains id

/-- The instance is in a state that its calibration needs (R387). -/
def State.calReady (s : State) (p : Page) (id inst : Nat) : Bool :=
  match p with
  | .cal h =>
    match id with
    | 0x10 | 0x11 => s.halfUp h
    | 0x12 => s.bundleUp (Fin.ofNat 16 inst)
    | 0x13 => s.dlState (.ucie h (Fin.ofNat 32 inst)) = ucACTIVE
    | 0x14 => s.getF (hbmPage h (inst / 32)) R.hbmc.BLK_STS_STATE = 3
    | 0x15 => s.getF (ddrPage h inst) R.ddrc.BLK_STS_STATE = 2
    | 0x16 =>
      let q : PortId := { half := h, i := Fin.ofNat 64 inst }
      s.linkUp (s.lead q) && s.ostate q ≠ 4
    | _ => false
  | _ => true

/-- IDs that a page holds, and instances of each. -/
def calHeld (p : Page) (id inst : Nat) : Bool :=
  match p with
  | .gCal => (id = 0x01 || id = 0x02 || id = 0x04) && inst = 0 || id = 0x03 && decide (inst < 12)
  | .cal _ =>
    (id = 0x10 || id = 0x11) && inst = 0 || id = 0x12 && decide (inst < 16) || id = 0x13 && decide (inst < 32) ||
      id = 0x14 && decide (inst < 384) || id = 0x15 && decide (inst < 8) || id = 0x16 && decide (inst < 64) || id = 0x17 && decide (inst < 8)
  | _ => false

/-- What a run changes beside its CAL registers: the oscillator's and REFCLK's error, a port's modulator rings; a channel in use that no candidate
serves any more follows R197 of 06. `cand` are the rings that miss −0.5 dBm. -/
def State.calApply (s : State) (p : Page) (id inst : Nat) (o : CalObs) (pass : Bool) (cand : Nat) : State :=
  let tenths := (BitVec.ofInt 16 (Int.fdiv o.quality 10)).toNat
  match p, id with
  | .gCal, 0x01 =>
    let s := s.setFs .gClk [(R.clkG.AON_CALREF, if o.refOk then 1 else 0), (R.clkG.AON_TRACED, if pass then 1 else 0)]
    if pass then s.setF .gClk R.clkG.AON_ERR tenths
    else if o.refOk && !o.timeout && !calMeets 1 o.quality then s.err .gClk 10 else s
  | .cal h, 0x10 => if pass then s.setF (.clk h) R.clk.REFCLK_PPM tenths else s
  | .cal h, 0x16 =>
    if pass then
      let q : PortId := { half := h, i := Fin.ofNat 64 inst }
      let s := s.modCal q (bitList 36 cand)
      let tx := s.getF q.page R.oport.PORT_STS_CH_TX
      if (s.port q).lostTx.any (bit tx) then s.linkDown q 6 else s
    else s
  | _, _ => s

/-- One run. -/
def State.calRun (s : State) (p : Page) (id inst : Nat) (o : CalObs) (cand : Nat) : State :=
  let (s, pass) := s.calEnd p id inst o
  s.calApply p id inst o pass cand

/-- A periodic run starts: not while HOLD is 1, but for 0x14 and 0x15; not of firmware in safe halt; not on an instance in another state. -/
def State.calPeriodic (s : State) (p : Page) (id inst : Nat) (o : CalObs) (cand : Nat := 0) : State :=
  let held := s.isSet p R.cal.CAL_CTL_HOLD && id ≠ 0x14 && id ≠ 0x15
  if !s.answers p || held || (calFirmware id && s.halted) || !s.calReady p id inst then s else s.calRun p id inst o cand

def oscCal (o : CalObs) (s : State) : State := s.calPeriodic .gCal 0x01 0 o
def vrefCal (o : CalObs) (s : State) : State := s.calPeriodic .gCal 0x02 0 o
def remoteInputCal (i : Fin 12) (o : CalObs) (s : State) : State := s.calPeriodic .gCal 0x03 i.val o
def vinSenseCal (o : CalObs) (s : State) : State := s.calPeriodic .gCal 0x04 0 o
def refclkCal (h : Half) (o : CalObs) (s : State) : State := s.calPeriodic (.cal h) 0x10 0 o
def railSenseCal (h : Half) (o : CalObs) (s : State) : State := s.calPeriodic (.cal h) 0x11 0 o
def hingeRxCal (h : Half) (b : Fin 16) (o : CalObs) (s : State) : State := s.calPeriodic (.cal h) 0x12 b.val o
def ucieRxCal (h : Half) (k : Fin 32) (o : CalObs) (s : State) : State := s.calPeriodic (.cal h) 0x13 k.val o
def ddrZqTracking (h : Half) (c : Fin 8) (o : CalObs) (s : State) : State := s.calPeriodic (.cal h) 0x15 c.val o

/-- HBM_TIMING_UPDATE: a periodic run of calibration 0x14 on a channel of a stack that is FULL. -/
def hbmTimingUpdate (h : Half) (i : Fin 12) (ch : Fin 32) (o : CalObs) (s : State) : State :=
  s.calPeriodic (.cal h) 0x14 (32 * i.val + ch.val) o

/-- PORT_RECAL: each channel's better candidate takes over (06 R186); `bad` are the modulator rings that miss −0.5 dBm. -/
def portRecal (p : PortId) (o : CalObs) (bad : BitVec 36) (s : State) : State :=
  s.calPeriodic (.cal p.half) 0x16 p.i.val o bad.toNat

/-- CAL_STEP_TIMEOUT of a running calibration: it ends FAIL_TMO with its previous values. -/
def calStepTimeout (p : Page) (id : BitVec 8) (inst : BitVec 9) (s : State) : State :=
  let k := id.toNat
  let n := inst.toNat
  if s.answers p && calHeld p k n then s.calFails p k n (s.calRec p k n) 3 false else s

/-- RUN_NOW: the selected calibration, or STATE_ERR (R387). The rings that miss their power in a port's run are a free value. -/
def runNow (_m : Master) (p : Page) (o : CalObs) (s : State) : State :=
  if !s.answers p || !(match p with | .gCal => true | .cal _ => true | _ => false) then s
  else
    let id := s.getF p R.cal.CAL_SEL_ID
    let inst := s.getF p R.cal.CAL_SEL_INST
    if s.isSet p R.cal.CAL_CTL_HOLD || id = 0x17 || !calHeld p id inst || !s.calReady p id inst || (s.halted && calFirmware id) then s.stateErr p
    else (s.drawn 1).calRun p id inst o (s.freeAhead 0 % 2 ^ 36)

/-! ## Record sets (R388, R389) -/

/-- The slot of a device that a store writes: the one that does not hold its newest valid record. -/
def storeSlot (n : Nor) (set : Nat) : Nat :=
  match newestOf (validSlots n set) with
  | some e => if e.1 % 2 = 0 then 2 * set + 1 else 2 * set
  | none => 2 * set

def putSlot (n : Nor) (set : Nat) (c : CalSlot) : Nor := if n.ok then { n with slots := mput n.slots (storeSlot n set) c } else n

/-- Store a record on both devices. A first try that fails sets REC_WRITE_FAIL and is retried once; after a second one the record before stays in
force, and the slot begun holds no valid record. -/
def State.storeRec (s : State) (set : Nat) (body : List Byte) (o : StoreObs) : State × Bool :=
  let gen : BitVec 32 := match s.newest set with
    | some e => e.2.gen + 1
    | none => 1
  let s := if o.firstTry then s.err .gCal 11 else s
  let fails := o.firstTry && o.secondTry
  let s := if fails then s.err .gCal 11 else s
  let c : CalSlot := { gen := gen, body := body, valid := !fails }
  if fails then ({ s with nv := { s.nv with prim := putSlot s.nv.prim set c } }, false)
  else
    let s := { s with nv := { s.nv with prim := putSlot s.nv.prim set c, mirr := putSlot s.nv.mirr set c } }
    (s.orF .gCal R.cal.REC_STS_VALID (2 ^ set), true)

/-- The keeper's firmware runs. -/
def State.keeperRuns (s : State) : Bool := s.die 0 = .up && !s.sec.rom

/-- RECORD_STORE: set 0 is written at manufacture only, set 7 by CFG_NEXT; a body holds 1 to 65,216 bytes. -/
def recordStore (set : Fin 8) (body : List Byte) (o : StoreObs) (s : State) : State :=
  if s.keeperRuns && decide (1 ≤ set.val) && decide (set.val ≤ 6) && !body.isEmpty && decide (body.length ≤ 65216) then
    (s.storeRec set.val body o).1
  else s

/-- CFG_NEXT: the set is stored as record set 7, and STORED follows. -/
def cfgNext (_m : Master) (value : Word) (o : StoreObs) (s : State) : State :=
  if !(s.answers .keeper && s.keeperRuns) then s
  else
    let w := value.toNat % 65536
    let s := s.setFs .keeper [(R.keeper.CFG_NEXT_SET, w), (R.keeper.CFG_NEXT_STORED, 0)]
    let (s, ok) := s.storeRec 7 (bytesOf 2 w) o
    if ok then s.setF .keeper R.keeper.CFG_NEXT_STORED 1 else s

/-! ## The journal (11 R360) -/

/-- A record on a device; a program that a cut ends leaves it torn. -/
def addRec (n : Nor) (r : JRec) (whole : Bool) : Nor := if n.ok then { n with journal := n.journal ++ [{ r with whole := whole }] } else n

/-- JOURNAL_WRITE of the oldest queued record: primary first, then mirror. -/
def journalWrite (primary mirror : Bool) (s : State) : State :=
  if !s.keeperRuns then s
  else match s.nv.queue with
    | [] => s
    | e :: t =>
      let r : JRec := { type := BitVec.ofNat 8 e.1, seqno := BitVec.ofNat 64 s.nv.seqno, body := e.2, whole := true }
      let nv := { s.nv with prim := addRec s.nv.prim r primary, mirr := addRec s.nv.mirr r mirror, queue := t, seqno := s.nv.seqno + 1 }
      { s with nv := nv }.setF .gPwr R.pwrG.NV_STS_QUEUED (min t.length 255)

/-- Error records beyond the newest 4,096 are dropped (14 R427). -/
def keepNewest (l : List JRec) : List JRec :=
  let n := (l.filter (fun r => r.type = 6)).length - 4096
  (l.foldl (fun (x : Nat × List JRec) r => if r.type = 6 && decide (x.1 > 0) then (x.1 - 1, x.2) else (x.1, x.2 ++ [r])) (n, [])).2

/-- JOURNAL_REWRITE: the live records move to fresh sectors; torn ones do not. -/
def journalRewrite (s : State) : State :=
  let live := fun (n : Nor) => { dropTorn n with journal := keepNewest (dropTorn n).journal }
  if s.keeperRuns then { s with nv := { s.nv with prim := live s.nv.prim, mirr := live s.nv.mirr } } else s

end Sys2Proof.Machine
end

