-- ==== Sys2Proof/Machine/Configure.lean ====
section
/-! DEFINITION. The boot configuration (12 R373 to R375): factory default, checks, choice, and the registers it sets. -/

namespace Sys2Proof.Machine

/-! ## Items (Table 12.3) -/

/-- Units of 2 MiB of a half's HBM, as a window. -/
def hbmUnits (h : Half) : Nat × Nat := (hbmBase h / 2 ^ 21, (hbmBase h + hbmSize) / 2 ^ 21 - 1)

/-- Partition 0 holds the device. -/
def wholeDevice : PartCfg :=
  { id := 0, cellsA := (0, 256), cellsB := (0, 256), queuesA := (0, 512), queuesB := (0, 512), sems := (0, 256),
    windows := [hbmUnits .A, hbmUnits .B], tag := none, ports := BitVec.allOnes 128, swarms := (0, 256) }

/-- The factory default. -/
def factory : CfgItems :=
  { fid := some none, subsys := some 0x00001F6B, parts := some [wholeDevice],
    roles := some (defaultRoles.map (BitVec.ofNat 2)), scratch := some (0, 0), far := some 0, pinned := some 0, cap := some 5200,
    ilv := some (List.replicate 72 1, List.replicate 72 1), bonds := some [], bypass := some [], spill := some (List.replicate 128 16),
    ddrIlv := some (true, true), dimms := some [] }

/-- A base holds every item. -/
def cfgWhole (c : CfgItems) : Bool :=
  c.fid.isSome && c.subsys.isSome && c.parts.isSome && c.roles.isSome && c.scratch.isSome && c.far.isSome && c.pinned.isSome && c.cap.isSome &&
    c.ilv.isSome && c.bonds.isSome && c.bypass.isSome && c.spill.isSome && c.ddrIlv.isSome && c.dimms.isSome

/-- An overlay sets no base item. -/
def cfgOverlayOnly (c : CfgItems) : Bool :=
  !(c.fid.isSome || c.subsys.isSome || c.bonds.isSome || c.bypass.isSome || c.spill.isSome || c.ddrIlv.isSome || c.dimms.isSome)

/-- An overlay's items replace those before it wholly (R373). -/
def cfgOver (o c : CfgItems) : CfgItems :=
  { c with
    parts := o.parts <|> c.parts
    roles := o.roles <|> c.roles
    scratch := o.scratch <|> c.scratch
    far := o.far <|> c.far
    pinned := o.pinned <|> c.pinned
    cap := o.cap <|> c.cap
    ilv := o.ilv <|> c.ilv }

/-! ## Rules (R375) -/

def disjoint (a b : Nat × Nat) : Bool := a.2 = 0 || b.2 = 0 || decide (a.1 + a.2 ≤ b.1) || decide (b.1 + b.2 ≤ a.1)
def pairwise {α : Type} (f : α → α → Bool) : List α → Bool
  | [] => true
  | x :: t => t.all (f x) && pairwise f t

/-- No resource lies in two partitions, of which there are at most 8 (R106). -/
def apartOk (ps : List PartCfg) : Bool :=
  decide (ps.length ≤ 8) && pairwise (fun a b => a.id ≠ b.id && disjoint a.cellsA b.cellsA && disjoint a.cellsB b.cellsB &&
    disjoint a.queuesA b.queuesA && disjoint a.queuesB b.queuesB && disjoint a.sems b.sems && disjoint a.swarms b.swarms &&
    (a.tag.isNone || a.tag ≠ b.tag)) ps

/-- A window lies in HBM, mapped scratch or a tier window. -/
def windowOk (scratch : Nat × Nat) (w : Nat × Nat) : Bool :=
  let inside := fun (base size : Nat) => decide (base ≤ w.1 * 2 ^ 21) && decide ((w.2 + 1) * 2 ^ 21 ≤ base + size)
  decide (w.1 ≤ w.2) && (inside (hbmBase .A) hbmSize || inside (hbmBase .B) hbmSize || inside (scratchBase .A) (scratch.1 * 2 ^ 23) ||
    inside (scratchBase .B) (scratch.2 * 2 ^ 23) || inside (tierBase .A) tierWin || inside (tierBase .B) tierWin)

def windowsOk (scratch : Nat × Nat) (ps : List PartCfg) : Bool :=
  let ws := ps.flatMap (fun p => p.windows.map (fun w => (p.id, w)))
  ws.all (fun e => windowOk scratch e.2) &&
    pairwise (fun (a b : Fin 8 × (Nat × Nat)) => a.1 = b.1 || decide (a.2.2 < b.2.1) || decide (b.2.2 < a.2.1)) ws

/-- Hinge roles: CTL on 1 to 4 bundles, FAB on at most 8, MEM on at least 4 (05 R154). -/
def rolesOk (l : List (BitVec 2)) : Bool :=
  let n := fun (r : BitVec 2) => (l.filter (· = r)).length
  l.length = 16 && decide (1 ≤ n 1) && decide (n 1 ≤ 4) && decide (n 2 ≤ 8) && decide (4 ≤ n 0)

/-- Far ports of a half. -/
def farPorts (far : BitVec 128) (h : Half) : Nat := popCount 64 (far.toNat / 2 ^ (64 * halfNo h))

def isRun (b : List Nat) : Bool :=
  match b with
  | [x, y] => x % 2 = 0 && y = x + 1
  | [x, y, z, w] => x % 4 = 0 && y = x + 1 && z = x + 2 && w = x + 3
  | _ => false

def rangesOk (c : CfgItems) : Bool :=
  let parts := c.parts.getD []
  let within := fun (r : Nat × Nat) (n : Nat) => decide (r.1 + r.2 ≤ n)
  let scratch := c.scratch.getD (0, 0)
  let cap := c.cap.getD 5200
  let spill := c.spill.getD []
  let ilv := c.ilv.getD ([], [])
  let bypass := c.bypass.getD []
  decide (1 ≤ parts.length) && parts.all (fun p => within p.cellsA 256 && within p.cellsB 256 && within p.queuesA 512 && within p.queuesB 512 &&
    within p.sems 256 && within p.swarms 256 && decide (p.windows.length ≤ 4)) &&
    decide (scratch.1 ≤ 32) && decide (scratch.2 ≤ 32) && decide (1500 ≤ cap) && decide (cap ≤ 5200) &&
    spill.length = 128 && spill.all (fun n => n = 4 || n = 8 || n = 16) && ilv.1.length = 72 && ilv.2.length = 72 &&
    (ilv.1 ++ ilv.2).all (fun m => m ≠ 3) &&
    decide (bypass.length ≤ 4) && bypass.all (fun e => decide (e.1 < 64) && decide (64 ≤ e.2) && decide (e.2 < 128)) &&
    (c.bonds.getD []).all (fun b => b.all (fun n => decide (n < 128)))

/-- The first rule that a configuration breaks, as a REASON code; 0 where it breaks none. -/
def cfgReason (c : CfgItems) : Nat :=
  let parts := c.parts.getD []
  let scratch := c.scratch.getD (0, 0)
  let far := c.far.getD 0
  let bypass := (c.bypass.getD []).flatMap (fun e => [e.1, e.2])
  if !apartOk parts then 0x10
  else if !windowsOk scratch parts then 0x11
  else if !pairwise (fun (a b : PartCfg) => a.ports &&& b.ports = 0) parts then 0x15
  else if !rolesOk (c.roles.getD []) then 0x12
  else if !(decide (scratch.1 + farPorts far .A ≤ 32) && decide (scratch.2 + farPorts far .B ≤ 32)) then 0x13
  else if farPorts far .A + farPorts far .B > 16 then 0x14
  else if !((c.bonds.getD []).all isRun && pairwise (fun (a b : List Nat) => a.all (fun n => !b.contains n)) (c.bonds.getD [])) then 0x16
  else if parts.any (fun p => bypass.any (fun n => bit p.ports.toNat n)) then 0x17
  else if !rangesOk c then 0x18
  else 0

/-! ## The choice (R375) -/

/-- What the check of the configuration gives. -/
structure Chosen where
  items   : CfgItems
  source  : Nat
  applied : List Nat
  ovl     : Nat
  reason  : Nat
  base    : Option Image
  ovls    : List Image
deriving DecidableEq, Repr

/-- REASON of a base that no device holds valid. -/
def baseReason (cause : Nat) : Nat := if cause = 5 then 2 else if cause = 1 then 3 else 1

/-- Check the overlays of the active set in ascending index: skipped ones, and those that pass. -/
def State.overlays (s : State) (base : Image) (set : Nat) : State × List Nat × List (Nat × Image) :=
  (allFin 16).foldl (fun (x : State × List Nat × List (Nat × Image)) i =>
    if !bit set i.val then x
    else
      match x.1.loadImage (.overlay i) with
      | (s, some o) =>
        if o.baseVersion = base.version && cfgOverlayOnly o.items then (s, x.2.1, x.2.2 ++ [(i.val, o)]) else (s, x.2.1 ++ [i.val], x.2.2)
      | (s, none) => (s, x.2.1 ++ [i.val], x.2.2)) (s, [], [])

/-- The configuration to boot. -/
def State.chooseCfg (s : State) : State × Chosen :=
  let none_ := fun (why : Nat) => ({ items := factory, source := 2, applied := [], ovl := 0, reason := why, base := none, ovls := [] } : Chosen)
  match s.loadImage .base with
  | (s, none) => (s, none_ (baseReason (s.getF .sec R.sec.IMG_STS_BASE)))
  | (s, some b) =>
    if !cfgWhole b.items then (s, none_ 3)
    else
      let (s, skipped, good) := s.overlays b (s.getF .keeper R.keeper.CFG_NEXT_SET)
      let all := good.foldl (fun c e => cfgOver e.2.items c) b.items
      let why := cfgReason all
      let ovl := skipped.getLastD 0
      let first := if skipped.isEmpty then why else 4
      if why = 0 then
        (s, { items := all, source := 0, applied := good.map (·.1), ovl := ovl, reason := first, base := some b, ovls := good.map (·.2) })
      else if cfgReason b.items = 0 then
        (s, { items := b.items, source := 1, applied := [], ovl := ovl, reason := first, base := some b, ovls := [] })
      else (s, { none_ first with ovl := ovl })

/-- Show and measure the choice: M5 the base, M6 each overlay applied (13 R400). -/
def State.takeCfg (s : State) : State :=
  let (s, c) := s.chooseCfg
  let s := s.setFs .keeper [(R.keeper.CFG_STS_SOURCE, c.source), (R.keeper.CFG_STS_APPLIED, bitsOf c.applied), (R.keeper.CFG_STS_OVL, c.ovl),
    (R.keeper.CFG_STS_REASON, c.reason), (R.keeper.CFG_BASE_VERSION, (c.base.map (·.version.toNat)).getD 0)]
  let s := match c.base with
    | some b => (s.setInForce .base b).extend 5 1 b.version.toNat b.digest
    | none => s
  let s := foldOver (c.applied.zip c.ovls) (fun e s => (s.setInForce (.overlay (Fin.ofNat 16 e.1)) e.2).extend 6 1 e.2.version.toNat e.2.digest) s
  { s with cfg := c.items, bonds := c.items.bonds.getD [] }

/-! ## Registers of a half (RO, config) -/

/-- Partition registers of a half. -/
def State.cfgParts (s : State) (h : Half) : State :=
  foldOver (s.cfg.parts.getD []) (fun p s =>
    let i := p.id.val
    let cells := match h with
      | .A => p.cellsA
      | .B => p.cellsB
    let qs := match h with
      | .A => p.queuesA
      | .B => p.queuesB
    let s := s.setFs (.seq h) [(R.seq.PART_CELLS_CELL_FIRST.ix i, cells.1), (R.seq.PART_CELLS_CELL_CNT.ix i, cells.2),
      (R.seq.PART_QUEUES_Q_FIRST.ix i, qs.1), (R.seq.PART_QUEUES_Q_CNT.ix i, qs.2), (R.seq.PART_SEMS_SEM_FIRST.ix i, p.sems.1),
      (R.seq.PART_SEMS_SEM_CNT.ix i, p.sems.2), (R.seq.PART_CTL_STATE.ix i, 1)]
    let s := s.setFs (.comb h) [(R.comb.PF_TAG_VALID.ix i, if p.tag.isSome then 1 else 0), (R.comb.PF_TAG_TAG.ix i, (p.tag.getD 0).toNat),
      (R.comb.PF_SWARM_FIRST.ix i, p.swarms.1), (R.comb.PF_SWARM_CNT.ix i, p.swarms.2)]
    let s : State := foldOver (List.range 4) (fun k (s : State) => s.setF (.comb h) (R.comb.PF_PORTS_PORTS.ix2 i k) (p.ports.toNat / 2 ^ (32 * k))) s
    foldOver ((List.range 4).zip p.windows) (fun (e : Nat × (Nat × Nat)) (s : State) =>
      let tier := (decide (tierBase .A ≤ e.2.1 * 2 ^ 21) : Bool)
      s.setFs (.comb h) [(R.comb.WIN_BASE_VALID.ix2 i e.1, if tier then 0 else 1), (R.comb.WIN_BASE_BASE.ix2 i e.1, e.2.1),
        (R.comb.WIN_LIMIT_LIMIT.ix2 i e.1, e.2.2)]) s) s

/-- The configuration's registers of a half's ports. -/
def State.cfgPorts (s : State) (h : Half) : State := foldOver (allFin 64) (fun k s => s.cfgPort ⟨h, k⟩) s

/-- Every register that the configuration sets on a half. -/
def State.cfgHalf (s : State) (h : Half) : State :=
  let c := s.cfg
  let far := farPorts (c.far.getD 0) h
  let seg := match h with
    | .A => (c.scratch.getD (0, 0)).1
    | .B => (c.scratch.getD (0, 0)).2
  let rows := match h with
    | .A => (c.ilv.getD ([], [])).1
    | .B => (c.ilv.getD ([], [])).2
  let s := s.setFs (.comb h) [(R.comb.CC_CFG_FAR_SEGS, far), (R.comb.CC_CFG_SCRATCH_SEGS, seg), (R.comb.CC_CFG_CACHE_SEGS, 32 - far - seg),
    (R.comb.BLK_STS_MODE, if seg = 0 then 1 else if seg < 32 - far then 2 else 3)]
  let s := match c.fid with
    | some (some f) => s.setFs (.comb h) [(R.comb.FAB_ID_VALID, 1), (R.comb.FAB_ID_FID, f.toNat)]
    | _ => s
  let s := foldOver ((List.range 72).zip rows) (fun (e : Nat × BitVec 2) (s : State) => s.setF (.comb h) (ilvFld e.1) e.2.toNat) s
  ((s.cfgParts h).cfgPorts h)

end Sys2Proof.Machine
end

