-- ==== Sys2Proof/Machine/Boot.lean ====
section
/-! DEFINITION. Bring-up (12 R367 to R371, Table 12.2): a half's start, the device's start, the end of reduced service. -/

namespace Sys2Proof.Machine

/-! ## Images of the comb dies (R365, 13 R400) -/

/-- The control-channel and sequencer images are loaded and measured; false where one fails on both devices. -/
def State.loadFirmware (s : State) : State × Bool :=
  let (s, c) := s.loadImage .control
  let (s, q) := s.loadImage .sequencer
  match c, q with
  | some c, some q =>
    let s := (s.setInForce .control c).extend 3 0 c.version.toNat c.digest
    ((s.setInForce .sequencer q).extend 4 0 q.version.toNat q.digest, true)
  | _, _ => (s, false)

/-- A returning half's images: each must equal the one measured; the check is a REPEAT entry of the log. -/
def State.repeatImage (s : State) (r : Region) (m : Nat) : State × Bool :=
  let (s, c) := s.loadImage r
  match c, s.inForce r with
  | some c, some old =>
    if c.digest = old.digest then (s.logEntry m 4 c.version.toNat c.digest, true) else (s.showCause r 6, false)
  | _, _ => (s, false)

/-! ## Step 9: cells (02 R75) -/

/-- Cells of die q are tested; the 64 lowest that pass and are not retired take the logical IDs, the rest are spares. -/
def State.assignIds (s : State) (h : Half) (q : Nat) (bist : List Nat) : State :=
  let cs := (List.range 72).map (72 * q + ·)
  let listed := (s.bodiesOf 1 h).map (fun b => natOf ((b.drop 1).take 2))
  let s := foldOver cs (fun c s =>
    let x := s.cell h c
    if listed.contains c || s.cst h c = 5 then (s.setFs (cellPage h c) [(R.cell.CELL_ID_MAPPED, 0)]).cellState h c 5
    else if bist.contains c || x.retire || x.swap then s.retireCell h c
    else (s.setFs (cellPage h c) [(R.cell.CELL_ID_MAPPED, 0), (R.cell.CELL_ID_LOGICAL_ID, 0)]).cellState h c 0) s
  let good := cs.filter (fun c => s.cst h c ≠ 5)
  foldOver ((List.range 64).zip good) (fun e s =>
    let s := s.setFs (cellPage h e.2) [(R.cell.CELL_ID_MAPPED, 1), (R.cell.CELL_ID_LOGICAL_ID, 64 * q + e.1)]
    s.cellState h e.2 (if (s.cell h e.2).ended.isSome then 4 else 2)) s

/-! ## Memory (04 R122, R131) -/

/-- Stacks go LOW, or fail; recorded retirements apply; the first stack of each quadrant trains. -/
def State.startHbm (s : State) (h : Half) (bad : List (Fin 12)) : State :=
  let recs := s.bodiesOf 3 h
  let s := foldOver (allFin 12) (fun i s =>
    let p : Page := .hbmc h i
    let mine := (recs.filter (fun b => byteAt b 1 = i.val)).map (fun b => byteAt b 2)
    let s := s.setFs p [(R.hbmc.BLK_STS_STATE, 1), (R.hbmc.HBM_CFG_RATE, 64)]
    if mine.contains 0xFF then
      let s := foldOver (List.range 72) (fun j s => s.markRetired h i.val j) s
      (s.setFs p [(R.hbmc.BLK_STS_STATE, 5), (R.hbmc.HBM_CFG_RATE, 0)]).fence p
    else
      let s := foldOver (mine.filter (· < 72)) (fun j s => s.markRetired h i.val j) s
      if bad.contains i then s.failStack h i.val else s) s
  (foldOver (List.range 4) (fun q s => s.nextTrain h q) s).releaseHeld

/-- DDR5 channels train where they hold a description; a retired one is FAILED. -/
def State.startDdr (s : State) (h : Half) : State :=
  let gone := (s.bodiesOf 4 h).map (fun b => byteAt b 1)
  foldOver (List.range 8) (fun c s => if gone.contains c then s.setF (ddrPage h c) R.ddrc.BLK_STS_STATE 3 else s.ddrStart h c) s

/-! ## Attach and optics (05 R162, R163; 06 R177, R186, R188) -/

/-- Failed receive lanes of a link at its start: recorded ones, and those its start test finds; spares take their places (R158). -/
def State.startLanes (s : State) (l : DieLink) (bad : List Nat) : State :=
  let old := ((s.bodies 5).filter (fun b => byteAt b 0 = dlKey l)).map (fun b => byteAt b 1)
  (foldOver (old ++ bad) (fun n s => s.noteLane l n) s).relane l

/-- A recorded retirement: the laser, and the spare that each port carries its channel on (06 R195). A record of a spare moves its ports' channels
to the other spare. -/
def State.recordUse (s : State) (h : Half) (o : Fin 8) (b : List Byte) : State :=
  let n := byteAt b 1
  let v := natOf ((b.drop 2).take 2)
  let s := s.setF (.laser h o) (R.laser.LSR_STATE.ix n) 4
  foldOver ((oePorts h o).filter (fun p => v / 4 ^ (p.i.val % 8) % 4 ≠ 0)) (fun p s =>
    s.addUse p n (15 + v / 4 ^ (p.i.val % 8) % 4)) s

/-- One OE: its modules, lasers, rings. -/
def State.startOe (s : State) (h : Half) (o : Fin 8) (x : HalfObs) : State :=
  let s := foldOver (oeModules o) (fun k s =>
    s.startLanes (.ucie h k) ((x.badModLanes.filter (fun e => e.1 = k.val)).map (·.2))) s
  let s := { s with parts := (oeModules o).foldl (fun (m : List (Nat × OePart)) (k : Fin 32) =>
    mput m (32 * halfNo h + k.val) (mget defaultPart x.oeParts k.val)) s.parts }
  let s := foldOver ((s.bodies 2).filter (fun b => byteAt b 0 = oeKey h o.val)) (fun b s => s.recordUse h o b) s
  let s := s.setUses h o ((s.oe h o.val).uses.map (fun u => { u with kept := true }))
  let s := foldOver ((x.laserBad.filter (fun e => e.1 = o.val && decide (e.2 < 16))).map (·.2)) (fun n s => s.retireLaser h o n) s
  let cross := (x.xtalk.filter (fun e => e.1 = o.val)).foldl (fun m e => mput m (1024 * e.2.1 + e.2.2.1) e.2.2.2) []
  (s.setOe h o.val { s.oe h o.val with cross := cross }).runOe h o x.modBad x.modCalBad

/-! ## A half (steps 3 to 15) -/

/-- Pages of a half other than its cells'. -/
def halfPages (h : Half) : List Page :=
  [.comb h, .fwall h, .seq h, .pcie h, .therm h, .pwr h, .clk h, .cal h, .ctrlch h] ++ (allFin 4).map (.noc h) ++ (allFin 12).map (.hbmc h) ++
    (allFin 8).map (.ddrc h) ++ (allFin 16).map (.hinge h) ++ (allFin 32).map (.ucie h) ++ (allFin 8).map (.oe h) ++ (allFin 64).map (.oport h) ++
    (allFin 8).map (.laser h)

/-- Why a half does not start: 1 REFCLK or a rail, 4 its comb die or its images; 0 it starts. -/
def halfFails (x : HalfObs) (images : Bool) : Nat :=
  if !x.refclk || !x.badRails.isEmpty then 1 else if !x.combOut || !images then 4 else 0

/-- RAIL_FAULT for each rail that misses its time. -/
def State.railsMissed (s : State) (h : Half) (l : List Nat) : State :=
  foldOver l (fun r s => s.err (.pwr h) 14 { cost := 5 }) s

/-- The half's dies leave reset and its blocks start. -/
def State.startHalf (s : State) (h : Half) (x : HalfObs) : State :=
  let s := (s.setDie (dieComb h) .up).setHalfDies h .up
  let s := foldOver x.diesBad (fun q s => s.setDie (dieCd h q.val) .off) s
  let s := s.setRef h true
  let s := foldOver (List.range 39) (fun k s => s.setDom h k (if x.diesBad.any (fun q => q.val = k) then 0 else 2)) s
  let s := foldOver (halfPages h) (fun p s => s.setF p R.hdr.BLK_STS_READY 1) s
  let s := s.cfgHalf h
  let s := foldOver (List.range 4) (fun q s =>
    let s := (s.setF (.clk h) (R.clk.CEIL_MHZ.ix q) 600).showClock h q
    if x.diesBad.any (fun d => d.val = q) then s else s.assignIds h q (x.bistFail.map (·.val))) s
  let s := (s.startHbm h x.stacksBad).startDdr h
  let s := foldOver (allFin 8) (fun o s => s.startOe h o x) s
  let s := foldOver allBundles (fun b s => s.startLanes (.hinge h b) ((x.badLanes.filter (fun e => e.1 = b.val)).map (·.2))) s
  s.setF .keeper (upFld h) 1

/-! ## Spill rings (07 R218) -/

/-- A stretch of a partition's HBM windows that lies in one domain: bytes lo to hi, and the rings placed in the domain so far. -/
structure Stretch where
  dom  : Nat
  lo   : Nat
  hi   : Nat
  used : Nat
deriving DecidableEq, Repr

/-- A window's stretches: 3 GiB of a row are one domain's, but for a HALF row, which belongs to its half's four (04 Table 4.2, R116). -/
def State.stretches (s : State) (w : Nat × Nat) : List Stretch :=
  [Half.A, Half.B].flatMap (fun h => (List.range 288).filterMap (fun k =>
    let z := 3 * 2 ^ 30
    let lo := max w.1 (hbmBase h + k * z)
    let hi := min w.2 (hbmBase h + k * z + z - 1)
    if lo ≤ hi then some ⟨if s.ilvMode h (k / 4) = 2 then 8 + halfNo h else 4 * halfNo h + k % 4, lo, hi, 0⟩ else none))

/-- Place a ring at the top of a stretch of the domain with the fewest rings (DESIGN CHOICE, assumption 88): the stretches left, and its base. -/
def placeRing (l : List Stretch) (size : Nat) : List Stretch × Option Nat :=
  let base := fun (x : Stretch) => (x.hi + 1 - size) / 4096 * 4096
  let fits := (List.range l.length).filter (fun i => match l[i]? with
    | some x => decide (size ≤ x.hi + 1) && decide (x.lo ≤ base x)
    | none => false)
  match (leastBy (fun i => ((l[i]?).map (·.used)).getD 0) fits).bind (fun i => (l[i]?).map (fun x => (i, x))) with
  | none => (l, none)
  | some (i, x) =>
    (((List.range l.length).zip l).map (fun e =>
      let y := if e.1 = i then { e.2 with hi := base x - 1 } else e.2
      if y.dom = x.dom then { y with used := y.used + 1 } else y), some (base x))

/-- Firmware places the spill ring of each port of a partition and programs the SPILL windows of the halves that start; a ring that does not fit
stays without one. -/
def State.placeSpills (s : State) (hs : List Half) : State :=
  foldOver (s.cfg.parts.getD []) (fun c s =>
    ((bitList 128 c.ports.toNat).map portOf).foldl (fun (a : State × List Stretch) p =>
      let size := 256 * a.1.spillSlots p
      match placeRing a.2 size with
      | (l, some b) =>
        let w := winKind (8 + p.i.val % 8) ⟨BitVec.ofNat 40 (b / 4096), BitVec.ofNat 40 ((b + size - 1) / 4096), true, true, true⟩
        (if hs.contains p.half then a.1.setWin p.half p.oe.val (8 + p.i.val % 8) w else a.1, l)
      | (l, none) => (a.1, l)) (s, c.windows.flatMap s.stretches) |>.1) s

/-- The capability word sent: encryption where every OE of the device that is up has it. -/
def State.fabCaps (s : State) : State :=
  let all := [Half.A, Half.B].all (fun h => !s.halfUp h || (allFin 8).all (fun o => s.isSet (.oe h o) R.oe.BLK_CAP_AES_GCM))
  foldOver [Half.A, Half.B] (fun h s => s.setF (.comb h) R.comb.FAB_VER_CAPS (if all then 0xFF else 0xDF)) s

/-- Hinge bundles between two halves that are up train with the lanes that are good. -/
def State.startHinge (s : State) (bad : List (Fin 16)) : State :=
  if !(s.halfUp .A && s.halfUp .B) then s
  else
    let s := foldOver allBundles (fun b s =>
      let r := ((s.setBundle b hgTRAINING).setRole b (s.cfgRole b)).trainBundle b (!bad.contains b)
      if r.2 then r.1
      else
        let s := (r.1.setBundle b hgBROKEN).setRetry b true
        foldOver [Half.A, Half.B] (fun h s => s.err (.hinge h b) 13 { cost := 2, info := s.laneInfo (.hinge h b) 0xFF }) s) s
    (s.refillRole 1).refillRole 0

/-- Bundles that are up. -/
def State.bundlesUp (s : State) : Nat := (allBundles.filter s.bundleUp).length

/-! ## The device -/

/-- A half that does not start is lost. -/
def State.startFails (s : State) (h : Half) (why : Nat) : State :=
  let s := { s with lostWhy := mput s.lostWhy (halfNo h) why }
  let s := (s.setDie (dieComb h) .lost).setChan (halfChan h) 5
  (s.setF .keeper (upFld h) 0).fwRecord .keeper false { cost := 5 }

/-- The complex starts with the channels that pass their self-test. -/
def State.startComplex (s : State) (o : BringUpObs) : State :=
  let s := foldOver [Half.A, Half.B] (fun h s =>
    let x := match h with
      | .A => o.a
      | .B => o.b
    if s.halfUp h then s.setChan (halfChan h) (if x.chanOk then 1 else 4) else s) s
  let s := s.setChan .ck (if o.ckOk then 1 else 4)
  s.setMode (match s.voters.length with
    | 3 => 1
    | 2 => 2
    | 1 => 5
    | _ => 4)

/-- The power cap: a request that waits, or the configuration's. -/
def State.startCap (s : State) : State :=
  let w := if s.capHeld then s.getF .gPwr R.pwrG.CAP_REQ_W else s.cfg.cap.getD 5200
  ({ s with capHeld := false }.setF .gPwr R.pwrG.CAP_REQ_W w).applyCap w

/-- DIMM descriptions for this start: those delivered for it, then the configuration's. -/
def State.startDimms (s : State) : State :=
  let mine := (s.cfg.dimms.getD []).map (fun e => (chanKey e.1 e.2.1.val, e.2.2))
  { s with mem := { s.mem with dimms := s.dimmNext ++ mine.filter (fun e => !mhas s.dimmNext e.1) }, spdOut := [] }

/-- The keeper can start a bring-up (R367). -/
def State.mayStart (s : State) : Bool :=
  s.pins.edge && !s.pins.por && s.pins.vin48 && s.pins.sampled && s.die 0 = .up && !s.sec.rom && s.dstate = 1 &&
    decide (1 ≤ s.getF .keeper R.keeper.BOOT_STS_PHASE)

/-- BRING_UP_START: steps 1 to 16 of Table 12.2. -/
def bringUpStart (o : BringUpObs) (s : State) : State :=
  if !s.mayStart then s
  else
    let s := ({ s with pins := { s.pins with edge := false }, session := BitVec.ofNat 32 (s.freeAhead 0) }).drawn 1
    let s := s.setFs .keeper [(R.keeper.BOOT_STS_PHASE, 2), (R.keeper.STRAPS_LEADER, halfNo s.queen)]
    let (s, imgs) := s.loadFirmware
    let fa := halfFails o.a imgs
    let fb := halfFails o.b imgs
    let s := (s.railsMissed .A o.a.badRails).railsMissed .B o.b.badRails
    let lead := s.queen
    let lead := if (if lead = .A then fa else fb) ≠ 0 then otherHalf lead else lead
    let s := if fa ≠ 0 then s.startFails .A fa else s
    let s := if fb ≠ 0 then s.startFails .B fb else s
    let s := if imgs then s else { s with pins := { s.pins with fault := true } }
    if fa ≠ 0 && fb ≠ 0 then (if imgs then s else s.setF .keeper R.keeper.BOOT_STS_PHASE 0xA)
    else
      let s := (s.setF .keeper R.keeper.STRAPS_LEADER (halfNo lead)).takeCfg.startDimms
      let s := { s with reduced := true }.setFs .keeper [(R.keeper.BOOT_STS_REDUCED, 1), (R.keeper.BOOT_STS_PHASE, 8)]
      let s := if fa = 0 then s.startHalf .A o.a else s
      let s := if fb = 0 then s.startHalf .B o.b else s
      let s := ((s.startComplex o).startHinge o.bundlesBad).fabCaps.placeSpills ([Half.A, Half.B].filter s.halfUp)
      let s := (s.startCap.setCap lead 600 15).setDstate 2
      let s := s.setF (.seq lead) R.seq.BLK_STS_STATE 1
      let s := if fa ≠ 0 then s.hportLost .A else if fb ≠ 0 then s.hportLost .B else s
      if fa = 0 && fb = 0 && decide (s.bundlesUp < 4) then s.hingeLost else s

/-- BOOT_DONE (R371): full width, the cell ceiling released, the other sequencer runs, reduced service ends. -/
def bootDone (s : State) : State :=
  if !s.reduced then s
  else
    let lead := s.leader
    let oth := otherHalf lead
    let s := { s with reduced := false, sec := { s.sec with frozen := true } }
    let s := s.setCap lead 1500 15
    let s := if s.halfUp oth && s.getF (.seq oth) R.seq.BLK_STS_STATE = 0 then s.setF (.seq oth) R.seq.BLK_STS_STATE 1 else s
    let s := (s.setFs .keeper [(R.keeper.BOOT_STS_REDUCED, 0), (R.keeper.BOOT_STS_PHASE, 9), (R.keeper.BOOT_STS_DONE_MS, s.freeAhead 0)]).drawn 1
    foldOver ((List.range 128).map portOf) (fun p s =>
      if s.linkUp p && s.lead p = p then s.linkDown p 6 else s) s

end Sys2Proof.Machine
end

