-- ==== Sys2Proof/Machine/CellLsu.lean ====
section
/-! DEFINITION. Load/store instructions of a cell (02 R67, Table 2.12): LOAD, STORE, GATHER, SCATTER, PREFETCH, MOVE. A load takes its
data at issue and lands in cell store at completion; a store takes its data at issue and reaches memory at completion
(assumption 13). -/

namespace Sys2Proof.Machine

/-- A signed field of w bits, in units of 64 bytes, added to a base modulo 2^64. -/
def addSigned (w base off : Nat) : Nat := ((base : Int) + 64 * toSigned w off) % 2 ^ 64 |>.toNat

/-- Row addresses of LOAD and STORE. -/
def strideRows (base stride rows : Nat) : List Nat :=
  (List.range rows).map (fun r => (base + r * stride * 64) % 2 ^ 64)

/-- Row addresses of GATHER and SCATTER. -/
def indexRows (base stride : Nat) (idx : List Nat) : List Nat := idx.map (fun k => (base + k * stride * 64) % 2 ^ 64)

/-- The first address that lies outside the partition's windows, of rows of n bytes. -/
def Iss.badRow (i : Iss) (s : State) (n : Nat) (rows : List Nat) : Option Nat :=
  rows.findSome? (fun a => s.firstOut i.h i.k.part a n)

/-- Data read from memory, with stores that the cell's LSU has queued and not completed seen or not, freely: no rule orders
them without a FENCE. -/
def Iss.overlay (i : Iss) (a : Nat) (b : List Byte) : List Byte :=
  let qs := i.x.lsu.flatMap (fun e => e.stores)
  (List.range b.length).map fun k =>
    (List.range qs.length).foldl (fun v j =>
      let q := nth (0, []) qs j
      if q.1 ≤ a + k && a + k < q.1 + q.2.length && (Config.freeAt i.stamp j).toNat % 2 = 1 then
        nth 0 q.2 (a + k - q.1) else v) (nth 0 b k)

/-- Read rows of n bytes: state, whether a read failed, the bytes. -/
def Iss.loadRows (i : Iss) (hint n : Nat) (rows : List Nat) (s : State) : State × Bool × List Byte :=
  rows.foldl (fun acc a =>
    let r := acc.1.memRead i.h .cell hint a n
    (r.1, acc.2.1 || r.2.1 ≠ 0, acc.2.2 ++ i.overlay a r.2.2)) (s, false, [])

/-- Finish a load: an error ends the program with cause 0x0A, else the bytes are due in cell store. -/
def Iss.landRows (i : Iss) (ca hint n : Nat) (rows : List Nat) (s : State) : State :=
  match i.badRow s n rows with
  | some a => s.cellDeny i a
  | none =>
    let r := i.loadRows hint n rows s
    if r.2.1 || i.e = .loadUE then i.failRun .lsu (lineDst ca (n / 64 * rows.length)) 0xA false r.1
    else r.1.enqueue i .lsu i.x
      { tok := none, lines := csLines i.x (some .lsu) i.stamp ca r.2.2, stores := [], hint := hint, load := true,
        spans := rows.map (fun a => (a, n)) }

/-- Finish a store: the rows' bytes are due in memory. -/
def Iss.sendRows (i : Iss) (ca hint n : Nat) (rows : List Nat) (s : State) : State :=
  match i.badRow s n rows with
  | some a => s.cellDeny i a
  | none =>
    let b := csBytes i.x (some .lsu) i.stamp ca (n * rows.length)
    s.enqueue i .lsu i.x
      { tok := none, lines := [], stores := (List.range rows.length).map (fun r => (nth 0 rows r, (b.drop (n * r)).take n)),
        hint := hint, load := false }

/-- The destination of a store: its rows that lie inside the partition's windows. -/
def Iss.rowsDst (i : Iss) (s : State) (rows : List Nat) (n hint : Nat) : InFl :=
  memDst (rows.filter (fun a => (s.firstOut i.h i.k.part a n).isNone)) n hint

/-- LOAD and STORE. -/
def rowsAct (st : Bool) (i : Iss) (s : State) : State :=
  let w := i.w
  let rows := bits w 54 43 + 1
  let rowl := bits w 42 33 + 1
  let ca := csOperand i.x (bits w 100 80)
  let base := addSigned 20 (sreg i.x (bits w 79 75)) (bits w 74 55)
  let al := strideRows base (bits w 32 9) rows
  i.guard (causes
    [(bits w 6 0 ≠ 0 || bits w 8 7 = 3, 2), (ca + rows * rowl > 65536, 4), (base % 64 ≠ 0, 6)])
    (fun s => if st then i.readCs .lsu (i.rowsDst s al (64 * rowl) (bits w 8 7)) (i.sendRows ca (bits w 8 7) (64 * rowl) al) s else i.landRows ca (bits w 8 7) (64 * rowl) al s) s

/-- GATHER and SCATTER: the index list lies in cell store. -/
def indexedAct (st : Bool) (i : Iss) (s : State) : State :=
  let w := i.w
  let rows := bits w 53 42 + 1
  let rowl := bits w 41 32 + 1
  let ca := csOperand i.x (bits w 100 80)
  let ia := csOperand i.x (bits w 79 59)
  let base := sreg i.x (bits w 58 54)
  i.guard (causes
    [(bits w 5 0 ≠ 0 || bits w 7 6 = 3, 2), (ca + rows * rowl > 65536 || ia + linesFor (4 * rows) > 65536, 4),
     (base % 64 ≠ 0, 6)])
    (fun s =>
      let b := csBytes i.x (some .lsu) i.stamp ia (4 * rows)
      let al := indexRows base (bits w 31 8) ((List.range rows).map (fun k => natOf ((b.drop (4 * k)).take 4)))
      i.readCs .lsu (if st then i.rowsDst s al (64 * rowl) (bits w 7 6) else lineDst ca (rows * rowl))
        (fun s => if st then i.sendRows ca (bits w 7 6) (64 * rowl) al s else i.landRows ca (bits w 7 6) (64 * rowl) al s) s) s

/-- PREFETCH: fills the comb cache with the lines that can be read and completes at issue; only its encoding can be refused. Its
token stays done. -/
def prefetchAct (i : Iss) (s : State) : State :=
  let w := i.w
  let base := addSigned 20 (sreg i.x (bits w 100 96)) (bits w 95 76)
  let hint := bits w 51 50
  i.guard (causes [(bits w 49 0 ≠ 0 || hint = 3, 2)])
    (fun s =>
      let fill := fun (s : State) (k : Nat) =>
        let a := (base + 64 * k) % 2 ^ 64
        match s.place a with
        | .hbm home _ | .tier home _ =>
          if s.inWindow i.h i.k.part a 64 && s.halfUp home && !s.refused (s.place a) && base % 64 = 0 then
            (s.cacheTouch i.h home .cell false hint (a / 128)).1
          else s
        | _ => s
      ((List.range (bits w 75 52 + 1)).foldl fill s).issued i i.x (i.pc + 1)) s

/-- MOVE: the source is read whole before the destination is written. -/
def moveAct (i : Iss) (s : State) : State :=
  let w := i.w
  let n := bits w 58 43 + 1
  let ld := csOperand i.x (bits w 100 80)
  let l1 := csOperand i.x (bits w 79 59)
  i.guard (causes [(bits w 42 0 ≠ 0, 2), (ld + n > 65536 || l1 + n > 65536, 4)])
    (i.readCs .lsu (lineDst ld n) fun s =>
      s.enqueue i .lsu i.x
        { tok := none, lines := csLines i.x (some .lsu) i.stamp ld (csBytes i.x (some .lsu) i.stamp l1 (64 * n)), stores := [],
          hint := 0, load := false }) s

def load (h : Half) (c : Fin 288) (e : HwEvent) (s : State) : State := issue 0x04 h c e (rowsAct false) s
def store (h : Half) (c : Fin 288) (e : HwEvent) (s : State) : State := issue 0x05 h c e (rowsAct true) s
def scatter (h : Half) (c : Fin 288) (e : HwEvent) (s : State) : State := issue 0x06 h c e (indexedAct true) s
def prefetch (h : Half) (c : Fin 288) (e : HwEvent) (s : State) : State := issue 0x07 h c e prefetchAct s
def move (h : Half) (c : Fin 288) (e : HwEvent) (s : State) : State := issue 0x08 h c e moveAct s
def gather (h : Half) (c : Fin 288) (e : HwEvent) (s : State) : State := issue 0x09 h c e (indexedAct false) s

end Sys2Proof.Machine
end

