-- ==== Sys2Proof/Machine/CellScalar.lean ====
section
/-! DEFINITION. Scalar-class instructions of a cell (02 Table 2.14, R68 to R71): each completes before the next issues. -/

namespace Sys2Proof.Machine

/-- TEN on a scalar instruction is cause 0x02 (Table 2.15). -/
def Iss.ten (i : Iss) : Bool := bit i.w 105

/-- Go on after a scalar instruction with a cell. -/
def Iss.next (i : Iss) (x : CellSt) (s : State) : State := s.issued i x (i.pc + 1)

/-- 64-bit two's complement. -/
def wrap64 (v : Int) : Nat := (v % 2 ^ 64).toNat

/-- SOP (Table 2.14). -/
def sopFn (fn a b : Nat) : Nat :=
  let sa := toSigned 64 a
  let sb := toSigned 64 b
  match fn with
  | 0 => (a + b) % 2 ^ 64
  | 1 => (a + 2 ^ 64 - b % 2 ^ 64) % 2 ^ 64
  | 2 => a * b % 2 ^ 64
  | 3 => a &&& b
  | 4 => a ||| b
  | 5 => a ^^^ b
  | 6 => a * 2 ^ (b % 64) % 2 ^ 64
  | 7 => a / 2 ^ (b % 64)
  | 8 => wrap64 (sa / 2 ^ (b % 64))
  | 9 => wrap64 (min sa sb)
  | 10 => wrap64 (max sa sb)
  | 11 => min a b
  | _ => max a b

def sopAct (i : Iss) (s : State) : State :=
  let w := i.w
  let fn := bits w 85 82
  i.guard (causes [(i.ten || bits w 48 0 ≠ 0 || fn ≥ 13, 2)])
    (fun s =>
      let b := if bit w 81 then wrap64 (toSigned 32 (bits w 80 49)) else sreg i.x (bits w 90 86)
      i.next (putSreg i.x (bits w 100 96) (sopFn fn (sreg i.x (bits w 95 91)) b)) s) s

def sliAct (i : Iss) (s : State) : State :=
  i.guard (causes [(i.ten || bits i.w 95 64 ≠ 0, 2)])
    (i.next (putSreg i.x (bits i.w 100 96) (bits i.w 63 0))) s

/-- Byte address of SLD and SST in cell store. -/
def sAddr (i : Iss) : Nat := (sreg i.x (bits i.w 95 91) + bits i.w 90 69) % 2 ^ 22

def sldAct (i : Iss) (s : State) : State :=
  let a := sAddr i
  i.guard (causes [(i.ten || bits i.w 68 0 ≠ 0, 2), (a % 8 ≠ 0, 6)])
    (i.readCell (fun inj s => s.progError i.h i.c 0xC i.pc inj) fun s =>
      i.next (putSreg i.x (bits i.w 100 96) (natOf (((csBytes i.x none i.stamp (a / 64) 64).drop (a % 64)).take 8))) s) s

def sstAct (i : Iss) (s : State) : State :=
  let a := sAddr i
  i.guard (causes [(i.ten || bits i.w 68 0 ≠ 0, 2), (a % 8 ≠ 0, 6)])
    (fun s =>
      let old := csBytes i.x none i.stamp (a / 64) 64
      let b := old.take (a % 64) ++ bytesOf 8 (sreg i.x (bits i.w 100 96)) ++ old.drop (a % 64 + 8)
      i.next { i.x with cs := mset (0 : Line) i.x.cs (a / 64) (BitVec.ofNat 512 (natOf b)) } s) s

/-- SRD: SRC 3, elapsed cell-clock cycles, is a free value at each reading (assumption 1); so is the index of a loop level that
is not active, on which Table 2.14 is silent. Level 0 is the outermost (assumption 14). -/
def srdAct (i : Iss) (s : State) : State :=
  let src := bits i.w 95 92
  i.guard (causes [(i.ten || bits i.w 91 0 ≠ 0 || src ≥ 9, 2)])
    (fun s =>
      let v := match src with
        | 0 => s.logicalId i.h i.c
        | 1 => i.c
        | 2 => i.k.part
        | 3 => s.freeAhead 0
        | 4 => bits (s.reg (fldAddr (cellPage i.h i.c) R.cell.CELL_FLAGS_ACC_INEXACT)).toNat 6 0
        | n => nth (s.freeAhead 0) (i.x.loops.reverse.map (·.iter)) (n - 5)
      i.next (putSreg i.x (bits i.w 100 96) (v % 2 ^ 64)) (s.drawn 1)) s

/-- LOOP: the body is the BODY + 1 instructions that follow; a count of 0 skips it (R71). With four levels open a LOOP is refused whatever
its count (DESIGN CHOICE, assumption 73). -/
def loopAct (i : Iss) (s : State) : State :=
  let w := i.w
  let first := i.pc + 1
  let stop := first + bits w 75 64 + 1
  let encl := match i.x.loops with
    | [] => i.k.ninst + 1
    | l :: _ => l.stop
  let sc := bits w 100 96
  let n := if sc = 0 then bits w 95 76 else sreg i.x sc % 2 ^ 32
  i.guard (causes [(i.ten || bits w 63 0 ≠ 0, 2), (i.x.loops.length ≥ 4 || stop > encl, 7)])
    (fun s =>
      if n = 0 then s.issued i i.x stop
      else i.next { i.x with loops := { first := first, stop := stop, left := n, iter := 0 } :: i.x.loops } s) s

def brTaken (cnd a b : Nat) : Bool :=
  match cnd with
  | 0 => a = b
  | 1 => a ≠ b
  | 2 => toSigned 64 a < toSigned 64 b
  | 3 => toSigned 64 b ≤ toSigned 64 a
  | 4 => a < b
  | 5 => b ≤ a
  | _ => true

/-- BR: a target outside the innermost active body, or outside the program, is refused, taken or not (R71). -/
def brAct (i : Iss) (s : State) : State :=
  let w := i.w
  let cnd := bits w 90 88
  let taken := brTaken cnd (sreg i.x (bits w 100 96)) (sreg i.x (bits w 95 91))
  let t := (i.pc : Int) + toSigned 20 (bits w 87 68)
  let lim : Int × Int := match i.x.loops with
    | [] => (0, (i.k.ninst : Int) + 1)
    | l :: _ => ((l.first : Int), (l.stop : Int))
  i.guard (causes [(i.ten || bits w 67 0 ≠ 0 || cnd = 7, 2), (!(decide (lim.1 ≤ t) && decide (t < lim.2)), 8)])
    (fun s => if taken then s.issued i i.x t.toNat else i.next i.x s) s

/-- Wait until every unit is idle, then go on. -/
def Iss.idle (i : Iss) (ok : State → State) (s : State) : State := if unitsIdle i.x then ok s else s

/-- END. -/
def endAct (i : Iss) (s : State) : State :=
  i.guard (causes [(i.ten || bits i.w 100 0 ≠ 0, 2)])
    (i.idle (fun s => (s.setF (cellPage i.h i.c) R.cell.PC i.pc).endNow i.h i.c)) s

def nopAct (i : Iss) (s : State) : State :=
  i.guard (causes [(i.ten || bits i.w 100 0 ≠ 0, 2)]) (i.next i.x) s

/-- SIGNAL: once no STORE or SCATTER of the cell is outstanding, the semaphore is added to (R70). -/
def signalAct (i : Iss) (s : State) : State :=
  let w := i.w
  let sem := bits w 100 85
  let sc := bits w 52 51
  i.guard (causes [(i.ten || bits w 50 0 ≠ 0 || sc = 0 || sc = 3, 2), (!s.semIn i.h i.k.part sem, 0xB)])
    (fun s =>
      if i.x.lsu.all (fun e => e.stores.isEmpty) then (i.next i.x s).addSem sem (bits w 84 53) else s) s

/-- WAIT: goes on, or waits with its PC held, until the semaphore is at least VAL (R94). -/
def waitAct (i : Iss) (s : State) : State :=
  let w := i.w
  let sem := bits w 100 85
  let val := bits w 84 53
  i.guard (causes [(i.ten || bits w 52 0 ≠ 0, 2), (!s.semIn i.h i.k.part sem, 0xB)])
    (fun s =>
      if val ≤ s.sem sem then i.next i.x s
      else (s.setCell i.h i.c { i.x with wait := some (sem, val) }).setF (cellPage i.h i.c) R.cell.PC i.pc) s

/-- FENCE: a write is visible in the device once it has completed (04 R128), so every scope waits for completion. -/
def fenceAct (i : Iss) (s : State) : State :=
  i.guard (causes [(i.ten || bits i.w 98 0 ≠ 0 || bits i.w 100 99 = 3, 2)]) (i.idle (i.next i.x)) s

def nop (h : Half) (c : Fin 288) (e : HwEvent) (s : State) : State := issue 0x00 h c e nopAct s
def sop (h : Half) (c : Fin 288) (e : HwEvent) (s : State) : State := issue 0x28 h c e sopAct s
def sli (h : Half) (c : Fin 288) (e : HwEvent) (s : State) : State := issue 0x29 h c e sliAct s
def sld (h : Half) (c : Fin 288) (e : HwEvent) (s : State) : State := issue 0x2A h c e sldAct s
def sst (h : Half) (c : Fin 288) (e : HwEvent) (s : State) : State := issue 0x2B h c e sstAct s
def srd (h : Half) (c : Fin 288) (e : HwEvent) (s : State) : State := issue 0x2C h c e srdAct s
def loop (h : Half) (c : Fin 288) (e : HwEvent) (s : State) : State := issue 0x30 h c e loopAct s
def br (h : Half) (c : Fin 288) (e : HwEvent) (s : State) : State := issue 0x31 h c e brAct s
def endPart (h : Half) (c : Fin 288) (e : HwEvent) (s : State) : State := issue 0x33 h c e endAct s
def cellSignal (h : Half) (c : Fin 288) (e : HwEvent) (s : State) : State := issue 0x38 h c e signalAct s
def cellWait (h : Half) (c : Fin 288) (e : HwEvent) (s : State) : State := issue 0x39 h c e waitAct s
def cellFence (h : Half) (c : Fin 288) (e : HwEvent) (s : State) : State := issue 0x3A h c e fenceAct s

end Sys2Proof.Machine
end

