-- ==== Sys2Proof/Machine/DieReset.lean ====
section
/-! DEFINITION. Resets of one die and of a half (12 R378 to R381; 11 R350, R363): PLL unlock, rail faults, the return of a lost half. -/

namespace Sys2Proof.Machine

/-! ## A compute die (Table 12.4) -/

/-- Every running part of the die completes DIE_RESET, in the order of the logical IDs (03 R100); cell state and registers go; retired cells stay retired, pending retirements take effect;
the cells pass BIST (assumption 37) and IDs are assigned. -/
def State.cycleDie (s : State) (h : Half) (q : Nat) (bist : List Nat) : State :=
  let cs := (List.range 72).map (72 * q + ·)
  let s := foldOver ((List.range 64).filterMap (fun l => s.physOf h (64 * q + l)) ++ cs) (fun c s => s.endPartWith h c 8) s
  let s := foldOver cs (fun c s =>
    let was := s.cst h c
    let x := s.cell h c
    let s := s.setCell h c { cellInit with ctx := x.ctx, ended := x.ended, retire := x.retire, swap := x.swap }
    let s := s.resetPage (cellPage h c)
    s.setF (cellPage h c) R.cell.BLK_STS_STATE (if was = 5 then 5 else 1)) s
  s.assignIds h q bist

/-- A second reset within 60 s leaves the die off and its IDs absent until the next start. Whether 60 s have passed since the last one is a free
choice. -/
def State.resetDie (s : State) (h : Half) (q : Nat) (bist : List Nat) : State :=
  if s.die (dieCd h q) ≠ .up then s
  else
    let key := cdKey h q
    let again := s.cdHit.contains key && s.freeAhead 0 % 2 = 0
    let s := ({ s with cdHit := sadd s.cdHit key }).drawn 1
    let s := s.cycleDie h q bist
    if again then
      let cs := (List.range 72).map (72 * q + ·)
      let s := foldOver cs (fun c s => (s.setFs (cellPage h c) [(R.cell.CELL_ID_MAPPED, 0)]).cellState h c (if s.cst h c = 5 then 5 else 0)) s
      (s.setDie (dieCd h q) .off).setDom h q 0
    else s.setDom h q 2

/-! ## Stacks, channels, OEs -/

/-- The controller of a stack resets: the stack keeps its data, resumes in LOW and trains. -/
def State.resetStack (s : State) (h : Half) (i : Nat) : State :=
  if s.getF (hbmPage h i) R.hbmc.BLK_STS_STATE = 5 then s else s.hbmTrainStart h i

/-- The controller of a DDR5 channel resets: its channel trains again, the tier map stays. -/
def State.resetChannel (s : State) (h : Half) (c : Nat) : State :=
  if s.getF (ddrPage h c) R.ddrc.BLK_STS_STATE = 2 then s.setF (ddrPage h c) R.ddrc.BLK_STS_STATE 1 else s

/-- PLL_UNLOCK of a domain. -/
def pllUnlock (e : PllEvent) (s : State) : State :=
  let h := e.dom.half
  let k := e.dom.k.val
  if !s.answers (.clk h) || s.dom h k = 0 then s
  else
    let cost := if k < 4 then 4 else if k < 8 || 36 ≤ k then 5 else if k < 28 then 0 else 4
    let s := (s.setDom h k 3).err (.clk h) 8 { cost := cost, status := if k < 4 then 8 else 0 }
    if k < 4 then s.resetDie h k (e.bistFail.map (·.val))
    else if k < 8 || 36 ≤ k then s.halfLost h 1
    else
      let s := if k < 20 then s.resetStack h (k - 8)
        else if k < 28 then s.resetChannel h (k - 20)
        else s.resetOe h (Fin.ofNat 8 (k - 28))
      s.setDom h k 2

/-- RAIL_FAULT: rails 0 to 3 VDD_CD, 4 VDD_COMB, 5 VDD_HBM, 6 VDDQ_HBM, 7 VDD_OE, 8 VLASER, 9 VDD_IO (Table 11.16). Stacks without their supply
lose their contents; tiles without theirs are OFF (assumption 38). -/
def railFault (h : Half) (e : RailEvent) (s : State) : State :=
  if !s.answers (.pwr h) then s
  else
    let n := e.rail.val
    let s := s.err (.pwr h) 14 { cost := if n = 4 || n = 9 then 5 else if n < 4 || n = 7 then 4 else 0, status := if n < 4 then 8 else 0 }
    if n < 4 then s.resetDie h n (e.bistFail.map (·.val))
    else if n = 4 || n = 9 then s.halfLost h 1
    else if n = 5 || n = 6 then
      let s : State := foldOver (List.range 72) (fun j (s : State) => s.undefRow (72 * halfNo h + j)) s
      foldOver (List.range 12) (fun i s => s.resetStack h i) s
    else if n = 7 then foldOver (allFin 8) (fun o s => s.resetOe h o) s
    else foldOver (allFin 8) (fun o s => if s.pstate h o = 0 then s else s.lowerOe h o 0 0) s

/-! ## A half returns (R381) -/

/-- The half runs its part of the bring-up; a failure leaves it lost. Its partitions keep their states, its channel joins by RESYNC, its
sequencer leaves INIT, its fence is lifted. -/
def State.resetHalf (s : State) (h : Half) (o : HalfObs) : State :=
  let parts := (List.range 8).map (fun p => s.getF (.seq h) (R.seq.PART_CTL_STATE.ix p))
  let (s, c) := s.repeatImage .control 3
  let (s, q) := s.repeatImage .sequencer 4
  let why := halfFails o (c && q)
  let s := s.railsMissed h o.badRails
  let s := s.clearHalf h
  if why ≠ 0 then
    let s := if c && q then s else { s with pins := { s.pins with fault := true } }
    let s := { s with lostWhy := mput s.lostWhy (halfNo h) why }
    (s.setDie (dieComb h) .lost).setHalfDies h .off
  else
    let s := { s with lostWhy := merase s.lostWhy (halfNo h) }
    let s := if s.halfUp (otherHalf h) then s else s.setF .keeper R.keeper.STRAPS_LEADER (halfNo h)
    let s := s.startHalf h o
    let s := foldOver ((List.range 8).zip parts) (fun e (s : State) => s.setF (.seq h) (R.seq.PART_CTL_STATE.ix e.1) e.2) s
    let s := if s.getF .ck R.ctrlch.CC_STS_HINGE = 2 then s else (s.startHinge []).fabCaps
    let s := s.placeSpills [h]
    let s := if o.chanOk then (if s.halted then s.setChan (halfChan h) 1 else s.resync (halfChan h)) else s.setChan (halfChan h) 4
    let s := (s.setF (.seq h) R.seq.BLK_STS_STATE 1).setCc (fencedFld h) 0
    let s : State := (s.setShares).mgmtEvt 4 (some h)
    if s.dstate = 1 then s.setDstate 2 else s

def autoFld : Half → Fld
  | .A => R.keeper.HALF_RST_STS_AUTO_A
  | .B => R.keeper.HALF_RST_STS_AUTO_B

/-- AUTO_HALF_RESET: at most two in an hour. Whether the ones counted lie an hour back is a free choice. -/
def autoHalfReset (h : Half) (o : HalfObs) (s : State) : State :=
  if !(s.die 0 = .up && s.whyLost h = 1 && s.refOn h && o.refclk) then s
  else
    let n := if s.freeAhead 0 % 2 = 0 then s.autoCount h else 0
    let s := s.drawn 1
    if n ≥ 2 then s else (s.setF .keeper (autoFld h) (n + 1)).resetHalf h o

/-- HALF_RST of a half: refused while it is up and not fenced, and in safe halt (R391). -/
def State.halfRst (s : State) (h : Half) (o : HalfObs) : State :=
  if !s.answers .keeper then s
  else if s.halted || s.halfUp h || s.whyLost h = 0 then s.stateErr .keeper
  else s.resetHalf h o

def halfRstA (_m : Master) (o : HalfObs) (s : State) : State := s.halfRst .A o
def halfRstB (_m : Master) (o : HalfObs) (s : State) : State := s.halfRst .B o

end Sys2Proof.Machine
end

