-- ==== Sys2Proof/Machine/Errors.lean ====
section
/-! DEFINITION. Error rings (14 R425, R426, R431, R432) and error injection (01 R35, 14 R429). -/

namespace Sys2Proof.Machine

/-! ## Rings -/

/-- Write n buffered records to the ring, oldest first, while it is open. -/
def drainRing (h : Half) : Nat → State → State
  | 0, s => s
  | n + 1, s =>
    match (s.ring h).held with
    | [] => s
    | r :: t => if s.ringOpen h then drainRing h n ((s.setRing h { s.ring h with held := t }).ringWrite h r) else s

/-- ERROR_RING_DRAIN: the buffered records, then one firmware record that counts those lost. -/
def errorRingDrain (h : Half) (s : State) : State :=
  if !(s.halfUp h && s.ringOpen h) then s
  else
    let s := drainRing h (s.ring h).held.length s
    let lost := s.getF (.comb h) R.comb.ERR_RING_STS_LOST
    if lost ≠ 0 && (s.ring h).held.isEmpty && s.ringOpen h then
      (s.setF (.comb h) R.comb.ERR_RING_STS_LOST 0).fwRecord (.comb h) false { count := lost }
    else s

/-- The events folded of one page, bit and kind leave as one record; the window ends. -/
def State.endWindow (s : State) (p : Page) (bitNo kind : Nat) : State :=
  let key := pageBase p + kind * 32 + bitNo
  let c := mget ⟨0, 0⟩ s.coal key
  let s := { s with coal := merase s.coal key }
  if c.folded = 0 then s
  else s.record p bitNo kind false (s.isSet p R.hdr.BLK_CTL_ERR_IRQ_EN) { count := c.folded, coal := true }

/-- COALESCE_WINDOW_END: the 1 s window of a page and bit ends, that of ERR_STS as those of LINK_EVT and FAB_EVT. -/
def coalesceWindowEnd (p : Page) (bit : Fin 32) (s : State) : State :=
  foldOver [0, 1, 2] (fun k s => s.endWindow p bit.val k) s

/-- ERR_CONS: beyond ERR_PROD it is ignored and CFG_BAD set. -/
def errCons (_m : Master) (h : Half) (value : Word) (s : State) : State :=
  let p : Page := .comb h
  if !s.answers p then s
  else if s.isSet p R.hdr.BLK_STS_RESET_BUSY then s.stateErr p
  else if decide ((value.toNat + 2 ^ 32 - s.getF p R.comb.ERR_CONS_CONS) % 2 ^ 32 > s.ringUsed h) then s.setF p R.comb.ERR_RING_STS_CFG_BAD 1
  else (s.setF p R.comb.ERR_CONS_CONS value.toNat).ringSts h

/-- The programmed ring can run: 6 to 16, and wholly in mapped memory (its base is 4 KiB aligned by its field). -/
def State.ringOk (s : State) (h : Half) (log : Nat) : Bool :=
  let p : Page := .comb h
  let base := s.getF p R.comb.ERR_RING_LO_ADDR * 2 ^ 12 + s.getF p R.comb.ERR_RING_HI_ADDR * 2 ^ 32
  decide (6 ≤ log && log ≤ 16) && (List.range (2 ^ (log - 6))).all (fun i => s.mapped (base + 4096 * i))

/-- ERR_RING_CTL. -/
def errRingCtl (_m : Master) (h : Half) (value : Word) (s : State) : State :=
  let p : Page := .comb h
  let log := bits value.toNat 4 0
  let on := bit value.toNat 31
  if !s.answers p then s
  else if s.isSet p R.hdr.BLK_STS_RESET_BUSY then s.stateErr p
  else if s.isSet p R.comb.ERR_RING_CTL_ENABLE then
    if log ≠ s.getF p R.comb.ERR_RING_CTL_LOG2 then s.stateErr p
    else s.setF p R.comb.ERR_RING_CTL_ENABLE (if on then 1 else 0)
  else
    let s := (s.setF p R.comb.ERR_RING_CTL_LOG2 log).ringSts h
    if !on then s
    else if s.ringOk h log then s.setF p R.comb.ERR_RING_CTL_ENABLE 1
    else s.setF p R.comb.ERR_RING_STS_CFG_BAD 1

/-! ## Injection -/

/-- ERR_STS bits of a page that are not RSVD; the tables mark the bits that the global pages alone, or the half pages alone, have. -/
def errBits (p : Page) : Nat :=
  let m := accMask p [.rw1c] 0x10
  match p with
  | .therm _ => m &&& (0x1C000 ^^^ 0xFFFFFFFF)
  | .gPwr => m &&& (0x4000 ^^^ 0xFFFFFFFF)
  | .pwr _ => m &&& (0x3F00 ^^^ 0xFFFFFFFF)
  | .gClk => m &&& (0x300 ^^^ 0xFFFFFFFF)
  | .clk _ => m &&& (0x400 ^^^ 0xFFFFFFFF)
  | .cal _ => m &&& (0xC00 ^^^ 0xFFFFFFFF)
  | .hinge _ _ => m &&& (0x200 ^^^ 0xFFFFFFFF)
  | _ => m

/-- ERR_INJ_WRITE: ignored while injection is disabled. -/
def errInjWrite (m : Master) (p : Page) (value : Word) (s : State) : State :=
  if !s.answers p then s
  else if foreignPage m p then s.pageReject m p
  else if s.isSet .sec R.sec.SEC_CTL_INJ_DIS then s
  else s.setFs p [(R.hdr.ERR_INJ_ARM, bits value.toNat 31 31), (R.hdr.ERR_INJ_BIT, bits value.toNat 4 0)]

/-- Bits whose injection waits for a data event: the command of that event fires it (02 R80, 03 R110, 04 R140 to R142, 05 R170, R171,
06 R207, 09 R302, R315, 10 R335, 11 R363, 12 R392, 13 R417). -/
def waitsForData : Page → List Nat
  | .cell _ _ => [9, 10, 11, 12, 13]
  | .seq _ => [12]
  | .comb _ => [9, 10]
  | .hbmc _ _ | .ddrc _ _ => [8, 9]
  | .noc _ _ => [9, 10]
  | .hinge _ _ | .ucie _ _ => [10]
  | .oe _ _ => [12]
  | .pcie _ => [11]
  | .mbx _ => [8]
  | .ck | .ctrlch _ => [8]
  | .therm _ => [11]
  | .gCal | .cal _ => [8]
  | .sec => [11]
  | _ => []

/-- Cost class of an injected event (14 Table 14.2). The class of a rail or PLL event depends on the unit, which an injection does not name: a
free choice among the classes of the units (assumption 1). -/
def State.injCost (s : State) (p : Page) (n : Nat) : Nat :=
  match p, n with
  | .comb _, 12 => 4
  | .hbmc _ _, 11 => 2
  | .hbmc _ _, 13 => 5
  | .ddrc _ _, 11 => 5
  | .ddrc _ _, 13 => 4
  | .hinge _ _, 11 | .ucie _ _, 11 => 1
  | .hinge _ _, 12 | .ucie _ _, 12 => 2
  | .hinge _ _, 13 | .ucie _ _, 13 => 2
  | .ucie _ _, 9 => 2
  | .fwall _, 9 => 4
  | .oe _ _, 9 => 4
  | .laser _ _, 11 => 4
  | .laser _ _, 13 => 2
  | .pcie _, 9 | .pcie _, 10 => 4
  | .pcie _, 14 => 2
  | .ck, 10 | .ctrlch _, 10 | .ck, 15 | .ctrlch _, 15 => 6
  | .ck, 11 | .ctrlch _, 11 => if s.bypassUp = 0 then 5 else 4
  | .ck, 12 | .ctrlch _, 12 => 5
  | .pwr _, 14 | .clk _, 8 => nth 0 [0, 4, 5] (s.freeAhead 0 % 3)
  | _, _ => 0

/-- A fade of the lowest lit data laser: its hand-over is real (06 R209). -/
def State.injectFade (s : State) (h : Half) (o : Fin 8) : State :=
  match (List.range 16).find? (fun n => s.laserSt h o n = 3) with
  | none => s
  | some n =>
    let s := s.err (.laser h o) 8 { info := bytesOf 2 (64 * halfNo h + 8 * o.val) ++ bytesOf 1 0 ++ bytesOf 1 n, inj := true }
    if s.handingOver h o n none then s
    else
      let x := s.oe h o.val
      match x.ho with
      | none => (s.beginHandOver h o n none).endHandOver h o
      | some _ => s.setOe h o.val { x with queue := x.queue ++ [(n, none)] }

/-- INJECTION_FIRE: an RSVD bit clears ARM; the marker bit sets itself; a bit that waits for a data event stays armed; every other bit takes
the path of the real event. -/
def injectionFire (p : Page) (s : State) : State :=
  let n := s.getF p R.hdr.ERR_INJ_BIT
  if !s.answers p || !s.isSet p R.hdr.ERR_INJ_ARM || (waitsForData p).contains n then s
  else
    let s := s.disarm p
    if !bit (errBits p) n then s
    else if n = 2 then s.setF p R.hdr.ERR_STS_INJECTED 1
    else
      match p, n with
      | .oport h i, 8 => s.lightLost ⟨h, i⟩ true
      | .laser h o, 8 => s.injectFade h o
      | .hbmc h i, 14 => (s.failStack h i.val true).releaseHeld
      | .fwall h, 8 => (s.drawn 2).violation h 0 (s.freeAhead 0 % 4) (s.freeAhead 1 % 2 ^ 52) true
      | _, _ => (s.err p n { cost := s.injCost p n, status := if n = 0 then 1 else 0, inj := true }).drawn 1

end Sys2Proof.Machine
end

