-- ==== Sys2Proof/Machine/Matrix.lean ====
section
/-! DEFINITION. MMA (02 R48 to R54, R62, R72): operand layouts, passes, the fixed-point and the FP32 path. -/

namespace Sys2Proof.Machine

/-- One operand of an MMA as its bytes: elements, metadata (sparse A alone), scales (block formats). -/
structure MmaSrc where
  fmt   : Nat
  spa   : Bool
  elems : List Byte
  meta_ : List Byte
  scales : List Byte
deriving DecidableEq, Repr

/-- Bytes of each area of an operand of n chunks (R72). -/
def mmaChunk (fmt : Nat) (spa : Bool) : Nat := if spa then chunkBytes fmt / 2 else chunkBytes fmt

def mmaLines (fmt : Nat) (spa : Bool) (n : Nat) : Nat :=
  linesFor (n * mmaChunk fmt spa) + (if spa then linesFor (4 * n) else 0) + (if isBlock fmt then linesFor n else 0)

/-- Read an operand of n chunks from a first line. -/
def mmaRead (x : CellSt) (u : CUnit) (stamp line fmt : Nat) (spa : Bool) (n : Nat) : MmaSrc :=
  let l1 := line + linesFor (n * mmaChunk fmt spa)
  let l2 := l1 + (if spa then linesFor (4 * n) else 0)
  { fmt := fmt, spa := spa
    elems := csBytes x (some u) stamp line (n * mmaChunk fmt spa)
    meta_ := if spa then csBytes x (some u) stamp l1 (4 * n) else []
    scales := if isBlock fmt then csBytes x (some u) stamp l2 n else [] }

/-- Scale byte of chunk (s, r); formats without scales have 2^0. -/
def mmaScale (m : MmaSrc) (s r : Nat) : Nat := if isBlock m.fmt then (nth 0 m.scales (128 * s + r)).toNat else 127

/-- Element code j of the stored elements of chunk (s, r). -/
def mmaCode (m : MmaSrc) (s r j : Nat) : Nat :=
  let b := mmaChunk m.fmt m.spa
  bits (natOf ((m.elems.drop ((128 * s + r) * b)).take b)) (fmtBits m.fmt * j + fmtBits m.fmt - 1) (fmtBits m.fmt * j)

/-- Metadata code of group g of chunk (s, r). -/
def mmaMeta (m : MmaSrc) (s r g : Nat) : Nat := bits (natOf ((m.meta_.drop (4 * (128 * s + r))).take 4)) (4 * g + 3) (4 * g)

/-- The products of step s for row r and column c, in increasing k: codes of A and B. A sparse group with a code of 6 to 15
contributes none (R62). -/
def mmaProducts (a b : MmaSrc) (s r c : Nat) : List (Nat × Nat) :=
  if a.spa then
    (List.range 8).flatMap fun g =>
      match metaPos (mmaMeta a s r g) with
      | none => []
      | some (p, q) => [(mmaCode a s r (2 * g), mmaCode b s c (4 * g + p)), (mmaCode a s r (2 * g + 1), mmaCode b s c (4 * g + q))]
  else (List.range 32).map (fun k => (mmaCode a s r k, mmaCode b s c k))

/-- Groups of a sparse operand whose code is 6 to 15; each is an event of its own (R62; 01 R34; assumption 42). -/
def mmaBadCount (a : MmaSrc) (steps : Nat) : Nat :=
  if a.spa then
    ((List.range steps).flatMap fun s => (List.range 128).flatMap fun r => (List.range 8).filter fun g =>
      (metaPos (mmaMeta a s r g)).isNone).length
  else 0

/-- Metadata with the code of group g set to 15. -/
def badGroup (m : List Byte) (g : Nat) : List Byte :=
  match m.drop (g / 2) with
  | [] => m
  | x :: t => m.take (g / 2) ++ (x ||| (if g % 2 = 0 then 0x0F else 0xF0)) :: t

/-- Floor of v · 2^e over 2^lsb: two's complement truncation (R51). -/
def truncTo (v : Int) (e lsb : Int) : Int :=
  if lsb ≤ e then v * 2 ^ (e - lsb).toNat else v / (2 ^ (lsb - e).toNat : Nat)

/-- What a pass has accumulated for one output: fixed-point parts P and Q, and the three flags of R52. -/
structure PassAcc where
  p : Int
  q : Int
  nan : Bool
  pinf : Bool
  ninf : Bool
deriving DecidableEq, Repr

/-- One product of floating-point or integer elements enters at its block's combined exponent. -/
def accProduct (fa fb : Nat) (comb lsb : Int) (acc : PassAcc) (ab : Nat × Nat) : PassAcc :=
  match mulNum (decodeElem fa ab.1) (decodeElem fb ab.2) with
  | .nan => { acc with nan := true }
  | .inf neg => if neg then { acc with ninf := true } else { acc with pinf := true }
  | .fin neg m e => { acc with p := acc.p + truncTo (numSigned neg m) (e + comb) lsb }

/-- The exact P or Q part of one LB4 product, as an integer times 2^-7 (R48). -/
def lb4Part (odd : Bool) (ab : Nat × Nat) : Int :=
  let ca := ab.1 % 8
  let cb := ab.2 % 8
  if ca = 0 || cb = 0 then 0
  else
    let t := ca + cb          -- the exponent is t − 14 half-octaves
    if (t % 2 = 1) != odd then 0
    else
      let m : Int := 2 ^ (t / 2)      -- 2^((t − 14)/2) · 2^7, and for odd t 2^((t − 15)/2) · 2^7
      if (bit ab.1 3) != (bit ab.2 3) then -m else m

/-- Pre-sum of a group of four adjacent LB4 products, each part truncated once (R51). -/
def accLb4 (comb lsb : Int) : Nat → List (Nat × Nat) → PassAcc → PassAcc
  | 0, _, acc => acc
  | n + 1, l, acc =>
    let g := l.take 4
    let p := (g.map (lb4Part false)).sum
    let q := (g.map (lb4Part true)).sum
    accLb4 comb lsb n (l.drop 4)
      { acc with p := acc.p + truncTo p (comb - 7) lsb, q := acc.q + truncTo q (comb - 7) lsb }

/-- s2 of R53 as an integer times 2^-64. -/
def s2Const : Int := 2 ^ 64 + 0x6A09E667F3BCC909

/-- Combined exponents of a pass's blocks whose scales are not 0xFF. -/
def combExp (a b : MmaSrc) (r c s : Nat) : Option Int :=
  let xa := mmaScale a s r
  let xb := mmaScale b s c
  if xa = 255 || xb = 255 then none else some ((xa : Int) - 127 + (xb - 127))

/-- The largest of a list, 0 for none. -/
def maxInt : List Int → Int
  | [] => 0
  | x :: t => t.foldl max x

/-- One pass over the given steps in fixed point: the result as an exact value, and the flags (R51 to R53). -/
def passFixed (a b : MmaSrc) (pmin : Int) (w : Nat) (steps : List Nat) (r c : Nat) : Num × Nat :=
  let anchor := maxInt (steps.filterMap (combExp a b r c))
  let lsb := anchor + pmin - w
  let acc := steps.foldl (fun acc s =>
    match combExp a b r c s with
    | none => { acc with nan := true }
    | some comb =>
      let pr := mmaProducts a b s r c
      if a.fmt = 12 then accLb4 comb lsb 8 pr acc else pr.foldl (accProduct a.fmt b.fmt comb lsb) acc)
    (⟨0, 0, false, false, false⟩ : PassAcc)
  let low := (steps.filterMap (combExp a b r c)).any (fun e => e < anchor - w)
  let v : Num :=
    if acc.nan || (acc.pinf && acc.ninf) then .nan
    else if acc.pinf then .inf false
    else if acc.ninf then .inf true
    else if a.fmt = 12 then
      let i := acc.p * 2 ^ 64 + acc.q * s2Const
      .fin (i < 0) i.natAbs (lsb - 64)
    else .fin (acc.p < 0) acc.p.natAbs lsb
  (v, if low then flAccInexact else 0)

/-- One pass of the FP32 path: fused steps in increasing k (R54). -/
def passFp32 (a b : MmaSrc) (o : OMode) (steps : List Nat) (r c start : Nat) : Nat × Nat :=
  (steps.flatMap (fun s => mmaProducts a b s r c)).foldl (fun acc ab =>
    let v := addNum (mulNum (decodeElem a.fmt ab.1) (decodeElem b.fmt ab.2)) (decodeFp fp32 acc.1)
    let z := toFp32 o v
    (z.1, acc.2 ||| z.2)) (start, 0)

/-- The steps of pass p: 4,096 products, so 128 steps, or 256 where A is sparse (R49). -/
def passSteps (spa : Bool) (steps p : Nat) : List Nat :=
  let n := if spa then 256 else 128
  (List.range (min n (steps - p * n))).map (· + p * n)

def passCount (spa : Bool) (steps : Nat) : Nat :=
  let n := if spa then 256 else 128
  (steps + n - 1) / n

/-- One output element over all passes: the code of C and the flags (R49). The first pass is written where ACC is 0, later ones
are added with RNE; NAN_OUT belongs to the code that is written. -/
def mmaElem (a b : MmaSrc) (o : OMode) (acc : Bool) (steps r c cOld : Nat) : Nat × Nat :=
  let fp := a.fmt = 1 || a.fmt = 2
  let win := (pairWindow a.fmt b.fmt).getD (0, 0)
  let z := (List.range (passCount a.spa steps)).foldl (fun (z : Nat × Nat) p =>
    let ss := passSteps a.spa steps p
    let first := p = 0 && !acc
    if fp then
      let y := passFp32 a b o ss r c (if first then 0 else z.1)
      (y.1, z.2 ||| y.2)
    else
      let v := passFixed a b win.1 win.2 ss r c
      let y := toFp32 o v.1
      if first then (y.1, z.2 ||| v.2 ||| y.2)
      else
        let t := toFp32 o (addNum (decodeFp fp32 z.1) (decodeFp fp32 y.1))
        (t.1, z.2 ||| v.2 ||| y.2 ||| t.2)) (cOld, 0)
  let fl := z.2 &&& (0x7F ^^^ flNanOut)
  (z.1, if decodeFp fp32 z.1 = .nan then fl ||| flNanOut else fl)

/-- Effect of an MMA that met no error. An injected SPARSE_META falls on one sparse group, which contributes zero (R80; 14 R429); which group is
the next one is a free choice (assumption 42). -/
def mmaRun (i : Iss) (la lb lc fa fb steps : Nat) (acc spa : Bool) (u : CUnit) (s : State) : State :=
  let p := cellPage i.h i.c
  let n := 128 * steps
  let a0 := mmaRead i.x u i.stamp la fa spa n
  let inj := spa && s.armed p 12
  let a := if inj then { a0 with meta_ := badGroup a0.meta_ (s.freeAhead 0 % (1024 * steps)) } else a0
  let b := mmaRead i.x u i.stamp lb fb false n
  let o := ovfMode i.k.dovf 0
  let old := csBytes i.x (some u) i.stamp lc 65536
  let res := (List.range 16384).map (fun j =>
    mmaElem a b o acc steps (j / 128) (j % 128) (natOf ((old.drop (4 * j)).take 4)))
  let fl := res.foldl (fun m e => m ||| e.2) 0
  let s := if inj then ((s.disarm p).drawn 1).err p 12 { inj := true } else s
  let s := foldOver (List.range (mmaBadCount a0 steps)) (fun _ (s : State) => s.err p 12) s
  let s := s.cellFlags i.h i.c fl
  s.enqueue i u i.x
    { tok := none, lines := csLines i.x (some u) i.stamp lc (res.flatMap (fun e => bytesOf 4 e.1)), stores := [], hint := 0,
      load := false, passes := passCount spa steps }

/-- MMA: checks, matrix-engine parity, then the result (R49, R50, R62, R73, R80). -/
def mmaAct (i : Iss) (s : State) : State :=
  let w := i.w
  let p := cellPage i.h i.c
  let fa := bits w 37 34
  let fb := bits w 33 30
  let steps := bits w 29 18 + 1
  let spa := bit w 15
  let u : CUnit := if bit w 17 then .me1 else .me0
  let la := csOperand i.x (bits w 100 80)
  let lb := csOperand i.x (bits w 79 59)
  let lc := csOperand i.x (bits w 58 38)
  let na := mmaLines fa spa (128 * steps)
  let nb := mmaLines fb false (128 * steps)
  i.guard (causes
    [(bits w 14 0 ≠ 0, 2),
     ((pairWindow fa fb).isNone || (spa && !(fa = 3 || fa = 4 || fa = 5 || fa = 6 || fa = 10 || fa = 11)), 3),
     (la + na > 65536 || lb + nb > 65536 || lc + 1024 > 65536, 4),
     (overlap lc 1024 la na || overlap lc 1024 lb nb, 5)])
    (fun s =>
      if i.e = .meParity then i.failRun u (lineDst lc 1024) 0xD false (s.injFatal i.h i.c 0xD)
      else if s.armed p 11 then i.failRun u (lineDst lc 1024) 0xD true (s.disarm p)
      else i.readCs u (lineDst lc 1024) (mmaRun i la lb lc fa fb steps (bit w 16) spa u) s) s

def mma (h : Half) (c : Fin 288) (e : HwEvent) (s : State) : State := issue 0x01 h c e mmaAct s

end Sys2Proof.Machine
end

