-- ==== Sys2Proof/Machine/Regs.lean ====
section
/-! DEFINITION. Accesses to BAR0: what a read shows, writes by access code, block resets, locks (00 R8 to R10; 01 R29 to R36; 09 R289, R302 to
R304). -/

namespace Sys2Proof.Machine

/-- A master reaches the block pages: the debug port does with bit 1 of the mask of an unlock, never while it is locked (13 R405, R406). -/
def State.reaches (s : State) (m : Master) : Bool :=
  match m with
  | .debug => (match s.sec.mask with
    | some k => bit k 1
    | none => false)
  | _ => true

/-! ## What a read shows -/

/-- A signed number in w bits. -/
def signed (w : Nat) (x : Int) : Nat := (BitVec.ofInt w x).toNat

/-- Fields as one word: value and low bit. -/
def word (l : List (Nat × Nat)) : Word := BitVec.ofNat 32 (l.foldl (fun a e => a + e.1 * 2 ^ e.2) 0)

def flag (b : Bool) : Nat := if b then 1 else 0

/-- The fabric registers that show tables (08 Table 8.17). -/
def State.fabView (s : State) (h : Half) (o : Nat) : Option Word :=
  let p : Page := .comb h
  let e := s.partners.find? (fun e => e.1 = s.getF p R.comb.PT_SEL_INDEX)
  let show_ := fun (f : PEntry → Word) => some (match e with
    | some x => f x.2
    | none => 0)
  match o with
  | 0x40C => some (word [((s.reqs.filter (fun e => e.1 / 16384 = halfNo h)).length, 0)])
  | 0x410 => some (word [((s.rcache.filter (fun e => e.half = h)).length, 0)])
  | 0x414 => some (word [(s.partners.length, 0)])
  | 0x41C => some (word ((List.range 4).zip (mget [] s.transit (s.getF p R.comb.XT_SEL_DFID)) |>.map (fun e => (e.2, 8 * e.1))))
  | 0x424 => show_ (fun x => word [(x.fid, 0), (x.ver, 16), (x.st, 28)])
  | 0x428 => show_ (fun x => word [(x.ports.headD 0, 0), (flag (!x.ports.isEmpty), 7), (x.cls, 8), (x.caps, 16)])
  | 0x42C => show_ (fun x => word [(x.uid % 2 ^ 32, 0)])
  | 0x430 => show_ (fun x => word [(x.uid / 2 ^ 32, 0)])
  | 0x434 => show_ (fun x => word [(x.session, 0)])
  | _ =>
    if 0xC00 ≤ o && o < 0xC20 then
      let p := (o - 0xC00) / 4
      some (if s.loaded h p then word [((s.fctxOf h p).cons, 0), (1, 28)] else 0)
    else none

/-- The firewall window that FW_SEL selects (05 Table 5.15). -/
def State.winView (s : State) (h : Half) (o : Nat) : Option Word :=
  let n := s.getF (.fwall h) R.fwall.FW_SEL_WIN
  let w := if n < 17 then s.fwWin h (s.getF (.fwall h) R.fwall.FW_SEL_OE) n else ⟨0, 0, false, false, false⟩
  match o with
  | 0x104 => some (word [(w.base.toNat % 2 ^ 32, 0)])
  | 0x108 => some (word [(w.base.toNat / 2 ^ 32, 0)])
  | 0x10C => some (word [(w.limit.toNat % 2 ^ 32, 0)])
  | 0x110 => some (word [(w.limit.toNat / 2 ^ 32, 0)])
  | 0x114 => some (word [(flag w.rd, 0), (flag w.wr, 1), (flag w.valid, 2)])
  | _ => none

/-- The last run of the instance that CAL_SEL selects (12 Table 12.11). CAL_AGE is a free value once a run has passed (assumption 1). -/
def State.calView (s : State) (p : Page) (o : Nat) : Option Word :=
  let x := s.calRec p (s.getF p R.cal.CAL_SEL_ID) (s.getF p R.cal.CAL_SEL_INST)
  match o with
  | 0x104 => some (word [(min x.runs 65535, 0), (x.elem, 16), (flag x.traced, 27), (x.result, 28)])
  | 0x108 => some (word [(signed 32 x.q, 0)])
  | 0x10C => some (if x.passed then BitVec.ofNat 32 (s.freeAhead 0) else 0xFFFFFFFF)
  | 0x110 => some (word [(min x.pause 65535, 0)])
  | _ => none

/-- The sensor that SENS_SEL selects, in 1/16 °C (11 Table 11.15). -/
def State.sensView (s : State) (h : Half) : Word :=
  let k := 540 * halfNo h + s.getF (.therm h) R.therm.SENS_SEL_INDEX
  word [(signed 16 (2 * mget 0 s.sens k), 0), (flag (s.excl.contains k), 31)]

/-- The channel that CH_SEL selects, and the registers that a bond shows on its lowest member alone (06 Table 6.15, 07 R244). -/
def State.oportView (s : State) (p : PortId) (o : Nat) : Option Word :=
  let c := s.getF p.page R.oport.CH_SEL_CH
  let x := s.port p
  if 0x208 ≤ o && o ≤ 0x238 && s.lead p ≠ p then some 0
  else
    match o with
    | 0x128 => some (word [((mget (0 : BitVec 16) x.rxOma c).toNat, 0), ((mget (0 : BitVec 16) x.oma c).toNat, 16)])
    | 0x12C =>
      let r := s.ring1 p.half p.oe.val (ringKey (p.i.val % 8) false (s.rxRing p c))
      some (word [(min r.heater 65535, 0), (signed 8 (max (-128) (min 127 r.ofs)), 16), (mget 0 x.att c % 256, 24)])
    | _ => none

/-- A cell's present clock, 600 MHz while its die is gated to a duty (11 R342), and its busy cycles, free values (02 Table 2.19). -/
def State.cellView (s : State) (h : Half) (c o : Nat) : Option Word :=
  if s.isSet (cellPage h c) R.hdr.BLK_STS_RESET_BUSY then none
  else
    match o with
    | 0x104 =>
      let q := c / 72
      some (word [(if s.getF (.clk h) (R.clk.CEIL_DUTY.ix q) < 15 then 600 else s.getF (.clk h) (R.clk.CEIL_MHZ.ix q), 0)])
    | 0x118 => some (BitVec.ofNat 32 (s.freeAhead 0))
    | 0x11C => some (BitVec.ofNat 32 (s.freeAhead 1))
    | _ => none

/-- A queue's state and CONS (03 Table 3.18). -/
def State.queueView (s : State) (h : Half) (q : Nat) : Word :=
  let x := s.queue h q
  word [(x.cons, 0), (x.st, 28)]

/-- The present clock of a domain in MHz (11 Table 11.6): none while it is off or gated (DEDUCED, assumption 90); free where the spec names no clock. -/
def State.domMhz (s : State) (h : Half) (k : Nat) : Nat :=
  let open_ := s.freeAhead 0
  match s.dom h k with
  | 0 | 1 => 0
  | 3 => open_
  | _ =>
    if k < 4 then s.getF (.clk h) (R.clk.CEIL_MHZ.ix k)
    else if k < 8 then 2000
    else if k < 20 then
      let st := s.getF (.hbmc h (Fin.ofNat 12 (k - 8))) R.hbmc.BLK_STS_STATE
      if st = 3 then 1200 else if st = 1 || st = 2 || st = 4 then 800 else open_
    else if k < 28 then (if s.getF (.ddrc h (Fin.ofNat 8 (k - 20))) R.ddrc.DIMM_CFG_MTS = 64 then 1600 else open_)
    else if k < 36 then (if s.oeRate h (Fin.ofNat 8 (k - 28)) = 3 then 1000 else open_)
    else if k < 38 then 1000
    else 1200

/-- DOMk: state, lock and present clock. -/
def State.domView (s : State) (h : Half) (k : Nat) (w : Word) : Word := putBits w 15 0 (s.domMhz h k)

/-- The word a 32-bit read of an offset gives. A page that no block occupies reads 0, one that cannot answer all ones (01 R29, R30). TIME,
KTIME, ENERGY, a cell's busy cycles, the voltage of VIN48 and a rail's voltage and current are free values (assumption 1). -/
def State.view (s : State) (p : Page) (o : Nat) : Word :=
  if !s.answers p then 0xFFFFFFFF
  else
    let other := s.readReg p o
    match p with
    | .comb h => (s.fabView h o).getD other
    | .fwall h => (s.winView h o).getD other
    | .gCal | .cal _ => (s.calView p o).getD other
    | .hbmc h i => if o = 0x11C then word [((s.pprOf h i.val).1, 8), (s.pprLeft h i.val, 0)] else other
    | .cell h c => (s.cellView h c.val o).getD other
    | .therm h => if o = 0x204 then s.sensView h else other
    | .oport h i => (s.oportView ⟨h, i⟩ o).getD other
    | .oe h k => if o = 0xC && (oePorts h k).any (fun q => s.ostate q = 2) then other ||| BitVec.ofNat 32 (2 ^ 11) else other
    | .ck | .ctrlch _ => if o = 0x100 then BitVec.ofNat 32 s.ccSts else other
    | .seq h =>
      if o = 0x120 || o = 0x124 then BitVec.ofNat 32 (s.freeAhead ((o - 0x120) / 4))
      else if 0x800 ≤ o then s.queueView h ((o - 0x800) / 4)
      else if o = 0x114 then BitVec.ofNat 32 (s.sem (s.getF p R.seq.SEM_SEL_INDEX))
      else other
    | .clk h => if 0x100 ≤ o && o < 0x19C then s.domView h ((o - 0x100) / 4) other else other
    | .pwr _ => if 0x104 ≤ o && o < 0x12C then BitVec.ofNat 32 (s.freeAhead ((o - 0x104) / 4)) else other
    | .gPwr => if o = 0x100 then putBits other 31 16 (s.freeAhead 0)
      else if o = 0x114 || o = 0x118 then BitVec.ofNat 32 (s.freeAhead ((o - 0x114) / 4)) else other
    | .gClk => if o = 0x104 || o = 0x108 then BitVec.ofNat 32 (s.freeAhead ((o - 0x104) / 4)) else other
    | _ => other

/-- A word of a function's own MSI-X table or pending-bit array (09 R289). -/
def State.msixView (s : State) (f : Fn) (a : Nat) : Word :=
  let k := (a - 0x800000) / 4
  if k < 0x2000 then mget (if k % 4 = 3 then 1 else 0) (s.fnst f).msix k
  else word (((List.range 32).filter (fun i => (s.fnst f).pba.contains (32 * (k - 0x2000) + i))).map (fun i => (1, i)))

/-- The word a 32-bit read of a BAR0 offset gives a master: a page's, a function's own MSI-X structures', 0 elsewhere (01 R29; 09 R289). -/
def State.readBar (s : State) (m : Master) (a : Nat) : Word :=
  match pageOf a, masterFn m with
  | some p, _ => s.view p (a % 0x1000)
  | none, some f => if 0x800000 ≤ a && a < 0x808100 then s.msixView f a else 0
  | none, none => 0

/-- BAD_SIZE_ACCESS: no effect; a read returns all ones. -/
def badSizeAccess (m : Master) (addr _size : Nat) (write : Bool) (s : State) : State :=
  if write then s else s.emit (.readValue m addr 0xFFFFFFFF)

/-- The latch of a master for the high word of the register at an address. -/
def latchKey (m : Master) (addr : Nat) : Nat := 2 ^ 28 * masterId m + addr + 4

/-- LATCHED_LOW_READ: reads of the 64-bit register at an address (R8). A read of the low word latches the high word for the master; its next read
of the high word returns the latched value, any other the present one; a 64-bit read is one atomic access. -/
def latchedLowRead (m : Master) (r : LowRead) (s : State) : State :=
  let addr := r.addr
  match pageOf addr with
  | none => s
  | some p =>
    let lo := (s.readBar m addr).toNat
    let hi := s.view p (addr % 0x1000 + 4)
    match r.form with
    | .low =>
      if !s.answers p then s.emit (.readValue m addr lo)
      else ((({ s with latch := mput s.latch (latchKey m addr) hi } : State).drawn 2).emit (.readValue m addr lo))
    | .high =>
      if !s.answers p then s.emit (.readValue m (addr + 4) hi.toNat)
      else if mhas s.latch (latchKey m addr) then
        ({ s with latch := merase s.latch (latchKey m addr) } : State).emit
          (.readValue m (addr + 4) (mget (0 : Word) s.latch (latchKey m addr)).toNat)
      else (s.drawn 2).emit (.readValue m (addr + 4) hi.toNat)
    | .wide => (s.drawn 2).emit (.readValue m addr (lo + 2 ^ 32 * hi.toNat))

/-! ## Writes -/

/-- Bits of a register that a row of their own writes: resets, doorbells, locks, ERR_INJ, and each block's commands. A write of such bits is
that row's command; REGISTER_WRITE leaves them. -/
def rowBits : Page → Nat → Nat
  | p, o =>
    if o = 0x1C || o = 0x24 || o = 0x28 || o = 0x2C then 0xFFFFFFFF
    else
      match p with
      | .keeper => if o = 0x208 then 0xFFFF else 0
      | .mbx _ => if 0x200 ≤ o && o < 0x400 then 0xFFFFFFFF else 0
      | .comb _ =>
        if (0x120 ≤ o && o ≤ 0x130) || o = 0x408 || o = 0x708 || o = 0x710 then 0xFFFFFFFF
        else if 0x518 ≤ o && o < 0x618 && (o - 0x518) % 0x20 = 0 then 0xFFFFFFFF
        else 0
      | .ucie _ _ => if o = 8 then 1 else 0
      | .seq _ => if o = 8 then 1 else if o = 0x100 || o = 0x104 || o = 0x114 then 0xFFFFFFFF else 0
      | .oe _ _ => if o = 0x118 then 0xFFFFFFFF else 0
      | .oport _ _ => if o = 8 then 0x100 else 0
      | .laser _ _ => if o = 0x150 then 0x1F00 else 0
      | .gPwr => if o = 0x104 then 0xFFFF else 0
      | .clk _ => if o = 0x1B0 then 0x7FF else 0
      | _ => 0

/-- The register takes no write now: the error ring's base while the ring runs (14 R432). -/
def State.writeHeld (s : State) (p : Page) (o : Nat) : Bool :=
  match p with
  | .comb _ => (o = 0x700 || o = 0x704) && s.isSet p R.comb.ERR_RING_CTL_ENABLE
  | _ => false

/-- The write is ignored: FDB_MASK and FDB_STS by the host (09 R315), a CPL_TMO of 0 (09 Table 9.10). -/
def writeIgnored (m : Master) (p : Page) (o v : Nat) : Bool :=
  match p with
  | .mbx _ => (o = 0x114 || o = 0x118) && (masterFn m).isSome
  | .pcie _ => o = 0x130 && v % 1024 = 0
  | _ => false

/-- Act on each bit by its access code: RW takes the value, a 1 clears RW1C; RO, RSVD and the bits of other rows stay. -/
def State.codeWrite (s : State) (p : Page) (o v : Nat) : State :=
  let old := (s.reg (pageBase p + o)).toNat
  let mine := rowBits p o ^^^ 0xFFFFFFFF
  let rw := accMask p [.rw] o &&& mine
  let rc := accMask p [.rw1c] o &&& mine
  s.setReg (pageBase p + o) (BitVec.ofNat 32 (((old &&& (rw ^^^ 0xFFFFFFFF)) ||| (v &&& rw)) &&& ((v &&& rc) ^^^ 0xFFFFFFFF)))

/-- What a write brings with it: an unknown PART_CTL command sets Q_CMD_BAD (03 Table 3.18) and
STATE_ERR (R107); unmasking a pending firmware doorbell raises its
interrupt (01 R36); EN = 1 on a disabled module trains it (assumption 41). -/
def State.writeActs (s : State) (was : State) (p : Page) (o v : Nat) : State :=
  match p with
  | .seq _ =>
    if 0x14C ≤ o && o < 0x1CC && (o - 0x14C) % 16 = 0 && !(v % 16 = 1 || v % 16 = 2) then (s.err p 9).stateErr p else s
  | .mbx _ =>
    if o = 0x114 && was.getF p R.mbx.FDB_MASK_MASK &&& (v ^^^ 0xFFFFFFFF) &&& s.getF p R.mbx.FDB_STS_STS ≠ 0 then s.emit (.irq p) else s
  | .ucie h k =>
    if o = 8 && bit v 0 && !s.isSet p ucieEn then (let s := s.setFs p [(ucieEn, 1), (R.dlink.BLK_STS_STATE, ucRESET)]
       if s.isSet p R.hdr.BLK_STS_RESET_BUSY then s else s.trainModule h k) else s
  | _ => s

/-- A 32-bit write to a page. -/
def State.pageWrite (s : State) (m : Master) (p : Page) (o v : Nat) : State :=
  if !s.answers p || !occupied p o then s
  else if 0x100 ≤ o && s.isSet p R.hdr.BLK_STS_RESET_BUSY then s.stateErr p
  else if foreignPage m p then s.pageReject m p
  else if s.writeHeld p o then s.stateErr p
  else if writeIgnored m p o v then s
  else (s.codeWrite p o v).writeActs s p o v

/-- A 32-bit write to BAR0: a function's own MSI-X table (09 R289), a page, or nothing. -/
def State.barWrite (s : State) (m : Master) (a v : Nat) : State :=
  if 0x800000 ≤ a && a < 0x808000 then
    match masterFn m with
    | some f => if s.memOpen f then s.msixWrite f ((a - 0x800000) / 4) (BitVec.ofNat 32 v) else s
    | none => s
  else
    match pageOf a with
    | some p => s.pageWrite m p (a % 0x1000) v
    | none => s

/-- REGISTER_WRITE: a 64-bit access acts low word first; one that is not aligned has no effect (00 R8). -/
def registerWrite (m : Master) (addr : Nat) (wide : Bool) (value : BitVec 64) (s : State) : State :=
  if addr % (if wide then 8 else 4) ≠ 0 then s
  else
    let s := s.barWrite m addr (value.toNat % 2 ^ 32)
    if wide then s.barWrite m (addr + 4) (value.toNat / 2 ^ 32) else s

/-! ## Block reset (01 R33) -/

/-- BLOCK_RESET: cells, links between dies and OEs implement it; elsewhere the bit is RSVD. -/
def blockReset (m : Master) (p : Page) (s : State) : State :=
  match p with
  | .cell h c => cellReset m h c s
  | .hinge h b => hingeLinkReset m ⟨.hinge h b, []⟩ s
  | .ucie h k => hingeLinkReset m ⟨.ucie h k, []⟩ s
  | .oe h o => oeReset m h o s
  | _ => s

/-- A master that no longer exists: a sequencer or a function whose half or port is gone, a debug port without page access. -/
def State.masterGone (s : State) (id : Nat) : Bool :=
  if id = masterId .seqA then !s.halfUp .A
  else if id = masterId .seqB then !s.halfUp .B
  else if id = masterId .host0 then (s.carrier .f0).isNone
  else if id = masterId .host1 then (s.carrier .companion).isNone
  else if id = masterId .debug then !s.reaches .debug
  else false

/-- The lock of a page that returns from reset is free when its holder is gone (R304). -/
def State.freeLock (s : State) (p : Page) : State :=
  let id := s.getF p R.hdr.LOCK_OWNER
  if id ≠ 0 && s.masterGone id then s.dropLock p id else s

/-- BLOCK_RESET_DONE: RESET_BUSY clears, READY follows the block's state, a module trains. An OE returns at OE_RESET_DONE. -/
def blockResetDone (p : Page) (s : State) : State :=
  if !s.answers p || !s.isSet p R.hdr.BLK_STS_RESET_BUSY then s
  else
    match p with
    | .cell h c => ((s.setF p R.hdr.BLK_STS_RESET_BUSY 0).cellState h c.val (s.cst h c.val)).freeLock p
    | .ucie h k =>
      let s := (s.setF p R.hdr.BLK_STS_RESET_BUSY 0).setReady p
      (if s.isSet p ucieEn then s.trainModule h k else s).freeLock p
    | .hinge _ _ => ((s.setF p R.hdr.BLK_STS_RESET_BUSY 0).setReady p).freeLock p
    | .oe _ _ => s.freeLock p
    | _ => s

/-! ## Locks (09 R302, R303) -/

/-- LOCK_ACQUIRE: a read of LOCK takes a free lock; the holder's ID is returned. -/
def lockAcquire (m : Master) (p : Page) (s : State) : State :=
  let a := pageBase p + 0x20
  if !s.answers p then s.emit (.readValue m a 0xFFFFFFFF)
  else
    let id := s.getF p R.hdr.LOCK_OWNER
    if id = 0 then (s.setF p R.hdr.LOCK_OWNER (masterId m)).emit (.readValue m a (masterId m))
    else s.emit (.readValue m a id)

/-- LOCK_RELEASE: the holder frees the lock; any other master sets LOCK_ERR. -/
def lockRelease (m : Master) (p : Page) (s : State) : State :=
  if !s.answers p then s
  else if s.getF p R.hdr.LOCK_OWNER = masterId m then s.setF p R.hdr.LOCK_OWNER 0
  else s.err p 1

end Sys2Proof.Machine
end

