-- ==== Sys2Proof/Machine/Sec.lean ====
section
/-! DEFINITION. Security commands (13 R397 to R399, R404 to R407, R415): updates, counters, the measurement log, debug tokens, recovery,
SPDM, the test access port. -/

namespace Sys2Proof.Machine

/-! ## Updates and counters (R397, R398) -/

/-- The region that a TYPE code and an overlay index, or a region byte, name. -/
def regionOf (type ovl : Nat) : Option Region :=
  match type with
  | 1 => some .keeper
  | 2 => some .control
  | 3 => some .sequencer
  | 4 => some .base
  | 5 => if h : ovl < 16 then some (.overlay ⟨ovl, h⟩) else none
  | _ => none

def dropImage (n : Nor) (r : Region) : Nor := { n with images := n.images.filter (fun e => e.1 ≠ r) }

/-- The check of an update: R396, and no step back from the primary copy. -/
def State.updateCause (s : State) (r : Region) (x : Image) : Nat :=
  let c := s.imageCause r x
  if c ≠ 0 then c
  else if s.copyCause s.nv.prim r = 0 && decide (x.svn.toNat < ((norImage s.nv.prim r).map (·.svn.toNat)).getD 0) then 5
  else 0

/-- Write an image to both regions. A write that fails leaves its region erased; which of the two fails is a free choice. -/
def State.writeBoth (s : State) (r : Region) (x : Image) (ok : Bool) : State × Nat :=
  if ok then ({ s with nv := { s.nv with prim := putImage s.nv.prim r x, mirr := putImage s.nv.mirr r x } }, 0)
  else if s.freeAhead 0 % 2 = 0 then ({ s.drawn 1 with nv := { s.nv with prim := dropImage s.nv.prim r } }, 7)
  else ({ s.drawn 1 with nv := { s.nv with prim := putImage s.nv.prim r x, mirr := dropImage s.nv.mirr r } }, 7)

/-- FW_UPDATE: TYPE, overlay index, device address, length. A refused image is answered BAD_DESC with its cause (assumption 40). -/
def fwUpdate (i : Fin 32) (writeOk : Bool) (s : State) : State :=
  s.runtime i 0x60 true (· = 14) (fun j b s =>
    let body := msgBody b
    let addr := natOf ((body.drop 2).take 8)
    let len := natOf ((body.drop 10).take 4)
    match regionOf (byteAt body 0) (byteAt body 1) with
    | none => s.fwReply j b 2 []
    | some r =>
      if len < 512 || len > regionSize r || !((linesOf addr len).all (fun e => s.mapped e.1)) then s.fwReply j b 2 []
      else
        let (s, st, data) := s.memRead s.leader .host 1 addr len
        if st ≠ 0 then s.fwReply j b st []
        else
          let x := parseImage data
          let c := s.updateCause r x
          if c ≠ 0 then (s.showCause r c).fwReply j b 2 (bytesOf 1 c)
          else
            let (s, st) := (s.showCause r 0).writeBoth r x writeOk
            s.fwReply j b st (bytesOf 1 0))

/-- Images of a counter's group. -/
def groupRegions (g : Nat) : List Region := allRegions.filter (fun r => regionGroup r = g)

/-- SVN_COMMIT: refused above 64, above a valid copy of the group, or above a running image of it. -/
def svnCommit (i : Fin 32) (s : State) : State :=
  s.runtime i 0x61 true (· = 2) (fun j b s =>
    let g := byteAt (msgBody b) 0
    let v := byteAt (msgBody b) 1
    let rs := groupRegions g
    let copies := rs.flatMap (fun r => [s.nv.prim, s.nv.mirr].filterMap (fun n => if s.copyCause n r = 0 then norImage n r else none))
    let run := rs.filterMap s.inForce
    if g > 3 then s.fwReply j b 2 []
    else if v ≤ s.svn g then s.fwReply j b 0 []
    else if v > 64 || (copies ++ run).any (fun x => decide (v > x.svn.toNat)) then s.fwReply j b 1 []
    else
      let revoke := run.foldl (fun m x => m ||| ((x.flags.toNat / 16) &&& (15 ^^^ 2 ^ x.key.toNat))) s.sec.revoke
      let s := { s with sec := { s.sec with svn := mset 0 s.sec.svn g v, revoke := revoke } }
      let s := s.setFs .sec [(R.sec.SVN_VALUE.ix g, v), (R.sec.SEC_STS_REVOKED, revoke)]
      s.fwReply j b 0 [])

/-- GET_MEAS_LOG: up to two entries from an index. -/
def getMeasLog (i : Fin 32) (s : State) : State :=
  s.runtime i 0x62 true (· = 2) (fun j b s =>
    let l := (s.sec.log.drop (natOf ((msgBody b).take 2))).take 2
    s.fwReply j b 0 (bytesOf 1 l.length ++ l.flatten))

/-! ## Debug tokens (R406) -/

/-- The 32 bytes of a nonce by its stamp. -/
def nonceBytes (n : Nat) : List Byte := (List.range 32).map (Config.freeAt n)

/-- DEBUG_NONCE: a fresh nonce takes the place of the one before. -/
def debugNonce (i : Fin 32) (s : State) : State :=
  s.runtime i 0x63 true (· = 0) (fun j b s =>
    let n := s.fresh
    ({ s.drawn 1 with sec := { s.sec with nonce := some n } }).fwReply j b 0 (nonceBytes n))

/-- DEBUG_UNLOCK: a token for this device and nonce, signed by a root key that is not revoked, is stored for the next start. -/
def debugUnlock (i : Fin 32) (s : State) : State :=
  s.runtime i 0x64 true (· = 158) (fun j b s =>
    let t := msgBody b
    let mask := natOf ((t.drop 40).take 4)
    let nonceOk := match s.sec.nonce with
      | some n => (t.drop 8).take 32 = nonceBytes n
      | none => false
    let sigOk := (List.range 4).any (fun k => !bit s.sec.revoke k && Config.verify (Config.rootHash k) (t.take 44) ((t.drop 44).take 114))
    if Config.debugKill then s.fwReply j b 3 []
    else if mask ≥ 8 then s.fwReply j b 2 []
    else if !(natOf (t.take 8) = Config.uid.toNat && nonceOk && sigOk) then s.fwReply j b 3 []
    else ({ s with sec := { s.sec with token := some mask } }).fwReply j b 0 [])

/-! ## Recovery (R399) -/

/-- A recovery command over a binding: over I3C only. -/
def State.recovery (s : State) (b : Binding) (cmd : Nat) (act : State → State) : State :=
  if !s.reached b then s
  else match b with
    | .pcie _ => s.mgmtReply b cmd 3 []
    | .i3c => act s

/-- IMG_WRITE of 1 to 1,024 bytes into the mirror region; what lies between is erased. -/
def imgWrite (b : Binding) (r : Region) (offset : Nat) (data : List Byte) (s : State) : State :=
  s.recovery b 0x20 (fun s =>
    if data.isEmpty || data.length > 1024 || offset + data.length > regionSize r then s.mgmtReply b 0x20 2 []
    else
      let old := match norImage s.nv.mirr r with
        | some x => imageBytes x
        | none => []
      let l := old ++ List.replicate (max 512 (offset + data.length) - old.length) 0xFF
      let new := l.take offset ++ data ++ l.drop (offset + data.length)
      ({ s with nv := { s.nv with mirr := putImage s.nv.mirr r (parseImage new) } }).mgmtReply b 0x20 0 [])

/-- IMG_COMMIT: the mirror image is checked and copied to the primary region; a recovered keeper image starts the keeper again. -/
def imgCommit (b : Binding) (r : Region) (writeOk : Bool) (s : State) : State :=
  s.recovery b 0x21 (fun s =>
    match norImage s.nv.mirr r with
    | none => (s.showCause r 1).mgmtReply b 0x21 2 (bytesOf 1 1)
    | some x =>
      let c := s.imageCause r x
      if c ≠ 0 then (s.showCause r c).mgmtReply b 0x21 2 (bytesOf 1 c)
      else if !writeOk then (({ s with nv := { s.nv with prim := dropImage s.nv.prim r } }).showCause r 0).mgmtReply b 0x21 7 (bytesOf 1 0)
      else
        let s := ({ s.showCause r 0 with nv := { s.nv with prim := putImage s.nv.prim r x } }).mgmtReply b 0x21 0 (bytesOf 1 0)
        if s.sec.rom && r = .keeper then s.romStart else s)

/-! ## SPDM (R404) -/

def spdmKey : SpdmTransport → Nat
  | .doe .f0 => 0
  | .doe .companion => 1
  | .mctp .i3c => 2
  | .mctp (.pcie .f0) => 3
  | .mctp (.pcie .companion) => 4

/-- A request waits on its transport: in a DOE mailbox, or on a binding that is served. -/
def State.spdmHere (s : State) (t : SpdmTransport) : Bool :=
  !s.sec.rom && (match t with
    | .doe f => (s.fnst f).doe.isSome && s.die 0 = .up
    | .mctp b => s.bound b)

/-- Send a response; a DOE mailbox is free again. -/
def State.spdmSend (s : State) (t : SpdmTransport) (b : List Byte) : State :=
  let s := match t with
    | .doe f => s.setFnst f { s.fnst f with doe := none }
    | .mctp _ => s
  s.emit (.spdm t b)

/-- Response header: version, code, two parameters (DSP0274; assumption 25). -/
def spdmHead (ver code p1 p2 : Nat) : List Byte := bytesOf 1 ver ++ bytesOf 1 code ++ bytesOf 1 p1 ++ bytesOf 1 p2

def State.spdmError (s : State) (r : SpdmReq) (code : Nat) : State := s.spdmSend r.transport (spdmHead r.version.toNat 0x7F code 0)

/-- Requests completed on a connection: 1 version, 2 capabilities, 3 algorithms. -/
def State.spdmStage (s : State) (t : SpdmTransport) : Nat := mget 0 s.spdm (spdmKey t)
def State.setStage (s : State) (t : SpdmTransport) (n : Nat) : State := { s with spdm := mset 0 s.spdm (spdmKey t) n }

/-- A request after GET_VERSION: of a supported version, and once the requests before it are done. -/
def State.spdmDo (s : State) (r : SpdmReq) (stage : Nat) (act : State → State) : State :=
  if !s.spdmHere r.transport then s
  else if !(r.version = 0x12 || r.version = 0x13) then s.spdmError r 0x41
  else if s.spdmStage r.transport < stage then s.spdmError r 0x04
  else act s

/-- GET_VERSION: a connection starts again; versions 1.2 and 1.3. -/
def getVersion (r : SpdmReq) (s : State) : State :=
  if s.spdmHere r.transport then
    (s.setStage r.transport 1).spdmSend r.transport (spdmHead 0x10 0x04 0 0 ++ [0, 2] ++ bytesOf 2 0x1200 ++ bytesOf 2 0x1300)
  else s

/-- GET_CAPABILITIES: CERT_CAP, CHAL_CAP, MEAS_CAP with signature. -/
def getCapabilities (r : SpdmReq) (s : State) : State :=
  s.spdmDo r 1 (fun s => (s.setStage r.transport 2).spdmSend r.transport (spdmHead r.version.toNat 0x61 0 0 ++ bytesOf 4 0 ++ bytesOf 4 0x16))

/-- NEGOTIATE_ALGORITHMS: Ed448, SHA3-512, raw measurements, or an invalid request. -/
def negotiateAlgorithms (r : SpdmReq) (s : State) : State :=
  s.spdmDo r 2 (fun s =>
    if r.asymOk && r.hashOk then
      (s.setStage r.transport 3).spdmSend r.transport (spdmHead r.version.toNat 0x63 0 0 ++ bytesOf 4 1 ++ bytesOf 4 0x200 ++ bytesOf 4 0x20)
    else s.spdmError r 0x01)

/-- The chain is served, and signatures are made (R402, R403). -/
def State.canSign (s : State) : Bool := s.sec.puf && s.sec.cert

/-- GET_DIGESTS: slot 0. -/
def getDigests (r : SpdmReq) (s : State) : State :=
  s.spdmDo r 3 (fun s =>
    if s.canSign then s.spdmSend r.transport (spdmHead r.version.toNat 0x01 0 1 ++ padTo 64 (Config.sha3 s.chain)) else s.spdmError r 0x05)

/-- GET_CERTIFICATE: a part of the chain of slot 0, of at most the length asked for. -/
def getCertificate (r : SpdmReq) (s : State) : State :=
  s.spdmDo r 3 (fun s =>
    if r.slot ≠ 0 || r.offset ≥ s.chain.length then s.spdmError r 0x01
    else if !s.canSign then s.spdmError r 0x05
    else
      let part := (s.chain.drop r.offset).take r.length
      s.spdmSend r.transport (spdmHead r.version.toNat 0x02 0 0 ++ bytesOf 2 part.length ++ bytesOf 2 (s.chain.length - r.offset - part.length) ++ part))

/-- CHALLENGE: chain digest, nonce, measurement summary where asked for, signature by the alias key. -/
def challenge (r : SpdmReq) (s : State) : State :=
  s.spdmDo r 3 (fun s =>
    if r.slot ≠ 0 then s.spdmError r 0x01
    else if !s.canSign then s.spdmError r 0x05
    else
      let all := (List.range 8).flatMap (fun m => s.meas (m + 1))
      let sum := if r.param = 0 then [] else padTo 64 (Config.sha3 all)
      let body := spdmHead r.version.toNat 0x03 0 1 ++ padTo 64 (Config.sha3 s.chain) ++ nonceBytes s.fresh ++ sum ++ bytesOf 2 0
      (s.drawn 1).spdmSend r.transport (body ++ padTo 114 (Config.sign 0 (r.nonce ++ body))))

/-- A measurement block: index, raw value. -/
def measBlock (i : Nat) (v : List Byte) : List Byte :=
  bytesOf 1 i ++ [1] ++ bytesOf 2 (v.length + 3) ++ bytesOf 1 0x80 ++ bytesOf 2 v.length ++ v

/-- Blocks of an index: M1 to M8, the log (whole entries of 96 bytes, at most 64 KiB), all of M1 to M8; index 0 asks how many there are. -/
def State.measBlocks (s : State) (i : Nat) : Option (List (List Byte)) :=
  if i = 0 then some []
  else if i ≤ 8 then some [measBlock i (s.meas i)]
  else if i = 0xFE then some [measBlock i ((s.sec.log.take 682).flatten)]
  else if i = 0xFF then some ((List.range 8).map (fun m => measBlock (m + 1) (s.meas (m + 1))))
  else none

/-- GET_MEASUREMENTS. -/
def getMeasurements (r : SpdmReq) (s : State) : State :=
  s.spdmDo r 3 (fun s =>
    match s.measBlocks r.param.toNat with
    | none => s.spdmError r 0x01
    | some l =>
      if r.sign && !s.canSign then s.spdmError r 0x05
      else
        let data := l.flatten
        let body := spdmHead r.version.toNat 0x60 (if r.param = 0 then 9 else 0) 0 ++ bytesOf 1 l.length ++ bytesOf 3 data.length ++ data ++
          nonceBytes s.fresh ++ bytesOf 2 0
        (s.drawn 1).spdmSend r.transport (body ++ (if r.sign then padTo 114 (Config.sign 0 (r.nonce ++ body)) else [])))

/-! ## Injection lock (R407) -/

/-- INJ_DIS: error injection is off until the next start. -/
def injDis (_m : Master) (s : State) : State := if s.answers .sec then s.setF .sec R.sec.SEC_CTL_INJ_DIS 1 else s

/-! ## The test access port (R405) -/

/-- The state machine of IEEE 1149.1. -/
def tapNext (c : TapCtl) (tms : Bool) : TapCtl :=
  match c with
  | .reset => if tms then .reset else .idle
  | .idle => if tms then .selDr else .idle
  | .selDr => if tms then .selIr else .capDr
  | .capDr => if tms then .ex1Dr else .shDr
  | .shDr => if tms then .ex1Dr else .shDr
  | .ex1Dr => if tms then .upDr else .pauDr
  | .pauDr => if tms then .ex2Dr else .pauDr
  | .ex2Dr => if tms then .upDr else .shDr
  | .upDr => if tms then .selDr else .idle
  | .selIr => if tms then .reset else .capIr
  | .capIr => if tms then .ex1Ir else .shIr
  | .shIr => if tms then .ex1Ir else .shIr
  | .ex1Ir => if tms then .upIr else .pauIr
  | .pauIr => if tms then .ex2Ir else .pauIr
  | .ex2Ir => if tms then .upIr else .shIr
  | .upIr => if tms then .selDr else .idle

def lowBits (n v : Nat) : List Bool := (List.range n).map (bit v)
def bitsVal (l : List Bool) : Nat := l.foldr (fun b v => 2 * v + (if b then 1 else 0)) 0

/-- IDCODE. -/
def idcode : Nat := Config.stepping.toNat % 16 * 2 ^ 28 + 0x9600 * 2 ^ 12 + 0x66B * 2 + 1

/-- The register an instruction puts between TDI and TDO; every one but IDCODE is BYPASS. -/
def drCapture (ir : Nat) : List Bool := if ir = 1 then lowBits 32 idcode else [false]

/-- A rising edge of TCK: capture and shift happen in the present state, then TMS moves the controller. -/
def tapRise (t : TapSt) (tms tdi : Bool) : TapSt :=
  let sh := match t.ctl with
    | .capDr => drCapture t.ir
    | .capIr => lowBits 8 1
    | .shDr | .shIr => t.shift.tail ++ [tdi]
    | _ => t.shift
  let ctl := tapNext t.ctl tms
  { t with ctl := ctl, shift := sh, ir := if ctl = .reset then 1 else t.ir }

/-- A falling edge: the instruction updates, TDO changes; it is driven in the shift states only. -/
def tapFall (t : TapSt) : TapSt :=
  { t with
    ir := if t.ctl = .upIr then bitsVal t.shift else t.ir
    tdo := if t.ctl = .shDr || t.ctl = .shIr then t.shift.head? else none }

/-- TCK_EDGE. -/
def tckEdge (rising tms tdi : Bool) (s : State) : State :=
  if s.pins.vAon then { s with tap := if rising then tapRise s.tap tms tdi else tapFall s.tap } else s

/-- TRST_N_ASSERT. -/
def trstNAssert (s : State) : State := { s with tap := { ctl := .reset, ir := 1, shift := [], tdo := none } }

/-- DEBUG_PORT_DISCONNECT (09 R304): the locks of master 0x31 are released. -/
def debugPortDisconnect (s : State) : State := s.dropLocks (masterId .debug)

end Sys2Proof.Machine
end

