-- ==== Sys2Proof/Machine/Vector.lean ====
section
/-! DEFINITION. Vector, conversion and reduction instructions (02 Table 2.13, R56 to R61, R73). -/

namespace Sys2Proof.Machine

/-- Formats of VADD to VFMA, VFILL and VUN. -/
def vecFmt (f : Nat) : Bool := f = 0 || f = 1 || f = 2 || f = 13

/-- Lines of n elements of a vector format. -/
def vecLines (f n : Nat) : Nat := n * (fmtBits f / 8) / 64

/-- The elements of n vectors. -/
def vecRead (x : CellSt) (stamp line f n : Nat) : List Nat :=
  let b := csBytes x (some .vu) stamp line (n * (fmtBits f / 8))
  (List.range n).map (elemAt f b)

/-- Write codes of a format from a line, as the VU's entry. -/
def vecEntry (i : Iss) (line f : Nat) (codes : List Nat) : InFl :=
  { tok := none, lines := csLines i.x (some .vu) i.stamp line (packAll f (codes.length / 32) codes), stores := [], hint := 0,
    load := false }

/-- Queue a VU entry with new flags and generator. -/
def vuDone (i : Iss) (e : InFl) (fl : Nat) (g : Gen) (s : State) : State :=
  (s.cellFlags i.h i.c fl).enqueue i .vu (setGen i.x g) e

/-- Signed value of an INT32 code, and a wrapped result. -/
def int32 (c : Nat) : Int := toSigned 32 c
def wrap32 (i : Int) : Nat := (i % 2 ^ 32).toNat

/-- NAN_OUT for a code written that is a NaN of its format. -/
def nanFlag (f c : Nat) : Nat := if decodeElem f c = .nan then flNanOut else 0

/-- The exact result of a two- or three-operand vector instruction. -/
def vecExact (op : Nat) (d a b : Num) : Num :=
  if op = 0x10 then addNum a b
  else if op = 0x11 then addNum a (negNum b)
  else if op = 0x12 then mulNum a b
  else if op = 0x13 then maxNum a b
  else if op = 0x14 then minNum a b
  else addNum (mulNum a b) d

def vecInt (op : Nat) (d a b : Int) : Nat :=
  wrap32 (if op = 0x10 then a + b else if op = 0x11 then a - b else if op = 0x12 then a * b
    else if op = 0x13 then max a b else if op = 0x14 then min a b else a * b + d)

/-- VADD, VSUB, VMUL, VMAX, VMIN, VFMA. -/
def vecAct (op : Nat) (i : Iss) (s : State) : State :=
  let w := i.w
  let f := bits w 21 18
  let n := 256 * (bits w 37 22 + 1)
  let bc := bits w 17 16
  let ld := csOperand i.x (bits w 100 80)
  let l1 := csOperand i.x (bits w 79 59)
  let l2 := csOperand i.x (bits w 58 38)
  let n2 := if bc = 2 then 0 else if bc = 1 then 256 else n
  let el := vecLines f n
  let e2 := vecLines f n2
  i.guard (causes
    [(bits w 11 0 ≠ 0 || bc = 3 || bits w 13 12 = 3, 2),
     (!vecFmt f, 3),
     (ld + el > 65536 || l1 + el > 65536 || (bc ≠ 2 && l2 + e2 > 65536), 4),
     (badOverlap ld el l1 el || (bc ≠ 2 && badOverlap ld el l2 e2), 5)])
    (i.readCs .vu (lineDst ld el) fun s =>
      let a := vecRead i.x i.stamp l1 f n
      let b2 := if bc = 2 then [sreg i.x (bits w 58 54)] else vecRead i.x i.stamp l2 f n2
      let d := if op = 0x15 then vecRead i.x i.stamp ld f n else []
      let sb := fun k => nth 0 b2 (if bc = 0 then k else if bc = 1 then k % 256 else 0) % 2 ^ fmtBits f
      if f = 13 then
        let r := (List.range n).map (fun k => vecInt op (int32 (nth 0 d k)) (int32 (nth 0 a k)) (int32 (sb k)))
        vuDone i (vecEntry i ld f r) 0 (genOf i.x) s
      else
        let v := (List.range n).map (fun k =>
          vecExact op (decodeElem f (nth 0 d k)) (decodeElem f (nth 0 a k)) (decodeElem f (sb k)))
        let r := convAll (rndField i.k.drnd (bits w 15 14)) (fun md x => toFmt f md (ovfMode i.k.dovf (bits w 13 12)) x) v (genOf i.x)
        vuDone i (vecEntry i ld f r.1) r.2.1 r.2.2 s) s

/-- VFILL. -/
def vfillAct (i : Iss) (s : State) : State :=
  let w := i.w
  let f := bits w 63 60
  let n := 256 * (bits w 79 64 + 1)
  let ld := csOperand i.x (bits w 100 80)
  let v := bits w 59 28 % 2 ^ fmtBits f
  i.guard (causes [(bits w 27 0 ≠ 0, 2), (!vecFmt f, 3), (ld + vecLines f n > 65536, 4)])
    (fun s => vuDone i (vecEntry i ld f (List.replicate n v)) (nanFlag f v) (genOf i.x) s) s

/-! ## Unary functions

EXP2, LOG2, TANH and SIGM are computed in fixed point with `prec` fractional bits, each with an error far below any FP32 rounding step; a result
is then one of the FP32 codes within the bound Table 2.13 gives (assumption 12). -/

def prec : Nat := 320

/-- ln 2 times 2^prec, toward zero. -/
def ln2Fix : Nat :=
  1480553391661173448385607439722553250922680800745876974795605978609098082859138712941075737848984

/-- A product in fixed point, toward zero. -/
def mulFix (a b : Nat) : Nat := a * b / 2 ^ prec

/-- The sum of x^k / k! from the k-th term on, in n terms. -/
def expTail (x : Nat) : Nat → Nat → Nat → Nat
  | 0, _, _ => 0
  | n + 1, k, term => term + expTail x n (k + 1) (mulFix term x / (k + 1))

/-- e^x for 0 ≤ x ≤ 1. -/
def expFix (x : Nat) : Nat := expTail x 80 0 (2 ^ prec)

/-- e^−x for x ≥ 0. -/
def expNegFix (x : Nat) : Nat :=
  let k := x / ln2Fix
  if k > prec then 0 else expFix (ln2Fix - x % ln2Fix) / 2 ^ (k + 1)

/-- The odd powers of z, each over its exponent, from k on, in n terms. -/
def atanhTail (z2 : Nat) : Nat → Nat → Nat → Nat
  | 0, _, _ => 0
  | n + 1, k, pow => pow / k + atanhTail z2 n (k + 2) (mulFix pow z2)

/-- log2 (m · 2^e) for m ≠ 0, times 2^prec: with m in [1, 2), twice the area tangent of (m − 1) / (m + 1) over ln 2. -/
def log2Fix (m : Nat) (e : Int) : Int :=
  let k := Nat.log2 m
  let z := (m - 2 ^ k) * 2 ^ prec / (m + 2 ^ k)
  let f := 2 * atanhTail (mulFix z z) 110 1 z * 2 ^ prec / ln2Fix
  (k + e) * 2 ^ prec + f

/-- m · 2^e times 2^prec, toward zero; what does not matter beyond 2^12 is cut off there. -/
def toFix (m : Nat) (e : Int) : Nat :=
  if Nat.log2 m + e > 12 then 2 ^ (prec + 12)
  else if 0 ≤ e + prec then m * 2 ^ (e + prec).toNat else m / 2 ^ (-(e + prec)).toNat

/-- A code on the number line of one sign, n steps of an ulp from its neighbours: the values a result within n ulp of (−1)^neg · q · 2^e can
take, one chosen by d (a step beyond the next power of two is twice as long); beyond the largest finite value the exact one, for the overflow mode to decide (R58). A result other than 0 whose
choice is 0 stays below every code, so that it underflows (R59). -/
def ulpPick (n d : Nat) (exact neg : Bool) (q : Nat) (e : Int) : Num :=
  if q ≠ 0 && decide (Nat.log2 q + e ≥ 128) then .fin neg q e
  else
    let lo : Int := (toFp fp32 .rtz .sat (.fin false q e)).1
    let c := if exact then lo - n + (d % (2 * n + 1) : Nat) else lo - n + 1 + (d % (2 * n) : Nat)
    let next := (lo / 2 ^ 23 + 1) * 2 ^ 23
    let c := if lo ≥ 2 ^ 23 && c > next then next + (c - next) / 2 else c
    if c = 0 then (if exact && q = 0 then .fin neg 0 0 else .fin neg 1 (-1000))
    else if c.natAbs ≥ 0x7F800000 then .fin neg 1 128
    else decodeFp fp32 ((if (decide (c < 0)) != neg then 2 ^ 31 else 0) + c.natAbs)

/-- A power of two. -/
def pow2 (m : Nat) : Bool := m = 2 ^ Nat.log2 m

/-- A unary function's FP32 result for an FP32-exact operand: SQRT is correctly rounded; RCP, RSQ, EXP2 and LOG2 lie within 1 ulp, TANH and
SIGM within 4 (assumption 12); NaN gives NaN. The key names function and operand, so equal operands give equal results (R55). -/
def unaryFp (fn : Nat) (o : OMode) (x : Num) : Num :=
  let d := (Config.openResult fn (toFp fp32 .rne .inf x).1).toNat
  match fn, x with
  | 0, .fin _ m e => .fin false m e
  | 0, .inf _ => .inf false
  | 1, v => negNum v
  | 2, .fin neg m e => if neg then .fin false 0 0 else .fin neg m e
  | 2, .inf neg => if neg then .fin false 0 0 else .inf false
  | 3, .fin neg m e => if m = 0 then .fin neg 0 0 else if neg then .nan
      else let q := sqrtExact m e; decodeFp fp32 (toFp fp32 .rne o (.fin false q.1 q.2)).1
  | 3, .inf neg => if neg then .nan else .inf false
  | 4, .fin neg m e =>
      if m = 0 then .inf neg
      else let q := divExact 1 m 0 e; ulpPick 1 d (pow2 m) neg q.1 q.2
  | 4, .inf neg => .fin neg 0 0
  | 5, .fin neg m e =>
      if m = 0 then .inf neg else if neg then .nan
      else
        let q := divExact 1 m 0 e
        let r := sqrtExact q.1 q.2
        ulpPick 1 d (pow2 m && (e + Nat.log2 m) % 2 = 0) false r.1 r.2
  | 5, .inf neg => if neg then .nan else .fin false 0 0
  | 6, .fin neg m e =>
      if m = 0 then ulpPick 1 d true false 1 0
      else
        let x := toFix m e
        let whole := x / 2 ^ prec
        let frac := x % 2 ^ prec
        if neg then
          if frac = 0 then ulpPick 1 d true false 1 (-whole)
          else ulpPick 1 d false false (expFix (mulFix (2 ^ prec - frac) ln2Fix)) (-(whole + 1 : Nat) - prec)
        else ulpPick 1 d (frac = 0) false (expFix (mulFix frac ln2Fix)) (whole - prec)
  | 6, .inf neg => if neg then .fin false 0 0 else .inf false
  | 7, .fin neg m e =>
      if m = 0 then .inf true else if neg then .nan
      else
        let l := log2Fix m e
        ulpPick 1 d (pow2 m) (decide (l < 0)) (if pow2 m || 0 ≤ l then l.natAbs else l.natAbs - 1) (-prec)
  | 7, .inf neg => if neg then .nan else .inf false
  | 8, .fin neg m e =>
      let y := expNegFix (2 * toFix m e)
      ulpPick 4 d (m = 0) neg ((2 ^ prec - y) * 2 ^ prec / (2 ^ prec + y)) (-prec)
  | 8, .inf neg => ulpPick 4 d true neg 1 0
  | 9, .fin neg m e =>
      let y := expNegFix (toFix m e)
      ulpPick 4 d (m = 0) false ((if neg then y else 2 ^ prec) * 2 ^ prec / (2 ^ prec + y)) (-prec)
  | 9, .inf neg => if neg then ulpPick 4 d true false 0 0 else ulpPick 4 d true false 1 0
  | _, _ => .nan

/-- VUN. SQRT for a 16-bit format is rounded once from the exact root. -/
def unaryNum (fn : Nat) (o : OMode) (x : Num) : Num :=
  match fn, x with
  | 3, .fin false m e => if m = 0 then x else let q := sqrtExact m e; .fin false q.1 q.2
  | _, _ => unaryFp fn o x

def unaryInt (fn : Nat) (c : Nat) : Nat :=
  let v := int32 c
  if fn = 0 then wrap32 (v.natAbs : Nat) else if fn = 1 then wrap32 (-v) else if v < 0 then 0 else c

def vunAct (i : Iss) (s : State) : State :=
  let w := i.w
  let f := bits w 42 39
  let fn := bits w 38 35
  let n := 256 * (bits w 58 43 + 1)
  let ld := csOperand i.x (bits w 100 80)
  let l1 := csOperand i.x (bits w 79 59)
  let el := vecLines f n
  let o := ovfMode i.k.dovf (bits w 32 31)
  i.guard (causes
    [(bits w 30 0 ≠ 0 || fn ≥ 0xA || bits w 32 31 = 3, 2),
     (!vecFmt f || (f = 13 && fn > 2 && fn < 0xA), 3),
     (ld + el > 65536 || l1 + el > 65536, 4),
     (badOverlap ld el l1 el, 5)])
    (i.readCs .vu (lineDst ld el) fun s =>
      let a := vecRead i.x i.stamp l1 f n
      if f = 13 then vuDone i (vecEntry i ld f (a.map (unaryInt fn))) 0 (genOf i.x) s
      else
        let r := convAll (rndField i.k.drnd (bits w 34 33)) (fun md x => toFmt f md o x)
          (a.map (fun c => unaryNum fn o (decodeElem f c))) (genOf i.x)
        vuDone i (vecEntry i ld f r.1) r.2.1 r.2.2 s) s

/-- TRANS: COUNT + 1 tiles of 128 × 128. A NaN it writes sets NAN_OUT (R59). -/
def transAct (i : Iss) (s : State) : State :=
  let w := i.w
  let f := bits w 58 55
  let n := 16384 * (bits w 54 43 + 1)
  let ld := csOperand i.x (bits w 100 80)
  let l1 := csOperand i.x (bits w 79 59)
  let el := vecLines f n
  i.guard (causes
    [(bits w 42 0 ≠ 0, 2), (!(f = 0 || f = 1 || f = 2), 3), (ld + el > 65536 || l1 + el > 65536, 4), (overlap ld el l1 el, 5)])
    (i.readCs .vu (lineDst ld el) fun s =>
      let a := vecRead i.x i.stamp l1 f n
      let r := (List.range n).map (fun k =>
        let t := k / 16384
        let j := k % 16384
        nth 0 a (16384 * t + 128 * (j % 128) + j / 128))
      vuDone i (vecEntry i ld f r) (r.foldl (fun fl c => fl ||| nanFlag f c) 0) (genOf i.x) s) s

/-- A flat array of nb chunks: bytes of its elements, and of its scales where it has them (R72). -/
def flatLines (f nb : Nat) : Nat := linesFor (nb * chunkBytes f) + (if isBlock f then linesFor nb else 0)

def flatRead (x : CellSt) (stamp line f nb : Nat) : List Byte × List Byte :=
  (csBytes x (some .vu) stamp line (nb * chunkBytes f),
    if isBlock f then csBytes x (some .vu) stamp (line + linesFor (nb * chunkBytes f)) nb else [])

/-- Value k of a flat array. -/
def flatNum (f : Nat) (b : List Byte × List Byte) (k : Nat) : Num :=
  let v := decodeElem f (elemAt f b.1 k)
  if isBlock f then scaleNum (nth 0 b.2 (k / 32)).toNat v else v

/-- CVT. -/
def cvtAct (i : Iss) (s : State) : State :=
  let w := i.w
  let nb := bits w 58 43 + 1
  let fs := bits w 42 39
  let fd := bits w 38 35
  let ld := csOperand i.x (bits w 100 80)
  let l1 := csOperand i.x (bits w 79 59)
  let el := flatLines fd nb
  let e1 := flatLines fs nb
  i.guard (causes
    [(bits w 30 0 ≠ 0 || bits w 32 31 = 3, 2),
     (!fmtOk fs || !fmtOk fd || isBlock fd, 3),
     (ld + el > 65536 || l1 + e1 > 65536, 4),
     (badOverlap ld el l1 e1 || (overlap ld el l1 e1 && fmtBits fs ≠ fmtBits fd), 5)])
    (i.readCs .vu (lineDst ld el) fun s =>
      let b := flatRead i.x i.stamp l1 fs nb
      let r := convAll (rndField i.k.drnd (bits w 34 33)) (fun md x => toFmt fd md (ovfMode i.k.dovf (bits w 32 31)) x)
        ((List.range (32 * nb)).map (flatNum fs b)) (genOf i.x)
      vuDone i (vecEntry i ld fd r.1) r.2.1 r.2.2 s) s

/-- One block of QUANT: the scale byte, element codes, flags, generator. A block with scale 0xFF writes its elements as 0 and
sets NAN_OUT; under SR each element still takes its draw (R57, R59, R60). That an MXFP8 element is written as 0 under SM = 0 too is a DESIGN
CHOICE (assumption 72). -/
def quantBlock (fd m : Nat) (given : Option Nat) (l : List Num) (g : Gen) : Nat × List Nat × Nat × Gen :=
  let sc := match given with
    | none => blockScale fd l
    | some x => (if x ≠ 255 && l.contains Num.nan && (7 ≤ fd) then 255 else x, 0)
  if sc.1 = 255 then
    let r := convAll m (fun _ _ => (0, 0)) l g
    (255, r.1, flNanOut, r.2.2)
  else
    let r := convAll m (blockElem fd sc.1) l g
    (sc.1, r.1, sc.2 ||| r.2.1, r.2.2)

/-- All blocks of QUANT in order. -/
def quantAll (fd m : Nat) (given : Nat → Option Nat) : Nat → Nat → List Num → Gen → List Nat × List Nat × Nat × Gen
  | 0, _, _, g => ([], [], 0, g)
  | n + 1, k, l, g =>
    let b := quantBlock fd m (given k) (l.take 32) g
    let r := quantAll fd m given n (k + 1) (l.drop 32) b.2.2.2
    (b.1 :: r.1, b.2.1 ++ r.2.1, b.2.2.1 ||| r.2.2.1, r.2.2.2)

/-- QUANT. -/
def quantAct (i : Iss) (s : State) : State :=
  let w := i.w
  let nb := bits w 58 43 + 1
  let fs := bits w 42 39
  let fd := bits w 38 35
  let sm := bit w 30
  let ld := csOperand i.x (bits w 100 80)
  let l1 := csOperand i.x (bits w 79 59)
  let el := flatLines fd nb
  let e1 := flatLines fs nb
  i.guard (causes
    [(bits w 32 31 ≠ 0 || bits w 29 0 ≠ 0, 2),
     (!(fs = 0 || fs = 1 || fs = 2) || !isBlock fd, 3),
     (ld + el > 65536 || l1 + e1 > 65536, 4),
     (overlap ld el l1 e1, 5)])
    (i.readCs .vu (lineDst ld el) fun s =>
      let b := flatRead i.x i.stamp l1 fs nb
      let old := flatRead i.x i.stamp ld fd nb
      let r := quantAll fd (rndField i.k.drnd (bits w 34 33)) (fun k => if sm then some (nth 0 old.2 k).toNat else none) nb 0
        ((List.range (32 * nb)).map (flatNum fs b)) (genOf i.x)
      let scl := csLines i.x (some .vu) i.stamp (ld + linesFor (nb * chunkBytes fd)) (r.1.map (BitVec.ofNat 8 ·))
      let e := vecEntry i ld fd r.2.1
      vuDone i { e with lines := e.lines ++ scl } r.2.2.1 r.2.2.2 s) s

/-- One step of a reduction in FP32: SUM, MAX, MIN, SUMSQ. -/
def redStep (fn : Nat) (o : OMode) (acc : Nat × Nat) (c : Nat) : Nat × Nat :=
  let a := decodeFp fp32 acc.1
  let x := decodeFp fp32 c
  let z :=
    if fn = 0 then toFp32 o (addNum a x)
    else if fn = 1 then toFp fp32 .rne .inf (maxNum a x)
    else if fn = 2 then toFp fp32 .rne .inf (minNum a x)
    else toFp32 o (addNum a (mulNum x x))
  (z.1, acc.2 ||| z.2)

/-- A reduction of a list from its start: MAX and MIN without ACC start from the first element. -/
def redList (fn : Nat) (o : OMode) (start : Option Nat) (l : List Nat) : Nat × Nat :=
  let z := match start, l with
    | some d, l => l.foldl (redStep fn o) (d, 0)
    | none, [] => (0, 0)
    | none, x :: t =>
      if fn = 1 || fn = 2 then
        t.foldl (redStep fn o) (if decodeFp fp32 x = Num.nan then (0x7FC00000, 0) else (x, 0))
      else (x :: t).foldl (redStep fn o) (0, 0)
  (z.1, (z.2 &&& (0x7F ^^^ flNanOut)) ||| nanFlag 0 z.1)

/-- RED. -/
def redAct (i : Iss) (s : State) : State :=
  let w := i.w
  let m := bits w 58 43 + 1
  let ax := bits w 42 41
  let fn := bits w 40 39
  let acc := bit w 38
  let ld := csOperand i.x (bits w 100 80)
  let l1 := csOperand i.x (bits w 79 59)
  let n := if ax = 0 then 128 else m
  let el := linesFor (4 * n)
  let e1 := 8 * m
  i.guard (causes
    [(bits w 37 0 ≠ 0 || ax ≥ 2, 2), (ld + el > 65536 || l1 + e1 > 65536, 4), (badOverlap ld el l1 e1, 5)])
    (i.readCs .vu (lineDst ld el) fun s =>
      let b := csBytes i.x (some .vu) i.stamp l1 (512 * m)
      let d := csBytes i.x (some .vu) i.stamp ld (4 * n)
      let at_ := fun r c => elemAt 0 b (128 * r + c)
      let r := (List.range n).map (fun j =>
        redList fn (ovfMode i.k.dovf 0) (if acc then some (elemAt 0 d j) else none)
          (if ax = 0 then (List.range m).map (fun r => at_ r j) else (List.range 128).map (fun c => at_ j c)))
      let e : InFl := { tok := none, lines := csLines i.x (some .vu) i.stamp ld (r.flatMap (fun z => bytesOf 4 z.1)),
                        stores := [], hint := 0, load := false }
      vuDone i e (r.foldl (fun f z => f ||| z.2) 0) (genOf i.x) s) s

def vadd (h : Half) (c : Fin 288) (e : HwEvent) (s : State) : State := issue 0x10 h c e (vecAct 0x10) s
def vsub (h : Half) (c : Fin 288) (e : HwEvent) (s : State) : State := issue 0x11 h c e (vecAct 0x11) s
def vmul (h : Half) (c : Fin 288) (e : HwEvent) (s : State) : State := issue 0x12 h c e (vecAct 0x12) s
def vmax (h : Half) (c : Fin 288) (e : HwEvent) (s : State) : State := issue 0x13 h c e (vecAct 0x13) s
def vmin (h : Half) (c : Fin 288) (e : HwEvent) (s : State) : State := issue 0x14 h c e (vecAct 0x14) s
def vfma (h : Half) (c : Fin 288) (e : HwEvent) (s : State) : State := issue 0x15 h c e (vecAct 0x15) s
def vfill (h : Half) (c : Fin 288) (e : HwEvent) (s : State) : State := issue 0x16 h c e vfillAct s
def vun (h : Half) (c : Fin 288) (e : HwEvent) (s : State) : State := issue 0x17 h c e vunAct s
def trans (h : Half) (c : Fin 288) (e : HwEvent) (s : State) : State := issue 0x18 h c e transAct s
def cvt (h : Half) (c : Fin 288) (e : HwEvent) (s : State) : State := issue 0x1C h c e cvtAct s
def quant (h : Half) (c : Fin 288) (e : HwEvent) (s : State) : State := issue 0x1D h c e quantAct s
def red (h : Half) (c : Fin 288) (e : HwEvent) (s : State) : State := issue 0x20 h c e redAct s

end Sys2Proof.Machine
end

