-- ==== Sys2Proof/WellFormed.lean ====
section
/-! DEFINITION. Well-formed commands: the operands name an access of the kind the row is about. Every other operand is well formed by its
type. -/

namespace Sys2Proof

/-- An access that 00 R8 does not allow: a size other than 4 or 8 bytes, an address that is not a multiple of it, or one beyond BAR0. -/
def badAccess (addr size : Nat) : Bool := !((size = 4 || size = 8) && addr % size = 0)

/-- The low word of a 64-bit register (00 R8). -/
def lowWord (addr : Nat) : Bool :=
  match Machine.pageOf addr with
  | some p => Machine.is64Low p (addr % 0x1000)
  | none => false

/-- The access fits one line and carries its data. -/
def LineReq.wf (r : LineReq) : Bool :=
  0 < r.len && r.addr.toNat % 128 + r.len ≤ 128 && r.addr.toNat + r.len ≤ 2 ^ 52 &&
    (if r.write then r.data.length = r.len else r.data.isEmpty)

/-- The command is of its row's kind. -/
def Instr.wf : Instr → Bool
  | .badSizeAccess _ addr size _ => badAccess addr size
  | .latchedLowRead _ r => lowWord r.addr
  | .memoryAccess r => r.wf
  | _ => true

end Sys2Proof
end

