-- ==== Sys2Proof/Machine/Exec.lean ====
section
/-! DEFINITION. The meaning of each command: its effect as its family file defines it, in the form exec answers. -/

namespace Sys2Proof.Machine

/-- What a command answers. -/
abbrev Res := Host.Outcome State Fault Refusal

/-- The state t with the queue of s: a command has its effect on everything but the queue. -/
def State.onQueue (t s : State) : State := { t with pending := s.pending }

/-- V_AON_RISE. -/
def execVAonRise (k : KeeperStart) (s : State) : Res := .next ((vAonRise k s).onQueue s)

/-- V_AON_LOSS. -/
def execVAonLoss (s : State) : Res := .next ((vAonLoss s).onQueue s)

/-- POR_ASSERT. -/
def execPorAssert (s : State) : Res := .next ((porAssert s).onQueue s)

/-- POR_DEASSERT. -/
def execPorDeassert (s : State) : Res := .next ((porDeassert s).onQueue s)

/-- PRI_SEL_SAMPLE. -/
def execPriSelSample (s : State) : Res := .next ((priSelSample s).onQueue s)

/-- PRI_SEL_CHANGE. -/
def execPriSelChange (level : Bool) (s : State) : Res := .next ((priSelChange level s).onQueue s)

/-- BRING_UP_START. -/
def execBringUpStart (o : BringUpObs) (s : State) : Res := .next ((bringUpStart o s).onQueue s)

/-- BOOT_DONE. -/
def execBootDone (s : State) : Res := .next ((bootDone s).onQueue s)

/-- BAD_SIZE_ACCESS. -/
def execBadSizeAccess (m : Master) (addr size : Nat) (write : Bool) (s : State) : Res :=
  if !(Instr.badSizeAccess m addr size write).wf then .refused .illFormed else if s.reaches m then .next ((badSizeAccess m addr size write s).onQueue s) else .next s

/-- LATCHED_LOW_READ. -/
def execLatchedLowRead (m : Master) (r : LowRead) (s : State) : Res :=
  if !(Instr.latchedLowRead m r).wf then .refused .illFormed else if s.reaches m then .next ((latchedLowRead m r s).onQueue s) else .next s

/-- REGISTER_WRITE. -/
def execRegisterWrite (m : Master) (addr : Nat) (wide : Bool) (value : BitVec 64) (s : State) : Res :=
  if s.reaches m then .next ((registerWrite m addr wide value s).onQueue s) else .next s

/-- BLOCK_RESET. -/
def execBlockReset (m : Master) (p : Page) (s : State) : Res :=
  if s.reaches m then .next ((blockReset m p s).onQueue s) else .next s

/-- BLOCK_RESET_DONE. -/
def execBlockResetDone (p : Page) (s : State) : Res := .next ((blockResetDone p s).onQueue s)

/-- ERR_INJ_WRITE. -/
def execErrInjWrite (m : Master) (p : Page) (value : Word) (s : State) : Res :=
  if s.reaches m then .next ((errInjWrite m p value s).onQueue s) else .next s

/-- INJECTION_FIRE. -/
def execInjectionFire (p : Page) (s : State) : Res := .next ((injectionFire p s).onQueue s)

/-- LOCK_ACQUIRE. -/
def execLockAcquire (m : Master) (p : Page) (s : State) : Res :=
  if s.reaches m then .next ((lockAcquire m p s).onQueue s) else .next s

/-- LOCK_RELEASE. -/
def execLockRelease (m : Master) (p : Page) (s : State) : Res :=
  if s.reaches m then .next ((lockRelease m p s).onQueue s) else .next s

/-- DOORBELL_SET. -/
def execDoorbellSet (m : Master) (p : Page) (bits : Word) (s : State) : Res :=
  if s.reaches m then .next ((doorbellSet m p bits s).onQueue s) else .next s

/-- DOORBELL_UNMASK. -/
def execDoorbellUnmask (m : Master) (p : Page) (mask : Word) (s : State) : Res :=
  if s.reaches m then .next ((doorbellUnmask m p mask s).onQueue s) else .next s

/-- NOP. -/
def execNop (h : Half) (c : Fin 288) (e : HwEvent) (s : State) : Res := .next ((nop h c e s).onQueue s)

/-- MMA. -/
def execMma (h : Half) (c : Fin 288) (e : HwEvent) (s : State) : Res := .next ((mma h c e s).onQueue s)

/-- LOAD. -/
def execLoad (h : Half) (c : Fin 288) (e : HwEvent) (s : State) : Res := .next ((load h c e s).onQueue s)

/-- STORE. -/
def execStore (h : Half) (c : Fin 288) (e : HwEvent) (s : State) : Res := .next ((store h c e s).onQueue s)

/-- SCATTER. -/
def execScatter (h : Half) (c : Fin 288) (e : HwEvent) (s : State) : Res := .next ((scatter h c e s).onQueue s)

/-- PREFETCH. -/
def execPrefetch (h : Half) (c : Fin 288) (e : HwEvent) (s : State) : Res := .next ((prefetch h c e s).onQueue s)

/-- MOVE. -/
def execMove (h : Half) (c : Fin 288) (e : HwEvent) (s : State) : Res := .next ((move h c e s).onQueue s)

/-- GATHER. -/
def execGather (h : Half) (c : Fin 288) (e : HwEvent) (s : State) : Res := .next ((gather h c e s).onQueue s)

/-- VADD. -/
def execVadd (h : Half) (c : Fin 288) (e : HwEvent) (s : State) : Res := .next ((vadd h c e s).onQueue s)

/-- VSUB. -/
def execVsub (h : Half) (c : Fin 288) (e : HwEvent) (s : State) : Res := .next ((vsub h c e s).onQueue s)

/-- VMUL. -/
def execVmul (h : Half) (c : Fin 288) (e : HwEvent) (s : State) : Res := .next ((vmul h c e s).onQueue s)

/-- VMAX. -/
def execVmax (h : Half) (c : Fin 288) (e : HwEvent) (s : State) : Res := .next ((vmax h c e s).onQueue s)

/-- VMIN. -/
def execVmin (h : Half) (c : Fin 288) (e : HwEvent) (s : State) : Res := .next ((vmin h c e s).onQueue s)

/-- VFMA. -/
def execVfma (h : Half) (c : Fin 288) (e : HwEvent) (s : State) : Res := .next ((vfma h c e s).onQueue s)

/-- VFILL. -/
def execVfill (h : Half) (c : Fin 288) (e : HwEvent) (s : State) : Res := .next ((vfill h c e s).onQueue s)

/-- VUN. -/
def execVun (h : Half) (c : Fin 288) (e : HwEvent) (s : State) : Res := .next ((vun h c e s).onQueue s)

/-- TRANS. -/
def execTrans (h : Half) (c : Fin 288) (e : HwEvent) (s : State) : Res := .next ((trans h c e s).onQueue s)

/-- CVT. -/
def execCvt (h : Half) (c : Fin 288) (e : HwEvent) (s : State) : Res := .next ((cvt h c e s).onQueue s)

/-- QUANT. -/
def execQuant (h : Half) (c : Fin 288) (e : HwEvent) (s : State) : Res := .next ((quant h c e s).onQueue s)

/-- RED. -/
def execRed (h : Half) (c : Fin 288) (e : HwEvent) (s : State) : Res := .next ((red h c e s).onQueue s)

/-- SOP. -/
def execSop (h : Half) (c : Fin 288) (e : HwEvent) (s : State) : Res := .next ((sop h c e s).onQueue s)

/-- SLI. -/
def execSli (h : Half) (c : Fin 288) (e : HwEvent) (s : State) : Res := .next ((sli h c e s).onQueue s)

/-- SLD. -/
def execSld (h : Half) (c : Fin 288) (e : HwEvent) (s : State) : Res := .next ((sld h c e s).onQueue s)

/-- SST. -/
def execSst (h : Half) (c : Fin 288) (e : HwEvent) (s : State) : Res := .next ((sst h c e s).onQueue s)

/-- SRD. -/
def execSrd (h : Half) (c : Fin 288) (e : HwEvent) (s : State) : Res := .next ((srd h c e s).onQueue s)

/-- LOOP. -/
def execLoop (h : Half) (c : Fin 288) (e : HwEvent) (s : State) : Res := .next ((loop h c e s).onQueue s)

/-- BR. -/
def execBr (h : Half) (c : Fin 288) (e : HwEvent) (s : State) : Res := .next ((br h c e s).onQueue s)

/-- END. -/
def execEndPart (h : Half) (c : Fin 288) (e : HwEvent) (s : State) : Res := .next ((endPart h c e s).onQueue s)

/-- CELL_SIGNAL. -/
def execCellSignal (h : Half) (c : Fin 288) (e : HwEvent) (s : State) : Res := .next ((cellSignal h c e s).onQueue s)

/-- CELL_WAIT. -/
def execCellWait (h : Half) (c : Fin 288) (e : HwEvent) (s : State) : Res := .next ((cellWait h c e s).onQueue s)

/-- CELL_FENCE. -/
def execCellFence (h : Half) (c : Fin 288) (e : HwEvent) (s : State) : Res := .next ((cellFence h c e s).onQueue s)

/-- INSTRUCTION_COMPLETE. -/
def execInstructionComplete (h : Half) (c : Fin 288) (u : CUnit) (s : State) : Res := .next ((instructionComplete h c u s).onQueue s)

/-- CELL_STORE_SCRUB. -/
def execCellStoreScrub (h : Half) (c : Fin 288) (line : Fin 65536) (u : Upset) (s : State) : Res :=
  .next ((cellStoreScrub h c line u s).onQueue s)

/-- RETIRE_REQ. -/
def execRetireReq (m : Master) (h : Half) (c : Fin 288) (s : State) : Res :=
  if s.reaches m then .next ((retireReq m h c s).onQueue s) else .next s

/-- SWAP_START. -/
def execSwapStart (h : Half) (c : Fin 288) (bistFail : List (Fin 288)) (s : State) : Res := .next ((swapStart h c bistFail s).onQueue s)

/-- CELL_RESET. -/
def execCellReset (m : Master) (h : Half) (c : Fin 288) (s : State) : Res :=
  if s.reaches m then .next ((cellReset m h c s).onQueue s) else .next s

/-- QUEUE_DOORBELL. -/
def execQueueDoorbell (m : Master) (r : QRef) (value : Word) (s : State) : Res :=
  if s.reaches m then .next ((queueDoorbell m r value s).onQueue s) else .next s

/-- ENABLE. -/
def execEnable (m : Master) (r : QRef) (s : State) : Res :=
  if s.reaches m then .next ((enable m r s).onQueue s) else .next s

/-- PAUSE. -/
def execPause (m : Master) (r : QRef) (s : State) : Res :=
  if s.reaches m then .next ((pause m r s).onQueue s) else .next s

/-- RESUME. -/
def execResume (m : Master) (r : QRef) (s : State) : Res :=
  if s.reaches m then .next ((resume m r s).onQueue s) else .next s

/-- DRAIN. -/
def execDrain (m : Master) (r : QRef) (s : State) : Res :=
  if s.reaches m then .next ((drain m r s).onQueue s) else .next s

/-- DISABLE. -/
def execDisable (m : Master) (r : QRef) (s : State) : Res :=
  if s.reaches m then .next ((disable m r s).onQueue s) else .next s

/-- QUEUE_RESET. -/
def execQueueReset (m : Master) (r : QRef) (s : State) : Res :=
  if s.reaches m then .next ((queueReset m r s).onQueue s) else .next s

/-- Q_CMD_BAD. -/
def execQCmdBad (m : Master) (r : QRef) (op : BitVec 4) (s : State) : Res :=
  if s.reaches m then .next ((qCmdBad m r op s).onQueue s) else .next s

/-- QUEUE_PAUSED. -/
def execQueuePaused (r : QRef) (s : State) : Res := .next ((queuePaused r s).onQueue s)

/-- QUEUE_DRAINED. -/
def execQueueDrained (r : QRef) (s : State) : Res := .next ((queueDrained r s).onQueue s)

/-- PRIORITY_AGING. -/
def execPriorityAging (r : QRef) (s : State) : Res := .next ((priorityAging r s).onQueue s)

/-- KERNEL. -/
def execKernel (r : QRef) (hr : HostRead) (s : State) : Res := .next ((kernel r hr s).onQueue s)

/-- KERNEL_RESERVE. -/
def execKernelReserve (r : QRef) (slot : BitVec 16) (s : State) : Res := .next ((kernelReserve r slot s).onQueue s)

/-- KERNEL_START. -/
def execKernelStart (r : QRef) (slot : BitVec 16) (s : State) : Res := .next ((kernelStart r slot s).onQueue s)

/-- KERNEL_PART_COMPLETE. -/
def execKernelPartComplete (h : Half) (c : Fin 288) (s : State) : Res := .next ((kernelPartComplete h c s).onQueue s)

/-- KERNEL_TIMEOUT. -/
def execKernelTimeout (r : QRef) (slot : BitVec 16) (s : State) : Res := .next ((kernelTimeout r slot s).onQueue s)

/-- COPY. -/
def execCopy (r : QRef) (hr : HostRead) (s : State) : Res := .next ((copy r hr s).onQueue s)

/-- FILL. -/
def execFill (r : QRef) (hr : HostRead) (s : State) : Res := .next ((fill r hr s).onQueue s)

/-- COLLECTIVE. -/
def execCollective (r : QRef) (hr : HostRead) (s : State) : Res := .next ((collective r hr s).onQueue s)

/-- FENCE. -/
def execFence (r : QRef) (hr : HostRead) (s : State) : Res := .next ((fence r hr s).onQueue s)

/-- SIGNAL. -/
def execSignal (r : QRef) (hr : HostRead) (s : State) : Res := .next ((signal r hr s).onQueue s)

/-- WAIT. -/
def execWait (r : QRef) (hr : HostRead) (s : State) : Res := .next ((wait r hr s).onQueue s)

/-- WAIT_TIMEOUT. -/
def execWaitTimeout (w : Waiter) (s : State) : Res := .next ((waitTimeout w s).onQueue s)

/-- EVENT. -/
def execEvent (r : QRef) (hr : HostRead) (s : State) : Res := .next ((event r hr s).onQueue s)

/-- DESCRIPTOR_COMPLETE. -/
def execDescriptorComplete (r : QRef) (slot : BitVec 16) (s : State) : Res := .next ((descriptorComplete r slot s).onQueue s)

/-- SEM_ADD. -/
def execSemAdd (m : Master) (h : Half) (value : Word) (s : State) : Res :=
  if s.reaches m then .next ((semAdd m h value s).onQueue s) else .next s

/-- SEM_VAL. -/
def execSemVal (m : Master) (h : Half) (value : Word) (s : State) : Res :=
  if s.reaches m then .next ((semVal m h value s).onQueue s) else .next s

/-- QCT_BASE_WRITE. -/
def execQctBaseWrite (m : Master) (h : Half) (high : Bool) (value : Word) (s : State) : Res :=
  if s.reaches m then .next ((qctBaseWrite m h high value s).onQueue s) else .next s

/-- SEQ_QUIESCE. -/
def execSeqQuiesce (m : Master) (h : Half) (s : State) : Res :=
  if s.reaches m then .next ((seqQuiesce m h s).onQueue s) else .next s

/-- SEQ_RUN. -/
def execSeqRun (m : Master) (h : Half) (s : State) : Res :=
  if s.reaches m then .next ((seqRun m h s).onQueue s) else .next s

/-- SEQ_QUIESCED. -/
def execSeqQuiesced (h : Half) (s : State) : Res := .next ((seqQuiesced h s).onQueue s)

/-- TERMINATE. -/
def execTerminate (m : Master) (h : Half) (p : Fin 8) (s : State) : Res :=
  if s.reaches m then .next ((terminate m h p s).onQueue s) else .next s

/-- RESTART. -/
def execRestart (m : Master) (h : Half) (p : Fin 8) (s : State) : Res :=
  if s.reaches m then .next ((restart m h p s).onQueue s) else .next s

/-- MEMORY_ACCESS. -/
def execMemoryAccess (r : LineReq) (s : State) : Res :=
  if !(Instr.memoryAccess r).wf then .refused .illFormed else .next ((memoryAccess r s).onQueue s)

/-- ILV_WRITE. -/
def execIlvWrite (m : Master) (h : Half) (i : Fin 5) (value : Word) (s : State) : Res :=
  if s.reaches m then .next ((ilvWrite m h i value s).onQueue s) else .next s

/-- HBM_GROUP_TRAINED. -/
def execHbmGroupTrained (h : Half) (i : Fin 12) (e : GroupEyes) (s : State) : Res := .next ((hbmGroupTrained h i e s).onQueue s)

/-- HBM_RETRAIN. -/
def execHbmRetrain (m : Master) (h : Half) (i : Fin 12) (s : State) : Res :=
  if s.reaches m then .next ((hbmRetrain m h i s).onQueue s) else .next s

/-- HBM_TIMING_UPDATE. -/
def execHbmTimingUpdate (h : Half) (i : Fin 12) (ch : Fin 32) (o : CalObs) (s : State) : Res :=
  .next ((hbmTimingUpdate h i ch o s).onQueue s)

/-- PATROL_SCRUB. -/
def execPatrolScrub (t : ScrubTarget) (addr : BitVec 52) (u : Upset) (s : State) : Res := .next ((patrolScrub t addr u s).onQueue s)

/-- HARD_PPR. -/
def execHardPpr (h : Half) (t : PprTarget) (addr : BitVec 52) (s : State) : Res := .next ((hardPpr h t addr s).onQueue s)

/-- SLICE_RETIRE. -/
def execSliceRetire (h : Half) (i : Fin 12) (slice : Fin 72) (why : RetireCause) (s : State) : Res :=
  .next ((sliceRetire h i slice why s).onQueue s)

/-- DIMM_FAIL. -/
def execDimmFail (h : Half) (c : Fin 8) (s : State) : Res := .next ((dimmFail h c s).onQueue s)

/-- DDR_TRAIN_DONE. -/
def execDdrTrainDone (h : Half) (c : Fin 8) (pass : Bool) (eye : BitVec 8) (t100 : BitVec 8) (s : State) : Res :=
  .next ((ddrTrainDone h c pass eye t100 s).onQueue s)

/-- SPD_WAIT_TIMEOUT. -/
def execSpdWaitTimeout (h : Half) (c : Fin 8) (s : State) : Res := .next ((spdWaitTimeout h c s).onQueue s)

/-- TIER_MAP. -/
def execTierMap (h : Half) (s : State) : Res := .next ((tierMap h s).onQueue s)

/-- DDR_CA_ALERT. -/
def execDdrCaAlert (h : Half) (c : Fin 8) (addr : BitVec 52) (retriesFail : Bool) (s : State) : Res :=
  .next ((ddrCaAlert h c addr retriesFail s).onQueue s)

/-- EPOCH_ADVANCE. -/
def execEpochAdvance (h : Half) (s : State) : Res := .next ((epochAdvance h s).onQueue s)

/-- MESH_PACKET. -/
def execMeshPacket (p : MeshPkt) (s : State) : Res := .next ((meshPacket p s).onQueue s)

/-- MESH_REQUEST_TIMEOUT. -/
def execMeshRequestTimeout (h : Half) (q : Fin 4) (write : Bool) (addr : BitVec 52) (cell : Option (Fin 288)) (s : State) : Res :=
  .next ((meshRequestTimeout h q write addr cell s).onQueue s)

/-- HINGE_FLIT. -/
def execHingeFlit (h : Half) (l : LinkNo) (f : HingeFlit) (s : State) : Res := .next ((hingeFlit h l f s).onQueue s)

/-- HINGE_ACK_TIMER. -/
def execHingeAckTimer (h : Half) (b : Fin 16) (s : State) : Res := .next ((hingeAckTimer h b s).onQueue s)

/-- BUNDLE_BROKEN. -/
def execBundleBroken (b : Fin 16) (why : BreakCause) (s : State) : Res := .next ((bundleBroken b why s).onQueue s)

/-- HINGE_TRAIN_DONE. -/
def execHingeTrainDone (b : Fin 16) (badA badB : List (Fin 68)) (pass : Bool) (s : State) : Res :=
  .next ((hingeTrainDone b badA badB pass s).onQueue s)

/-- LANE_FAIL. -/
def execLaneFail (l : DieLink) (lane : Fin 68) (s : State) : Res := .next ((laneFail l lane s).onQueue s)

/-- RETRAIN_FULL. -/
def execRetrainFull (m : Master) (l : DieLink) (s : State) : Res :=
  if s.reaches m then .next ((retrainFull m l s).onQueue s) else .next s

/-- HINGE_LINK_RESET. -/
def execHingeLinkReset (m : Master) (t : LinkTest) (s : State) : Res :=
  if s.reaches m then .next ((hingeLinkReset m t s).onQueue s) else .next s

/-- UCIE_BROKEN. -/
def execUcieBroken (h : Half) (k : Fin 32) (why : BreakCause) (s : State) : Res := .next ((ucieBroken h k why s).onQueue s)

/-- UCIE_DISABLE. -/
def execUcieDisable (m : Master) (h : Half) (k : Fin 32) (s : State) : Res :=
  if s.reaches m then .next ((ucieDisable m h k s).onQueue s) else .next s

/-- OE_REQUEST_CHECK. -/
def execOeRequestCheck (h : Half) (o : Fin 8) (r : OeReq) (s : State) : Res := .next ((oeRequestCheck h o r s).onQueue s)

/-- FIREWALL_WINDOW_CHANGE. -/
def execFirewallWindowChange (h : Half) (o : Fin 8) (win : Fin 17) (w : FwWin) (s : State) : Res :=
  .next ((firewallWindowChange h o win w s).onQueue s)

/-- REGION_THROTTLE_RELEASE. -/
def execRegionThrottleRelease (h : Half) (q : Fin 4) (p : RegionPair) (s : State) : Res := .next ((regionThrottleRelease h q p s).onQueue s)

/-- TILE_HEARTBEAT_LOSS. -/
def execTileHeartbeatLoss (h : Half) (o : Fin 8) (s : State) : Res := .next ((tileHeartbeatLoss h o s).onQueue s)

/-- BIAS_CEILING_RESTORE. -/
def execBiasCeilingRestore (h : Half) (o : Fin 8) (s : State) : Res := .next ((biasCeilingRestore h o s).onQueue s)

/-- RING_LOCK_UPDATE. -/
def execRingLockUpdate (h : Half) (o : Fin 8) (r : RingId) (x : RingObs) (s : State) : Res := .next ((ringLockUpdate h o r x s).onQueue s)

/-- PWR_RPT. -/
def execPwrRpt (p : PortId) (g : Fin 3) (values : List (BitVec 16)) (biasHeld : BitVec 18) (s : State) : Res :=
  .next ((pwrRpt p g values biasHeld s).onQueue s)

/-- HANDOVER_TIMEOUT. -/
def execHandoverTimeout (p : PortId) (s : State) : Res := .next ((handoverTimeout p s).onQueue s)

/-- SUB_REQ. -/
def execSubReq (p : PortId) (ch : Fin 18) (s : State) : Res := .next ((subReq p ch s).onQueue s)

/-- LASER_SUDDEN_FAIL. -/
def execLaserSuddenFail (h : Half) (o : Fin 8) (n : Fin 18) (s : State) : Res := .next ((laserSuddenFail h o n s).onQueue s)

/-- LOSS_OF_LIGHT. -/
def execLossOfLight (p : PortId) (s : State) : Res := .next ((lossOfLight p s).onQueue s)

/-- PROBE. -/
def execProbe (p : PortId) (s : State) : Res := .next ((probe p s).onQueue s)

/-- LIGHT_DETECT. -/
def execLightDetect (p : PortId) (x : SearchObs) (s : State) : Res := .next ((lightDetect p x s).onQueue s)

/-- SHUT. -/
def execShut (m : Master) (p : PortId) (s : State) : Res :=
  if s.reaches m then .next ((shut m p s).onQueue s) else .next s

/-- UNSHUT. -/
def execUnshut (m : Master) (p : PortId) (s : State) : Res :=
  if s.reaches m then .next ((unshut m p s).onQueue s) else .next s

/-- OE_REQ_OFF. -/
def execOeReqOff (m : Master) (h : Half) (o : Fin 8) (s : State) : Res :=
  if s.reaches m then .next ((oeReqOff m h o s).onQueue s) else .next s

/-- OE_REQ_DARK. -/
def execOeReqDark (m : Master) (h : Half) (o : Fin 8) (s : State) : Res :=
  if s.reaches m then .next ((oeReqDark m h o s).onQueue s) else .next s

/-- OE_REQ_DIM. -/
def execOeReqDim (m : Master) (h : Half) (o : Fin 8) (s : State) : Res :=
  if s.reaches m then .next ((oeReqDim m h o s).onQueue s) else .next s

/-- OE_REQ_ACTIVE. -/
def execOeReqActive (m : Master) (h : Half) (o : Fin 8) (s : State) : Res :=
  if s.reaches m then .next ((oeReqActive m h o s).onQueue s) else .next s

/-- OE_WAKE_DONE. -/
def execOeWakeDone (h : Half) (o : Fin 8) (us : BitVec 24) (w : WakeObs) (s : State) : Res := .next ((oeWakeDone h o us w s).onQueue s)

/-- OE_DIM_WAKE. -/
def execOeDimWake (h : Half) (w : DimWake) (s : State) : Res := .next ((oeDimWake h w s).onQueue s)

/-- OE_IDLE_DIM. -/
def execOeIdleDim (h : Half) (o : Fin 8) (s : State) : Res := .next ((oeIdleDim h o s).onQueue s)

/-- OE_IDLE_DARK. -/
def execOeIdleDark (h : Half) (o : Fin 8) (s : State) : Res := .next ((oeIdleDark h o s).onQueue s)

/-- OE_RESET. -/
def execOeReset (m : Master) (h : Half) (o : Fin 8) (s : State) : Res :=
  if s.reaches m then .next ((oeReset m h o s).onQueue s) else .next s

/-- OE_RESET_DONE. -/
def execOeResetDone (h : Half) (x : OeStart) (s : State) : Res := .next ((oeResetDone h x s).onQueue s)

/-- MON_SEL. -/
def execMonSel (m : Master) (h : Half) (o : Fin 8) (value : Word) (s : State) : Res :=
  if s.reaches m then .next ((monSel m h o value s).onQueue s) else .next s

/-- RESEARCH. -/
def execResearch (m : Master) (p : PortId) (x : SearchObs) (s : State) : Res :=
  if s.reaches m then .next ((research m p x s).onQueue s) else .next s

/-- SPARE_GO. -/
def execSpareGo (m : Master) (h : Half) (o : Fin 8) (value : Word) (s : State) : Res :=
  if s.reaches m then .next ((spareGo m h o value s).onQueue s) else .next s

/-- FLIT_SEND. -/
def execFlitSend (p : PortId) (s : State) : Res := .next ((flitSend p s).onQueue s)

/-- DATA_FLIT_RECEIVE. -/
def execDataFlitReceive (p : PortId) (flit : List Byte) (s : State) : Res := .next ((dataFlitReceive p flit s).onQueue s)

/-- ALIGN_FLIT. -/
def execAlignFlit (p : PortId) (lanes : List (List Nat)) (s : State) : Res := .next ((alignFlit p lanes s).onQueue s)

/-- ACK_UPDATE_TIMER. -/
def execAckUpdateTimer (p : PortId) (s : State) : Res := .next ((ackUpdateTimer p s).onQueue s)

/-- REPLAY_TIMEOUT. -/
def execReplayTimeout (p : PortId) (s : State) : Res := .next ((replayTimeout p s).onQueue s)

/-- SPILL_READ. -/
def execSpillRead (p : PortId) (ue : Bool) (s : State) : Res := .next ((spillRead p ue s).onQueue s)

/-- REFRESH_LOST. -/
def execRefreshLost (p : PortId) (s : State) : Res := .next ((refreshLost p s).onQueue s)

/-- XOFF_TIMEOUT. -/
def execXoffTimeout (p : PortId) (s : State) : Res := .next ((xoffTimeout p s).onQueue s)

/-- LINK_TRAIN. -/
def execLinkTrain (p : PortId) (o : TrainObs) (s : State) : Res := .next ((linkTrain p o s).onQueue s)

/-- TRAIN_STEP_TIMEOUT. -/
def execTrainStepTimeout (p : PortId) (s : State) : Res := .next ((trainStepTimeout p s).onQueue s)

/-- WAITING_EXPIRY. -/
def execWaitingExpiry (p : PortId) (s : State) : Res := .next ((waitingExpiry p s).onQueue s)

/-- LOCK_LOSS_TIMEOUT. -/
def execLockLossTimeout (p : PortId) (lane : Fin 16) (s : State) : Res := .next ((lockLossTimeout p lane s).onQueue s)

/-- PARTNER_TRAINING_BLOCKS. -/
def execPartnerTrainingBlocks (p : PortId) (s : State) : Res := .next ((partnerTrainingBlocks p s).onQueue s)

/-- HOLD_EXPIRE. -/
def execHoldExpire (p : PortId) (s : State) : Res := .next ((holdExpire p s).onQueue s)

/-- SLEEP_EXCHANGE_TIMEOUT. -/
def execSleepExchangeTimeout (p : PortId) (s : State) : Res := .next ((sleepExchangeTimeout p s).onQueue s)

/-- LINK_WAKE. -/
def execLinkWake (p : PortId) (s : State) : Res := .next ((linkWake p s).onQueue s)

/-- SLEEP_WAKE_TIMEOUT. -/
def execSleepWakeTimeout (p : PortId) (s : State) : Res := .next ((sleepWakeTimeout p s).onQueue s)

/-- HO_REQ. -/
def execHoReq (p : PortId) (n sp : Fin 18) (peaks : List Nat) (s : State) : Res := .next ((hoReq p n sp peaks s).onQueue s)

/-- HO_READY. -/
def execHoReady (p : PortId) (n sp : Fin 18) (s : State) : Res := .next ((hoReady p n sp s).onQueue s)

/-- HO_DONE. -/
def execHoDone (p : PortId) (n sp : Fin 18) (k : BitVec 16) (s : State) : Res := .next ((hoDone p n sp k s).onQueue s)

/-- HO_FAIL. -/
def execHoFail (p : PortId) (n sp : Fin 18) (s : State) : Res := .next ((hoFail p n sp s).onQueue s)

/-- SLEEP_REQ. -/
def execSleepReq (p : PortId) (s : State) : Res := .next ((sleepReq p s).onQueue s)

/-- SLEEP_ACK. -/
def execSleepAck (p : PortId) (s : State) : Res := .next ((sleepAck p s).onQueue s)

/-- RETRAIN_REQ. -/
def execRetrainReq (p : PortId) (cause : BitVec 4) (width : Nat) (s : State) : Res := .next ((retrainReq p cause width s).onQueue s)

/-- TRN_PARAM. -/
def execTrnParam (p : PortId) (x : TrnParam) (s : State) : Res := .next ((trnParam p x s).onQueue s)

/-- TRN_ECHO. -/
def execTrnEcho (p : PortId) (v : Word) (s : State) : Res := .next ((trnEcho p v s).onQueue s)

/-- TRN_DONE. -/
def execTrnDone (p : PortId) (w : Nat) (resume : Bool) (s : State) : Res := .next ((trnDone p w resume s).onQueue s)

/-- DROP_RX. -/
def execDropRx (m : Master) (p : PortId) (s : State) : Res :=
  if s.reaches m then .next ((dropRx m p s).onQueue s) else .next s

/-- CRC_TX. -/
def execCrcTx (m : Master) (p : PortId) (s : State) : Res :=
  if s.reaches m then .next ((crcTx m p s).onQueue s) else .next s

/-- RD. -/
def execRd (p : PortId) (m : ReqMsg) (s : State) : Res := .next ((rd p m s).onQueue s)

/-- WR. -/
def execWr (p : PortId) (m : ReqMsg) (s : State) : Res := .next ((wr p m s).onQueue s)

/-- ATOM. -/
def execAtom (p : PortId) (m : ReqMsg) (s : State) : Res := .next ((atom p m s).onQueue s)

/-- MSG. -/
def execMsg (p : PortId) (m : ReqMsg) (s : State) : Res := .next ((msg p m s).onQueue s)

/-- UNKNOWN_OPC. -/
def execUnknownOpc (p : PortId) (vcReq : Bool) (m : ReqMsg) (s : State) : Res := .next ((unknownOpc p vcReq m s).onQueue s)

/-- HELLO. -/
def execHello (p : PortId) (w : Waggle) (s : State) : Res := .next ((hello p w s).onQueue s)

/-- OPEN. -/
def execOpenMsg (p : PortId) (m : ReqMsg) (w : Waggle) (s : State) : Res := .next ((openCmd p m w s).onQueue s)

/-- ACCEPT. -/
def execAccept (p : PortId) (m : ReqMsg) (w : Waggle) (s : State) : Res := .next ((accept p m w s).onQueue s)

/-- REFUSE. -/
def execRefuse (p : PortId) (m : ReqMsg) (w : Waggle) (s : State) : Res := .next ((refuse p m w s).onQueue s)

/-- DARK. -/
def execDark (p : PortId) (w : Waggle) (s : State) : Res := .next ((dark p w s).onQueue s)

/-- HELLO_TIMEOUT. -/
def execHelloTimeout (p : PortId) (s : State) : Res := .next ((helloTimeout p s).onQueue s)

/-- OPEN_REPEAT. -/
def execOpenRepeat (h : Half) (fid : BitVec 16) (s : State) : Res := .next ((openRepeat h fid s).onQueue s)

/-- TRANSIT_FORWARD. -/
def execTransitForward (p : PortId) (m : FabMsg) (s : State) : Res := .next ((transitForward p m s).onQueue s)

/-- TRANSIT_AGE_EXPIRE. -/
def execTransitAgeExpire (h : Half) (s : State) : Res := .next ((transitAgeExpire h s).onQueue s)

/-- PATH_LOST. -/
def execPathLost (p : PortId) (m : RspMsg) (s : State) : Res := .next ((pathLost p m s).onQueue s)

/-- RD_DATA. -/
def execRdData (p : PortId) (m : RspMsg) (s : State) : Res := .next ((rdData p m s).onQueue s)

/-- WR_ACK. -/
def execWrAck (p : PortId) (m : RspMsg) (s : State) : Res := .next ((wrAck p m s).onQueue s)

/-- ATOM_RSP. -/
def execAtomRsp (p : PortId) (m : RspMsg) (s : State) : Res := .next ((atomRsp p m s).onQueue s)

/-- MSG_ACK. -/
def execMsgAck (p : PortId) (m : RspMsg) (s : State) : Res := .next ((msgAck p m s).onQueue s)

/-- REQUEST_TIMEOUT. -/
def execRequestTimeout (tag : BitVec 15) (s : State) : Res := .next ((requestTimeout tag s).onQueue s)

/-- RETRY_RESEND. -/
def execRetryResend (tag : BitVec 15) (late : Bool) (s : State) : Res := .next ((retryResend tag late s).onQueue s)

/-- RESULT_CACHE_EXPIRE. -/
def execResultCacheExpire (h : Half) (sfid : BitVec 16) (session : BitVec 32) (tag : BitVec 15) (s : State) : Res :=
  .next ((resultCacheExpire h sfid session tag s).onQueue s)

/-- FAB_TMO. -/
def execFabTmo (m : Master) (h : Half) (value : Word) (passed : List (BitVec 15)) (s : State) : Res :=
  if s.reaches m then .next ((fabTmo m h value passed s).onQueue s) else .next s

/-- PF_CTX_LOAD. -/
def execPfCtxLoad (m : Master) (h : Half) (p : Fin 8) (value : Word) (s : State) : Res :=
  if s.reaches m then .next ((pfCtxLoad m h p value s).onQueue s) else .next s

/-- FCR_DB. -/
def execFcrDb (m : Master) (h : Half) (p : Fin 8) (value : Word) (hr : HostRead) (s : State) : Res :=
  if s.reaches m then .next ((fcrDb m h p value hr s).onQueue s) else .next s

/-- COLL_DATA. -/
def execCollData (p : PortId) (m : CollMsg) (s : State) : Res := .next ((collData p m s).onQueue s)

/-- COLL_READY. -/
def execCollReady (p : PortId) (m : CollMsg) (s : State) : Res := .next ((collReady p m s).onQueue s)

/-- COLL_ABORT. -/
def execCollAbort (p : PortId) (m : CollMsg) (s : State) : Res := .next ((collAbort p m s).onQueue s)

/-- COLLECTIVE_TIMEOUT. -/
def execCollectiveTimeout (r : QRef) (slot : BitVec 16) (s : State) : Res := .next ((collectiveTimeout r slot s).onQueue s)

/-- PERST. -/
def execPerst (h : Half) (s : State) : Res := .next ((perst h s).onQueue s)

/-- HOT_RESET. -/
def execHotReset (f : Fn) (s : State) : Res := .next ((hotReset f s).onQueue s)

/-- FLR. -/
def execFlr (f : Fn) (s : State) : Res := .next ((flr f s).onQueue s)

/-- D3HOT_ENTRY. -/
def execD3hotEntry (f : Fn) (s : State) : Res := .next ((d3hotEntry f s).onQueue s)

/-- D0_RETURN. -/
def execD0Return (f : Fn) (s : State) : Res := .next ((d0Return f s).onQueue s)

/-- DATA_LINK_DOWN. -/
def execDataLinkDown (h : Half) (s : State) : Res := .next ((dataLinkDown h s).onQueue s)

/-- DATA_LINK_UP. -/
def execDataLinkUp (h : Half) (flit : Bool) (rate : BitVec 4) (width : BitVec 5) (s : State) : Res :=
  .next ((dataLinkUp h flit rate width s).onQueue s)

/-- PORT_LOST. -/
def execPortLost (h : Half) (s : State) : Res := .next ((portLost h s).onQueue s)

/-- GIVEBACK. -/
def execGiveback (m : Master) (h : Half) (s : State) : Res :=
  if s.reaches m then .next ((giveback m h s).onQueue s) else .next s

/-- BAR2_READ. -/
def execBar2Read (f : Fn) (offset : Nat) (len : Nat) (u : Upset) (s : State) : Res := .next ((bar2Read f offset len u s).onQueue s)

/-- BAR2_WRITE. -/
def execBar2Write (f : Fn) (offset : Nat) (data : List Byte) (poisoned : Bool) (s : State) : Res :=
  .next ((bar2Write f offset data poisoned s).onQueue s)

/-- HOST_COMPLETION. -/
def execHostCompletion (h : Half) (id : Nat) (c : CplStatus) (s : State) : Res := .next ((hostCompletion h id c s).onQueue s)

/-- CPL_TIMEOUT. -/
def execCplTimeout (h : Half) (id : Nat) (s : State) : Res := .next ((cplTimeout h id s).onQueue s)

/-- MSIX_UNMASK. -/
def execMsixUnmask (f : Fn) (vec : Fin 2048) (s : State) : Res := .next ((msixUnmask f vec s).onQueue s)

/-- MBX_SEND. -/
def execMbxSend (m : Master) (i : Fin 48) (s : State) : Res :=
  if s.reaches m then .next ((mbxSend m i s).onQueue s) else .next s

/-- MBX_ACK. -/
def execMbxAck (m : Master) (i : Fin 48) (s : State) : Res :=
  if s.reaches m then .next ((mbxAck m i s).onQueue s) else .next s

/-- MBX_RSEND. -/
def execMbxRsend (m : Master) (i : Fin 48) (s : State) : Res :=
  if s.reaches m then .next ((mbxRsend m i s).onQueue s) else .next s

/-- MBX_RACK. -/
def execMbxRack (m : Master) (i : Fin 48) (s : State) : Res :=
  if s.reaches m then .next ((mbxRack m i s).onQueue s) else .next s

/-- IN_SLOT_WRITE. -/
def execInSlotWrite (m : Master) (i : Fin 48) (word : Fin 64) (value : Word) (s : State) : Res :=
  if s.reaches m then .next ((inSlotWrite m i word value s).onQueue s) else .next s

/-- OUT_SLOT_WRITE. -/
def execOutSlotWrite (m : Master) (i : Fin 48) (word : Fin 64) (value : Word) (s : State) : Res :=
  if s.reaches m then .next ((outSlotWrite m i word value s).onQueue s) else .next s

/-- FDB_SET. -/
def execFdbSet (m : Master) (i : Fin 48) (bits : Word) (s : State) : Res :=
  if s.reaches m then .next ((fdbSet m i bits s).onQueue s) else .next s

/-- GET_INFO. -/
def execGetInfo (i : Fin 32) (s : State) : Res := .next ((getInfo i s).onQueue s)

/-- GET_NUMA. -/
def execGetNuma (i : Fin 32) (s : State) : Res := .next ((getNuma i s).onQueue s)

/-- XT_WRITE. -/
def execXtWrite (i : Fin 32) (s : State) : Res := .next ((xtWrite i s).onQueue s)

/-- XT_READ. -/
def execXtRead (i : Fin 32) (s : State) : Res := .next ((xtRead i s).onQueue s)

/-- NOTE_ACK. -/
def execNoteAck (i : Fin 32) (s : State) : Res := .next ((noteAck i s).onQueue s)

/-- DOE_REQUEST. -/
def execDoeRequest (f : Fn) (o : DoeObj) (s : State) : Res := .next ((doeRequest f o s).onQueue s)

/-- DOE_ABORT. -/
def execDoeAbort (f : Fn) (s : State) : Res := .next ((doeAbort f s).onQueue s)

/-- CONTROL_FRAME. -/
def execControlFrame (joining : List (Chan × ResyncObs)) (s : State) : Res := .next ((controlFrame joining s).onQueue s)

/-- COMMAND_COPY. -/
def execCommandCopy (c : CmdCopy) (s : State) : Res := .next ((commandCopy c s).onQueue s)

/-- VOTE_WINDOW_EXPIRE. -/
def execVoteWindowExpire (a : Fin 32) (s : State) : Res := .next ((voteWindowExpire a s).onQueue s)

/-- HEARTBEAT_LOSS. -/
def execHeartbeatLoss (v : HbViews) (s : State) : Res := .next ((heartbeatLoss v s).onQueue s)

/-- HINGE_RETRAIN_TIMER. -/
def execHingeRetrainTimer (bundles : List (Fin 16)) (s : State) : Res := .next ((hingeRetrainTimer bundles s).onQueue s)

/-- CC_RESTART. -/
def execCcRestart (b : Binding) (ok : List Chan) (s : State) : Res := .next ((ccRestart b ok s).onQueue s)

/-- CC_RESTART_WRITE. -/
def execCcRestartWrite (m : Master) (ok : List Chan) (s : State) : Res :=
  if s.reaches m then .next ((ccRestartWrite m ok s).onQueue s) else .next s

/-- GET_TELEMETRY. -/
def execGetTelemetry (b : Binding) (s : State) : Res := .next ((getTelemetry b s).onQueue s)

/-- GET_HEALTH. -/
def execGetHealth (b : Binding) (s : State) : Res := .next ((getHealth b s).onQueue s)

/-- DIMM_DESC. -/
def execDimmDesc (b : Binding) (h : Half) (c : Fin 8) (offset : Nat) (bytes : List Byte) (s : State) : Res :=
  .next ((dimmDesc b h c offset bytes s).onQueue s)

/-- GET_EVENTS. -/
def execGetEvents (b : Binding) (count : BitVec 8) (s : State) : Res := .next ((getEvents b count s).onQueue s)

/-- SET_ENDPOINT_ID. -/
def execSetEndpointId (b : Binding) (eid : BitVec 8) (s : State) : Res := .next ((setEndpointId b eid s).onQueue s)

/-- MCTP_REASSEMBLY_TIMEOUT. -/
def execMctpReassemblyTimeout (b : Binding) (s : State) : Res := .next ((mctpReassemblyTimeout b s).onQueue s)

/-- ENEC. -/
def execEnec (bits : BitVec 8) (s : State) : Res := .next ((enec bits s).onQueue s)

/-- DISEC. -/
def execDisec (bits : BitVec 8) (s : State) : Res := .next ((disec bits s).onQueue s)

/-- RSTDAA. -/
def execRstdaa (s : State) : Res := .next ((rstdaa s).onQueue s)

/-- ENTDAA. -/
def execEntdaa (da : BitVec 7) (s : State) : Res := .next ((entdaa da s).onQueue s)

/-- SETDASA. -/
def execSetdasa (static da : BitVec 7) (s : State) : Res := .next ((setdasa static da s).onQueue s)

/-- SETMRL. -/
def execSetmrl (len : BitVec 16) (s : State) : Res := .next ((setmrl len s).onQueue s)

/-- SETMWL. -/
def execSetmwl (len : BitVec 16) (s : State) : Res := .next ((setmwl len s).onQueue s)

/-- GETPID. -/
def execGetpid (s : State) : Res := .next ((getpid s).onQueue s)

/-- GETBCR. -/
def execGetbcr (s : State) : Res := .next ((getbcr s).onQueue s)

/-- GETDCR. -/
def execGetdcr (s : State) : Res := .next ((getdcr s).onQueue s)

/-- GETSTATUS. -/
def execGetstatus (s : State) : Res := .next ((getstatus s).onQueue s)

/-- GETMRL. -/
def execGetmrl (s : State) : Res := .next ((getmrl s).onQueue s)

/-- GETMWL. -/
def execGetmwl (s : State) : Res := .next ((getmwl s).onQueue s)

/-- GETMXDS. -/
def execGetmxds (s : State) : Res := .next ((getmxds s).onQueue s)

/-- RSTACT. -/
def execRstact (action : BitVec 8) (s : State) : Res := .next ((rstact action s).onQueue s)

/-- HOT_JOIN. -/
def execHotJoin (s : State) : Res := .next ((hotJoin s).onQueue s)

/-- IBI_REPEAT. -/
def execIbiRepeat (s : State) : Res := .next ((ibiRepeat s).onQueue s)

/-- TELEMETRY_REFRESH. -/
def execTelemetryRefresh (s : State) : Res := .next ((telemetryRefresh s).onQueue s)

/-- CAP_REQ. -/
def execCapReq (m : Master) (value : Word) (s : State) : Res :=
  if s.reaches m then .next ((capReq m value s).onQueue s) else .next s

/-- CAP_LOOP. -/
def execCapLoop (o : CapObs) (s : State) : Res := .next ((capLoop o s).onQueue s)

/-- CAP_UNMET. -/
def execCapUnmet (s : State) : Res := .next ((capUnmet s).onQueue s)

/-- CLOCK_RAMP_STEP. -/
def execClockRampStep (h : Half) (q : Fin 4) (s : State) : Res := .next ((clockRampStep h q s).onQueue s)

/-- FMAX. -/
def execFmax (m : Master) (h : Half) (value : Word) (s : State) : Res :=
  if s.reaches m then .next ((fmax m h value s).onQueue s) else .next s

/-- POWER_FAIL. -/
def execPowerFail (s : State) : Res := .next ((powerFail s).onQueue s)

/-- UNDERVOLTAGE. -/
def execUndervoltage (s : State) : Res := .next ((undervoltage s).onQueue s)

/-- OVERVOLTAGE. -/
def execOvervoltage (s : State) : Res := .next ((overvoltage s).onQueue s)

/-- REFCLK_LOSS. -/
def execRefclkLoss (h : Half) (s : State) : Res := .next ((refclkLoss h s).onQueue s)

/-- REFCLK_HOLDOVER_EXPIRE. -/
def execRefclkHoldoverExpire (h : Half) (s : State) : Res := .next ((refclkHoldoverExpire h s).onQueue s)

/-- PLL_UNLOCK. -/
def execPllUnlock (e : PllEvent) (s : State) : Res := .next ((pllUnlock e s).onQueue s)

/-- RAIL_FAULT. -/
def execRailFault (h : Half) (e : RailEvent) (s : State) : Res := .next ((railFault h e s).onQueue s)

/-- AUTO_HALF_RESET. -/
def execAutoHalfReset (h : Half) (o : HalfObs) (s : State) : Res := .next ((autoHalfReset h o s).onQueue s)

/-- HALF_RST_A. -/
def execHalfRstA (m : Master) (o : HalfObs) (s : State) : Res :=
  if s.reaches m then .next ((halfRstA m o s).onQueue s) else .next s

/-- HALF_RST_B. -/
def execHalfRstB (m : Master) (o : HalfObs) (s : State) : Res :=
  if s.reaches m then .next ((halfRstB m o s).onQueue s) else .next s

/-- DOMAIN_GATE. -/
def execDomainGate (d : DomRef) (toOff : Bool) (s : State) : Res := .next ((domainGate d toOff s).onQueue s)

/-- DOMAIN_WAKE. -/
def execDomainWake (d : DomRef) (s : State) : Res := .next ((domainWake d s).onQueue s)

/-- DEVICE_IDLE. -/
def execDeviceIdle (s : State) : Res := .next ((deviceIdle s).onQueue s)

/-- SENSOR_SAMPLE. -/
def execSensorSample (o : SensorObs) (s : State) : Res := .next ((sensorSample o s).onQueue s)

/-- DRAIN_END. -/
def execDrainEnd (s : State) : Res := .next ((drainEnd s).onQueue s)

/-- SURGE_RELEASE. -/
def execSurgeRelease (h : Half) (d : Fin 36) (s : State) : Res := .next ((surgeRelease h d s).onQueue s)

/-- THERMAL_CEILING_RISE. -/
def execThermalCeilingRise (h : Half) (q : Fin 4) (s : State) : Res := .next ((thermalCeilingRise h q s).onQueue s)

/-- DITHER_HOLD_EXPIRE. -/
def execDitherHoldExpire (h : Half) (d : Fin 36) (renew : Bool) (s : State) : Res := .next ((ditherHoldExpire h d renew s).onQueue s)

/-- REMOTE_SAMPLE. -/
def execRemoteSample (o : RemoteObs) (s : State) : Res := .next ((remoteSample o s).onQueue s)

/-- JOURNAL_WRITE. -/
def execJournalWrite (primary mirror : Bool) (s : State) : Res := .next ((journalWrite primary mirror s).onQueue s)

/-- JOURNAL_REWRITE. -/
def execJournalRewrite (s : State) : Res := .next ((journalRewrite s).onQueue s)

/-- CFG_NEXT. -/
def execCfgNext (m : Master) (value : Word) (sp : StoreObs) (s : State) : Res :=
  if s.reaches m then .next ((cfgNext m value sp s).onQueue s) else .next s

/-- OSC_CAL. -/
def execOscCal (o : CalObs) (s : State) : Res := .next ((oscCal o s).onQueue s)

/-- VREF_CAL. -/
def execVrefCal (o : CalObs) (s : State) : Res := .next ((vrefCal o s).onQueue s)

/-- REMOTE_INPUT_CAL. -/
def execRemoteInputCal (i : Fin 12) (o : CalObs) (s : State) : Res := .next ((remoteInputCal i o s).onQueue s)

/-- VIN_SENSE_CAL. -/
def execVinSenseCal (o : CalObs) (s : State) : Res := .next ((vinSenseCal o s).onQueue s)

/-- REFCLK_CAL. -/
def execRefclkCal (h : Half) (o : CalObs) (s : State) : Res := .next ((refclkCal h o s).onQueue s)

/-- RAIL_SENSE_CAL. -/
def execRailSenseCal (h : Half) (o : CalObs) (s : State) : Res := .next ((railSenseCal h o s).onQueue s)

/-- HINGE_RX_CAL. -/
def execHingeRxCal (h : Half) (b : Fin 16) (o : CalObs) (s : State) : Res := .next ((hingeRxCal h b o s).onQueue s)

/-- UCIE_RX_CAL. -/
def execUcieRxCal (h : Half) (k : Fin 32) (o : CalObs) (s : State) : Res := .next ((ucieRxCal h k o s).onQueue s)

/-- DDR_ZQ_TRACKING. -/
def execDdrZqTracking (h : Half) (c : Fin 8) (o : CalObs) (s : State) : Res := .next ((ddrZqTracking h c o s).onQueue s)

/-- PORT_RECAL. -/
def execPortRecal (p : PortId) (o : CalObs) (bad : BitVec 36) (s : State) : Res := .next ((portRecal p o bad s).onQueue s)

/-- CAL_STEP_TIMEOUT. -/
def execCalStepTimeout (p : Page) (id : BitVec 8) (inst : BitVec 9) (s : State) : Res := .next ((calStepTimeout p id inst s).onQueue s)

/-- RUN_NOW. -/
def execRunNow (m : Master) (p : Page) (o : CalObs) (s : State) : Res :=
  if s.reaches m then .next ((runNow m p o s).onQueue s) else .next s

/-- RECORD_STORE. -/
def execRecordStore (set : Fin 8) (body : List Byte) (sp : StoreObs) (s : State) : Res := .next ((recordStore set body sp s).onQueue s)

/-- FW_UPDATE. -/
def execFwUpdate (i : Fin 32) (writeOk : Bool) (s : State) : Res := .next ((fwUpdate i writeOk s).onQueue s)

/-- SVN_COMMIT. -/
def execSvnCommit (i : Fin 32) (s : State) : Res := .next ((svnCommit i s).onQueue s)

/-- GET_MEAS_LOG. -/
def execGetMeasLog (i : Fin 32) (s : State) : Res := .next ((getMeasLog i s).onQueue s)

/-- DEBUG_NONCE. -/
def execDebugNonce (i : Fin 32) (s : State) : Res := .next ((debugNonce i s).onQueue s)

/-- DEBUG_UNLOCK. -/
def execDebugUnlock (i : Fin 32) (s : State) : Res := .next ((debugUnlock i s).onQueue s)

/-- IMG_WRITE. -/
def execImgWrite (b : Binding) (r : Region) (offset : Nat) (data : List Byte) (s : State) : Res :=
  .next ((imgWrite b r offset data s).onQueue s)

/-- IMG_COMMIT. -/
def execImgCommit (b : Binding) (r : Region) (writeOk : Bool) (s : State) : Res := .next ((imgCommit b r writeOk s).onQueue s)

/-- GET_VERSION. -/
def execGetVersion (r : SpdmReq) (s : State) : Res := .next ((getVersion r s).onQueue s)

/-- GET_CAPABILITIES. -/
def execGetCapabilities (r : SpdmReq) (s : State) : Res := .next ((getCapabilities r s).onQueue s)

/-- NEGOTIATE_ALGORITHMS. -/
def execNegotiateAlgorithms (r : SpdmReq) (s : State) : Res := .next ((negotiateAlgorithms r s).onQueue s)

/-- GET_DIGESTS. -/
def execGetDigests (r : SpdmReq) (s : State) : Res := .next ((getDigests r s).onQueue s)

/-- GET_CERTIFICATE. -/
def execGetCertificate (r : SpdmReq) (s : State) : Res := .next ((getCertificate r s).onQueue s)

/-- CHALLENGE. -/
def execChallenge (r : SpdmReq) (s : State) : Res := .next ((challenge r s).onQueue s)

/-- GET_MEASUREMENTS. -/
def execGetMeasurements (r : SpdmReq) (s : State) : Res := .next ((getMeasurements r s).onQueue s)

/-- INJ_DIS. -/
def execInjDis (m : Master) (s : State) : Res :=
  if s.reaches m then .next ((injDis m s).onQueue s) else .next s

/-- KX_FRAG. -/
def execKxFrag (p : PortId) (kind : BitVec 8) (i : BitVec 16) (whole : Option KxMsg) (s : State) : Res :=
  .next ((kxFrag p kind i whole s).onQueue s)

/-- KX_ACK. -/
def execKxAck (p : PortId) (n : BitVec 16) (s : State) : Res := .next ((kxAck p n s).onQueue s)

/-- KX_SWITCH. -/
def execKxSwitch (p : PortId) (c : BitVec 64) (s : State) : Res := .next ((kxSwitch p c s).onQueue s)

/-- KX_ABORT. -/
def execKxAbort (p : PortId) (reason : BitVec 8) (s : State) : Res := .next ((kxAbort p reason s).onQueue s)

/-- KX_RESEND_TIMER. -/
def execKxResendTimer (p : PortId) (s : State) : Res := .next ((kxResendTimer p s).onQueue s)

/-- KX_TIMEOUT. -/
def execKxTimeout (p : PortId) (s : State) : Res := .next ((kxTimeout p s).onQueue s)

/-- KX_RETRY. -/
def execKxRetry (p : PortId) (s : State) : Res := .next ((kxRetry p s).onQueue s)

/-- REKEY. -/
def execRekey (p : PortId) (s : State) : Res := .next ((rekey p s).onQueue s)

/-- KX_SWITCH_TIMEOUT. -/
def execKxSwitchTimeout (p : PortId) (s : State) : Res := .next ((kxSwitchTimeout p s).onQueue s)

/-- KEEPER_LOSS. -/
def execKeeperLoss (s : State) : Res := .next ((keeperLoss s).onQueue s)

/-- ERROR_RING_DRAIN. -/
def execErrorRingDrain (h : Half) (s : State) : Res := .next ((errorRingDrain h s).onQueue s)

/-- COALESCE_WINDOW_END. -/
def execCoalesceWindowEnd (p : Page) (bit : Fin 32) (s : State) : Res := .next ((coalesceWindowEnd p bit s).onQueue s)

/-- ERR_CONS. -/
def execErrCons (m : Master) (h : Half) (value : Word) (s : State) : Res :=
  if s.reaches m then .next ((errCons m h value s).onQueue s) else .next s

/-- ERR_RING_CTL. -/
def execErrRingCtl (m : Master) (h : Half) (value : Word) (s : State) : Res :=
  if s.reaches m then .next ((errRingCtl m h value s).onQueue s) else .next s

/-- PERST_DEASSERT. -/
def execPerstDeassert (h : Half) (s : State) : Res := .next ((perstDeassert h s).onQueue s)

/-- REFCLK_RETURN. -/
def execRefclkReturn (h : Half) (s : State) : Res := .next ((refclkReturn h s).onQueue s)

/-- VIN48_RISE. -/
def execVin48Rise (s : State) : Res := .next ((vin48Rise s).onQueue s)

/-- VIN48_LOW. -/
def execVin48Low (s : State) : Res := .next ((vin48Low s).onQueue s)

/-- CONFIGURATION_WRITE. -/
def execConfigurationWrite (f : Fn) (w : CfgWrite) (s : State) : Res := .next ((configurationWrite f w s).onQueue s)

/-- TCK_EDGE. -/
def execTckEdge (rising tms tdi : Bool) (s : State) : Res := .next ((tckEdge rising tms tdi s).onQueue s)

/-- TRST_N_ASSERT. -/
def execTrstNAssert (s : State) : Res := .next ((trstNAssert s).onQueue s)

/-- DEBUG_PORT_DISCONNECT. -/
def execDebugPortDisconnect (s : State) : Res := .next ((debugPortDisconnect s).onQueue s)

/-- PWR_RPT_SEND. -/
def execPwrRptSend (p : PortId) (oma : List (BitVec 16)) (s : State) : Res := .next ((pwrRptSend p oma s).onQueue s)

/-- CONTROL_REQUEST_REPEAT. -/
def execControlRequestRepeat (p : PortId) (s : State) : Res := .next ((controlRequestRepeat p s).onQueue s)

end Sys2Proof.Machine
end

