-- ==== Sys2Proof/Machine/Dispatch.lean ====
section
/-! DEFINITION. The meaning of a command: one arm per constructor of Instr. -/

namespace Sys2Proof.Machine

def exec (i : Instr) (s : State) : Host.Outcome State Fault Refusal :=
  match i with
  | .vAonRise k => Sys2Proof.Machine.execVAonRise k s
  | .vAonLoss => Sys2Proof.Machine.execVAonLoss s
  | .porAssert => Sys2Proof.Machine.execPorAssert s
  | .porDeassert => Sys2Proof.Machine.execPorDeassert s
  | .priSelSample => Sys2Proof.Machine.execPriSelSample s
  | .priSelChange level => Sys2Proof.Machine.execPriSelChange level s
  | .bringUpStart o => Sys2Proof.Machine.execBringUpStart o s
  | .bootDone => Sys2Proof.Machine.execBootDone s
  | .badSizeAccess m addr size write => Sys2Proof.Machine.execBadSizeAccess m addr size write s
  | .latchedLowRead m r => Sys2Proof.Machine.execLatchedLowRead m r s
  | .registerWrite m addr wide value => Sys2Proof.Machine.execRegisterWrite m addr wide value s
  | .blockReset m p => Sys2Proof.Machine.execBlockReset m p s
  | .blockResetDone p => Sys2Proof.Machine.execBlockResetDone p s
  | .errInjWrite m p value => Sys2Proof.Machine.execErrInjWrite m p value s
  | .injectionFire p => Sys2Proof.Machine.execInjectionFire p s
  | .lockAcquire m p => Sys2Proof.Machine.execLockAcquire m p s
  | .lockRelease m p => Sys2Proof.Machine.execLockRelease m p s
  | .doorbellSet m p bits => Sys2Proof.Machine.execDoorbellSet m p bits s
  | .doorbellUnmask m p mask => Sys2Proof.Machine.execDoorbellUnmask m p mask s
  | .nop h c e => Sys2Proof.Machine.execNop h c e s
  | .mma h c e => Sys2Proof.Machine.execMma h c e s
  | .load h c e => Sys2Proof.Machine.execLoad h c e s
  | .store h c e => Sys2Proof.Machine.execStore h c e s
  | .scatter h c e => Sys2Proof.Machine.execScatter h c e s
  | .prefetch h c e => Sys2Proof.Machine.execPrefetch h c e s
  | .move h c e => Sys2Proof.Machine.execMove h c e s
  | .gather h c e => Sys2Proof.Machine.execGather h c e s
  | .vadd h c e => Sys2Proof.Machine.execVadd h c e s
  | .vsub h c e => Sys2Proof.Machine.execVsub h c e s
  | .vmul h c e => Sys2Proof.Machine.execVmul h c e s
  | .vmax h c e => Sys2Proof.Machine.execVmax h c e s
  | .vmin h c e => Sys2Proof.Machine.execVmin h c e s
  | .vfma h c e => Sys2Proof.Machine.execVfma h c e s
  | .vfill h c e => Sys2Proof.Machine.execVfill h c e s
  | .vun h c e => Sys2Proof.Machine.execVun h c e s
  | .trans h c e => Sys2Proof.Machine.execTrans h c e s
  | .cvt h c e => Sys2Proof.Machine.execCvt h c e s
  | .quant h c e => Sys2Proof.Machine.execQuant h c e s
  | .red h c e => Sys2Proof.Machine.execRed h c e s
  | .sop h c e => Sys2Proof.Machine.execSop h c e s
  | .sli h c e => Sys2Proof.Machine.execSli h c e s
  | .sld h c e => Sys2Proof.Machine.execSld h c e s
  | .sst h c e => Sys2Proof.Machine.execSst h c e s
  | .srd h c e => Sys2Proof.Machine.execSrd h c e s
  | .loop h c e => Sys2Proof.Machine.execLoop h c e s
  | .br h c e => Sys2Proof.Machine.execBr h c e s
  | .endPart h c e => Sys2Proof.Machine.execEndPart h c e s
  | .cellSignal h c e => Sys2Proof.Machine.execCellSignal h c e s
  | .cellWait h c e => Sys2Proof.Machine.execCellWait h c e s
  | .cellFence h c e => Sys2Proof.Machine.execCellFence h c e s
  | .instructionComplete h c u => Sys2Proof.Machine.execInstructionComplete h c u s
  | .cellStoreScrub h c line u => Sys2Proof.Machine.execCellStoreScrub h c line u s
  | .retireReq m h c => Sys2Proof.Machine.execRetireReq m h c s
  | .swapStart h c bistFail => Sys2Proof.Machine.execSwapStart h c bistFail s
  | .cellReset m h c => Sys2Proof.Machine.execCellReset m h c s
  | .queueDoorbell m r value => Sys2Proof.Machine.execQueueDoorbell m r value s
  | .enable m r => Sys2Proof.Machine.execEnable m r s
  | .pause m r => Sys2Proof.Machine.execPause m r s
  | .resume m r => Sys2Proof.Machine.execResume m r s
  | .drain m r => Sys2Proof.Machine.execDrain m r s
  | .disable m r => Sys2Proof.Machine.execDisable m r s
  | .queueReset m r => Sys2Proof.Machine.execQueueReset m r s
  | .qCmdBad m r op => Sys2Proof.Machine.execQCmdBad m r op s
  | .queuePaused r => Sys2Proof.Machine.execQueuePaused r s
  | .queueDrained r => Sys2Proof.Machine.execQueueDrained r s
  | .priorityAging r => Sys2Proof.Machine.execPriorityAging r s
  | .kernel r hr => Sys2Proof.Machine.execKernel r hr s
  | .kernelReserve r slot => Sys2Proof.Machine.execKernelReserve r slot s
  | .kernelStart r slot => Sys2Proof.Machine.execKernelStart r slot s
  | .kernelPartComplete h c => Sys2Proof.Machine.execKernelPartComplete h c s
  | .kernelTimeout r slot => Sys2Proof.Machine.execKernelTimeout r slot s
  | .copy r hr => Sys2Proof.Machine.execCopy r hr s
  | .fill r hr => Sys2Proof.Machine.execFill r hr s
  | .collective r hr => Sys2Proof.Machine.execCollective r hr s
  | .fence r hr => Sys2Proof.Machine.execFence r hr s
  | .signal r hr => Sys2Proof.Machine.execSignal r hr s
  | .wait r hr => Sys2Proof.Machine.execWait r hr s
  | .waitTimeout w => Sys2Proof.Machine.execWaitTimeout w s
  | .event r hr => Sys2Proof.Machine.execEvent r hr s
  | .descriptorComplete r slot => Sys2Proof.Machine.execDescriptorComplete r slot s
  | .semAdd m h value => Sys2Proof.Machine.execSemAdd m h value s
  | .semVal m h value => Sys2Proof.Machine.execSemVal m h value s
  | .qctBaseWrite m h high value => Sys2Proof.Machine.execQctBaseWrite m h high value s
  | .seqQuiesce m h => Sys2Proof.Machine.execSeqQuiesce m h s
  | .seqRun m h => Sys2Proof.Machine.execSeqRun m h s
  | .seqQuiesced h => Sys2Proof.Machine.execSeqQuiesced h s
  | .terminate m h p => Sys2Proof.Machine.execTerminate m h p s
  | .restart m h p => Sys2Proof.Machine.execRestart m h p s
  | .memoryAccess r => Sys2Proof.Machine.execMemoryAccess r s
  | .ilvWrite m h ix value => Sys2Proof.Machine.execIlvWrite m h ix value s
  | .hbmGroupTrained h ix e => Sys2Proof.Machine.execHbmGroupTrained h ix e s
  | .hbmRetrain m h ix => Sys2Proof.Machine.execHbmRetrain m h ix s
  | .hbmTimingUpdate h ix ch o => Sys2Proof.Machine.execHbmTimingUpdate h ix ch o s
  | .patrolScrub t addr u => Sys2Proof.Machine.execPatrolScrub t addr u s
  | .hardPpr h t addr => Sys2Proof.Machine.execHardPpr h t addr s
  | .sliceRetire h ix slice why => Sys2Proof.Machine.execSliceRetire h ix slice why s
  | .dimmFail h c => Sys2Proof.Machine.execDimmFail h c s
  | .ddrTrainDone h c pass eye t100 => Sys2Proof.Machine.execDdrTrainDone h c pass eye t100 s
  | .spdWaitTimeout h c => Sys2Proof.Machine.execSpdWaitTimeout h c s
  | .tierMap h => Sys2Proof.Machine.execTierMap h s
  | .ddrCaAlert h c addr retriesFail => Sys2Proof.Machine.execDdrCaAlert h c addr retriesFail s
  | .epochAdvance h => Sys2Proof.Machine.execEpochAdvance h s
  | .meshPacket p => Sys2Proof.Machine.execMeshPacket p s
  | .meshRequestTimeout h q write addr cell => Sys2Proof.Machine.execMeshRequestTimeout h q write addr cell s
  | .hingeFlit h l f => Sys2Proof.Machine.execHingeFlit h l f s
  | .hingeAckTimer h b => Sys2Proof.Machine.execHingeAckTimer h b s
  | .bundleBroken b why => Sys2Proof.Machine.execBundleBroken b why s
  | .hingeTrainDone b badA badB pass => Sys2Proof.Machine.execHingeTrainDone b badA badB pass s
  | .laneFail l lane => Sys2Proof.Machine.execLaneFail l lane s
  | .retrainFull m l => Sys2Proof.Machine.execRetrainFull m l s
  | .hingeLinkReset m t => Sys2Proof.Machine.execHingeLinkReset m t s
  | .ucieBroken h k why => Sys2Proof.Machine.execUcieBroken h k why s
  | .ucieDisable m h k => Sys2Proof.Machine.execUcieDisable m h k s
  | .oeRequestCheck h o r => Sys2Proof.Machine.execOeRequestCheck h o r s
  | .firewallWindowChange h o win w => Sys2Proof.Machine.execFirewallWindowChange h o win w s
  | .regionThrottleRelease h q p => Sys2Proof.Machine.execRegionThrottleRelease h q p s
  | .tileHeartbeatLoss h o => Sys2Proof.Machine.execTileHeartbeatLoss h o s
  | .biasCeilingRestore h o => Sys2Proof.Machine.execBiasCeilingRestore h o s
  | .ringLockUpdate h o r x => Sys2Proof.Machine.execRingLockUpdate h o r x s
  | .pwrRpt p g values biasHeld => Sys2Proof.Machine.execPwrRpt p g values biasHeld s
  | .handoverTimeout p => Sys2Proof.Machine.execHandoverTimeout p s
  | .subReq p ch => Sys2Proof.Machine.execSubReq p ch s
  | .laserSuddenFail h o n => Sys2Proof.Machine.execLaserSuddenFail h o n s
  | .lossOfLight p => Sys2Proof.Machine.execLossOfLight p s
  | .probe p => Sys2Proof.Machine.execProbe p s
  | .lightDetect p x => Sys2Proof.Machine.execLightDetect p x s
  | .shut m p => Sys2Proof.Machine.execShut m p s
  | .unshut m p => Sys2Proof.Machine.execUnshut m p s
  | .oeReqOff m h o => Sys2Proof.Machine.execOeReqOff m h o s
  | .oeReqDark m h o => Sys2Proof.Machine.execOeReqDark m h o s
  | .oeReqDim m h o => Sys2Proof.Machine.execOeReqDim m h o s
  | .oeReqActive m h o => Sys2Proof.Machine.execOeReqActive m h o s
  | .oeWakeDone h o us w => Sys2Proof.Machine.execOeWakeDone h o us w s
  | .oeDimWake h w => Sys2Proof.Machine.execOeDimWake h w s
  | .oeIdleDim h o => Sys2Proof.Machine.execOeIdleDim h o s
  | .oeIdleDark h o => Sys2Proof.Machine.execOeIdleDark h o s
  | .oeReset m h o => Sys2Proof.Machine.execOeReset m h o s
  | .oeResetDone h x => Sys2Proof.Machine.execOeResetDone h x s
  | .monSel m h o value => Sys2Proof.Machine.execMonSel m h o value s
  | .research m p x => Sys2Proof.Machine.execResearch m p x s
  | .spareGo m h o value => Sys2Proof.Machine.execSpareGo m h o value s
  | .flitSend p => Sys2Proof.Machine.execFlitSend p s
  | .dataFlitReceive p flit => Sys2Proof.Machine.execDataFlitReceive p flit s
  | .alignFlit p lanes => Sys2Proof.Machine.execAlignFlit p lanes s
  | .ackUpdateTimer p => Sys2Proof.Machine.execAckUpdateTimer p s
  | .replayTimeout p => Sys2Proof.Machine.execReplayTimeout p s
  | .spillRead p ue => Sys2Proof.Machine.execSpillRead p ue s
  | .refreshLost p => Sys2Proof.Machine.execRefreshLost p s
  | .xoffTimeout p => Sys2Proof.Machine.execXoffTimeout p s
  | .linkTrain p o => Sys2Proof.Machine.execLinkTrain p o s
  | .trainStepTimeout p => Sys2Proof.Machine.execTrainStepTimeout p s
  | .waitingExpiry p => Sys2Proof.Machine.execWaitingExpiry p s
  | .lockLossTimeout p lane => Sys2Proof.Machine.execLockLossTimeout p lane s
  | .partnerTrainingBlocks p => Sys2Proof.Machine.execPartnerTrainingBlocks p s
  | .holdExpire p => Sys2Proof.Machine.execHoldExpire p s
  | .sleepExchangeTimeout p => Sys2Proof.Machine.execSleepExchangeTimeout p s
  | .linkWake p => Sys2Proof.Machine.execLinkWake p s
  | .sleepWakeTimeout p => Sys2Proof.Machine.execSleepWakeTimeout p s
  | .hoReq p n sp peaks => Sys2Proof.Machine.execHoReq p n sp peaks s
  | .hoReady p n sp => Sys2Proof.Machine.execHoReady p n sp s
  | .hoDone p n sp k => Sys2Proof.Machine.execHoDone p n sp k s
  | .hoFail p n sp => Sys2Proof.Machine.execHoFail p n sp s
  | .sleepReq p => Sys2Proof.Machine.execSleepReq p s
  | .sleepAck p => Sys2Proof.Machine.execSleepAck p s
  | .retrainReq p cause width => Sys2Proof.Machine.execRetrainReq p cause width s
  | .trnParam p x => Sys2Proof.Machine.execTrnParam p x s
  | .trnEcho p v => Sys2Proof.Machine.execTrnEcho p v s
  | .trnDone p w resume => Sys2Proof.Machine.execTrnDone p w resume s
  | .dropRx m p => Sys2Proof.Machine.execDropRx m p s
  | .crcTx m p => Sys2Proof.Machine.execCrcTx m p s
  | .rd p m => Sys2Proof.Machine.execRd p m s
  | .wr p m => Sys2Proof.Machine.execWr p m s
  | .atom p m => Sys2Proof.Machine.execAtom p m s
  | .msg p m => Sys2Proof.Machine.execMsg p m s
  | .unknownOpc p vcReq m => Sys2Proof.Machine.execUnknownOpc p vcReq m s
  | .hello p w => Sys2Proof.Machine.execHello p w s
  | .openMsg p m w => Sys2Proof.Machine.execOpenMsg p m w s
  | .accept p m w => Sys2Proof.Machine.execAccept p m w s
  | .refuse p m w => Sys2Proof.Machine.execRefuse p m w s
  | .dark p w => Sys2Proof.Machine.execDark p w s
  | .helloTimeout p => Sys2Proof.Machine.execHelloTimeout p s
  | .openRepeat h fid => Sys2Proof.Machine.execOpenRepeat h fid s
  | .transitForward p m => Sys2Proof.Machine.execTransitForward p m s
  | .transitAgeExpire h => Sys2Proof.Machine.execTransitAgeExpire h s
  | .pathLost p m => Sys2Proof.Machine.execPathLost p m s
  | .rdData p m => Sys2Proof.Machine.execRdData p m s
  | .wrAck p m => Sys2Proof.Machine.execWrAck p m s
  | .atomRsp p m => Sys2Proof.Machine.execAtomRsp p m s
  | .msgAck p m => Sys2Proof.Machine.execMsgAck p m s
  | .requestTimeout tag => Sys2Proof.Machine.execRequestTimeout tag s
  | .retryResend tag late => Sys2Proof.Machine.execRetryResend tag late s
  | .resultCacheExpire h sfid session tag => Sys2Proof.Machine.execResultCacheExpire h sfid session tag s
  | .fabTmo m h value passed => Sys2Proof.Machine.execFabTmo m h value passed s
  | .pfCtxLoad m h p value => Sys2Proof.Machine.execPfCtxLoad m h p value s
  | .fcrDb m h p value hr => Sys2Proof.Machine.execFcrDb m h p value hr s
  | .collData p m => Sys2Proof.Machine.execCollData p m s
  | .collReady p m => Sys2Proof.Machine.execCollReady p m s
  | .collAbort p m => Sys2Proof.Machine.execCollAbort p m s
  | .collectiveTimeout r slot => Sys2Proof.Machine.execCollectiveTimeout r slot s
  | .perst h => Sys2Proof.Machine.execPerst h s
  | .hotReset f => Sys2Proof.Machine.execHotReset f s
  | .flr f => Sys2Proof.Machine.execFlr f s
  | .d3hotEntry f => Sys2Proof.Machine.execD3hotEntry f s
  | .d0Return f => Sys2Proof.Machine.execD0Return f s
  | .dataLinkDown h => Sys2Proof.Machine.execDataLinkDown h s
  | .dataLinkUp h flit rate width => Sys2Proof.Machine.execDataLinkUp h flit rate width s
  | .portLost h => Sys2Proof.Machine.execPortLost h s
  | .giveback m h => Sys2Proof.Machine.execGiveback m h s
  | .bar2Read f offset len u => Sys2Proof.Machine.execBar2Read f offset len u s
  | .bar2Write f offset data poisoned => Sys2Proof.Machine.execBar2Write f offset data poisoned s
  | .hostCompletion h id c => Sys2Proof.Machine.execHostCompletion h id c s
  | .cplTimeout h id => Sys2Proof.Machine.execCplTimeout h id s
  | .msixUnmask f vec => Sys2Proof.Machine.execMsixUnmask f vec s
  | .mbxSend m ix => Sys2Proof.Machine.execMbxSend m ix s
  | .mbxAck m ix => Sys2Proof.Machine.execMbxAck m ix s
  | .mbxRsend m ix => Sys2Proof.Machine.execMbxRsend m ix s
  | .mbxRack m ix => Sys2Proof.Machine.execMbxRack m ix s
  | .inSlotWrite m ix word value => Sys2Proof.Machine.execInSlotWrite m ix word value s
  | .outSlotWrite m ix word value => Sys2Proof.Machine.execOutSlotWrite m ix word value s
  | .fdbSet m ix bits => Sys2Proof.Machine.execFdbSet m ix bits s
  | .getInfo ix => Sys2Proof.Machine.execGetInfo ix s
  | .getNuma ix => Sys2Proof.Machine.execGetNuma ix s
  | .xtWrite ix => Sys2Proof.Machine.execXtWrite ix s
  | .xtRead ix => Sys2Proof.Machine.execXtRead ix s
  | .noteAck ix => Sys2Proof.Machine.execNoteAck ix s
  | .doeRequest f o => Sys2Proof.Machine.execDoeRequest f o s
  | .doeAbort f => Sys2Proof.Machine.execDoeAbort f s
  | .controlFrame joining => Sys2Proof.Machine.execControlFrame joining s
  | .commandCopy c => Sys2Proof.Machine.execCommandCopy c s
  | .voteWindowExpire a => Sys2Proof.Machine.execVoteWindowExpire a s
  | .heartbeatLoss v => Sys2Proof.Machine.execHeartbeatLoss v s
  | .hingeRetrainTimer bundles => Sys2Proof.Machine.execHingeRetrainTimer bundles s
  | .ccRestart b ok => Sys2Proof.Machine.execCcRestart b ok s
  | .ccRestartWrite m ok => Sys2Proof.Machine.execCcRestartWrite m ok s
  | .getTelemetry b => Sys2Proof.Machine.execGetTelemetry b s
  | .getHealth b => Sys2Proof.Machine.execGetHealth b s
  | .dimmDesc b h c offset bytes => Sys2Proof.Machine.execDimmDesc b h c offset bytes s
  | .getEvents b count => Sys2Proof.Machine.execGetEvents b count s
  | .setEndpointId b eid => Sys2Proof.Machine.execSetEndpointId b eid s
  | .mctpReassemblyTimeout b => Sys2Proof.Machine.execMctpReassemblyTimeout b s
  | .enec bits => Sys2Proof.Machine.execEnec bits s
  | .disec bits => Sys2Proof.Machine.execDisec bits s
  | .rstdaa => Sys2Proof.Machine.execRstdaa s
  | .entdaa da => Sys2Proof.Machine.execEntdaa da s
  | .setdasa st da => Sys2Proof.Machine.execSetdasa st da s
  | .setmrl len => Sys2Proof.Machine.execSetmrl len s
  | .setmwl len => Sys2Proof.Machine.execSetmwl len s
  | .getpid => Sys2Proof.Machine.execGetpid s
  | .getbcr => Sys2Proof.Machine.execGetbcr s
  | .getdcr => Sys2Proof.Machine.execGetdcr s
  | .getstatus => Sys2Proof.Machine.execGetstatus s
  | .getmrl => Sys2Proof.Machine.execGetmrl s
  | .getmwl => Sys2Proof.Machine.execGetmwl s
  | .getmxds => Sys2Proof.Machine.execGetmxds s
  | .rstact action => Sys2Proof.Machine.execRstact action s
  | .hotJoin => Sys2Proof.Machine.execHotJoin s
  | .ibiRepeat => Sys2Proof.Machine.execIbiRepeat s
  | .telemetryRefresh => Sys2Proof.Machine.execTelemetryRefresh s
  | .capReq m value => Sys2Proof.Machine.execCapReq m value s
  | .capLoop o => Sys2Proof.Machine.execCapLoop o s
  | .capUnmet => Sys2Proof.Machine.execCapUnmet s
  | .clockRampStep h q => Sys2Proof.Machine.execClockRampStep h q s
  | .fmax m h value => Sys2Proof.Machine.execFmax m h value s
  | .powerFail => Sys2Proof.Machine.execPowerFail s
  | .undervoltage => Sys2Proof.Machine.execUndervoltage s
  | .overvoltage => Sys2Proof.Machine.execOvervoltage s
  | .refclkLoss h => Sys2Proof.Machine.execRefclkLoss h s
  | .refclkHoldoverExpire h => Sys2Proof.Machine.execRefclkHoldoverExpire h s
  | .pllUnlock e => Sys2Proof.Machine.execPllUnlock e s
  | .railFault h e => Sys2Proof.Machine.execRailFault h e s
  | .autoHalfReset h o => Sys2Proof.Machine.execAutoHalfReset h o s
  | .halfRstA m o => Sys2Proof.Machine.execHalfRstA m o s
  | .halfRstB m o => Sys2Proof.Machine.execHalfRstB m o s
  | .domainGate d toOff => Sys2Proof.Machine.execDomainGate d toOff s
  | .domainWake d => Sys2Proof.Machine.execDomainWake d s
  | .deviceIdle => Sys2Proof.Machine.execDeviceIdle s
  | .sensorSample o => Sys2Proof.Machine.execSensorSample o s
  | .drainEnd => Sys2Proof.Machine.execDrainEnd s
  | .surgeRelease h d => Sys2Proof.Machine.execSurgeRelease h d s
  | .thermalCeilingRise h q => Sys2Proof.Machine.execThermalCeilingRise h q s
  | .ditherHoldExpire h d renew => Sys2Proof.Machine.execDitherHoldExpire h d renew s
  | .remoteSample o => Sys2Proof.Machine.execRemoteSample o s
  | .journalWrite primary mirror => Sys2Proof.Machine.execJournalWrite primary mirror s
  | .journalRewrite => Sys2Proof.Machine.execJournalRewrite s
  | .cfgNext m value sp => Sys2Proof.Machine.execCfgNext m value sp s
  | .oscCal o => Sys2Proof.Machine.execOscCal o s
  | .vrefCal o => Sys2Proof.Machine.execVrefCal o s
  | .remoteInputCal ix o => Sys2Proof.Machine.execRemoteInputCal ix o s
  | .vinSenseCal o => Sys2Proof.Machine.execVinSenseCal o s
  | .refclkCal h o => Sys2Proof.Machine.execRefclkCal h o s
  | .railSenseCal h o => Sys2Proof.Machine.execRailSenseCal h o s
  | .hingeRxCal h b o => Sys2Proof.Machine.execHingeRxCal h b o s
  | .ucieRxCal h k o => Sys2Proof.Machine.execUcieRxCal h k o s
  | .ddrZqTracking h c o => Sys2Proof.Machine.execDdrZqTracking h c o s
  | .portRecal p o bad => Sys2Proof.Machine.execPortRecal p o bad s
  | .calStepTimeout p id inst => Sys2Proof.Machine.execCalStepTimeout p id inst s
  | .runNow m p o => Sys2Proof.Machine.execRunNow m p o s
  | .recordStore set body sp => Sys2Proof.Machine.execRecordStore set body sp s
  | .fwUpdate ix writeOk => Sys2Proof.Machine.execFwUpdate ix writeOk s
  | .svnCommit ix => Sys2Proof.Machine.execSvnCommit ix s
  | .getMeasLog ix => Sys2Proof.Machine.execGetMeasLog ix s
  | .debugNonce ix => Sys2Proof.Machine.execDebugNonce ix s
  | .debugUnlock ix => Sys2Proof.Machine.execDebugUnlock ix s
  | .imgWrite b r offset data => Sys2Proof.Machine.execImgWrite b r offset data s
  | .imgCommit b r writeOk => Sys2Proof.Machine.execImgCommit b r writeOk s
  | .getVersion r => Sys2Proof.Machine.execGetVersion r s
  | .getCapabilities r => Sys2Proof.Machine.execGetCapabilities r s
  | .negotiateAlgorithms r => Sys2Proof.Machine.execNegotiateAlgorithms r s
  | .getDigests r => Sys2Proof.Machine.execGetDigests r s
  | .getCertificate r => Sys2Proof.Machine.execGetCertificate r s
  | .challenge r => Sys2Proof.Machine.execChallenge r s
  | .getMeasurements r => Sys2Proof.Machine.execGetMeasurements r s
  | .injDis m => Sys2Proof.Machine.execInjDis m s
  | .kxFrag p kind ix whole => Sys2Proof.Machine.execKxFrag p kind ix whole s
  | .kxAck p n => Sys2Proof.Machine.execKxAck p n s
  | .kxSwitch p c => Sys2Proof.Machine.execKxSwitch p c s
  | .kxAbort p reason => Sys2Proof.Machine.execKxAbort p reason s
  | .kxResendTimer p => Sys2Proof.Machine.execKxResendTimer p s
  | .kxTimeout p => Sys2Proof.Machine.execKxTimeout p s
  | .kxRetry p => Sys2Proof.Machine.execKxRetry p s
  | .rekey p => Sys2Proof.Machine.execRekey p s
  | .kxSwitchTimeout p => Sys2Proof.Machine.execKxSwitchTimeout p s
  | .keeperLoss => Sys2Proof.Machine.execKeeperLoss s
  | .errorRingDrain h => Sys2Proof.Machine.execErrorRingDrain h s
  | .coalesceWindowEnd p bit => Sys2Proof.Machine.execCoalesceWindowEnd p bit s
  | .errCons m h value => Sys2Proof.Machine.execErrCons m h value s
  | .errRingCtl m h value => Sys2Proof.Machine.execErrRingCtl m h value s
  | .perstDeassert h => Sys2Proof.Machine.execPerstDeassert h s
  | .refclkReturn h => Sys2Proof.Machine.execRefclkReturn h s
  | .vin48Rise => Sys2Proof.Machine.execVin48Rise s
  | .vin48Low => Sys2Proof.Machine.execVin48Low s
  | .configurationWrite f w => Sys2Proof.Machine.execConfigurationWrite f w s
  | .tckEdge rising tms tdi => Sys2Proof.Machine.execTckEdge rising tms tdi s
  | .trstNAssert => Sys2Proof.Machine.execTrstNAssert s
  | .debugPortDisconnect => Sys2Proof.Machine.execDebugPortDisconnect s
  | .pwrRptSend p oma => Sys2Proof.Machine.execPwrRptSend p oma s
  | .controlRequestRepeat p => Sys2Proof.Machine.execControlRequestRepeat p s

end Sys2Proof.Machine
end

