-- ==== Sys2Proof/Safety.lean ====
section
/-! DEFINITION. What counts as a safe state, and the conditions under which the statements say that a command has its own effect. -/

namespace Sys2Proof

open Sys2Proof.Machine

/-! ## Canonical forms -/

/-- The registers are in their canonical form: offsets rise, and no entry equals the reset value that an unlisted offset reads as. -/
def regsWf (s : State) : Bool := keysRise s.regs && s.regs.all (fun e => e.2 ≠ resetValue e.1)

/-- Every waiting command names an access of its row's kind. -/
def queueWf (s : State) : Bool := s.pending.all Instr.wf

/-! ## Masters -/

/-- The master that sends a command, where the command is an access to a block page. -/
def Instr.master : Instr → Option Master
  | .injDis m => some m
  | .latchedLowRead m _ | .blockReset m _ | .lockAcquire m _ | .lockRelease m _ | .enable m _ | .pause m _ | .resume m _ | .drain m _
  | .disable m _ | .queueReset m _ | .seqQuiesce m _ | .seqRun m _ | .retrainFull m _ | .hingeLinkReset m _ | .shut m _ | .unshut m _
  | .dropRx m _ | .crcTx m _ | .giveback m _ | .mbxSend m _ | .mbxAck m _ | .mbxRsend m _ | .mbxRack m _ | .ccRestartWrite m _ | .capReq m _
  | .halfRstA m _ | .halfRstB m _ => some m
  | .errInjWrite m _ _ | .doorbellSet m _ _ | .doorbellUnmask m _ _ | .retireReq m _ _ | .cellReset m _ _ | .queueDoorbell m _ _
  | .qCmdBad m _ _ | .semAdd m _ _ | .semVal m _ _ | .terminate m _ _ | .restart m _ _ | .hbmRetrain m _ _ | .ucieDisable m _ _
  | .oeReqOff m _ _ | .oeReqDark m _ _ | .oeReqDim m _ _ | .oeReqActive m _ _ | .oeReset m _ _ | .research m _ _
  | .fdbSet m _ _ | .fmax m _ _ | .cfgNext m _ _ | .runNow m _ _ | .errCons m _ _ | .errRingCtl m _ _ => some m
  | .fabTmo m _ _ _ | .badSizeAccess m _ _ _ | .registerWrite m _ _ _ | .qctBaseWrite m _ _ _ | .ilvWrite m _ _ _ | .monSel m _ _ _
  | .spareGo m _ _ _
  | .pfCtxLoad m _ _ _ | .inSlotWrite m _ _ _ | .outSlotWrite m _ _ _ => some m
  | .fcrDb m _ _ _ _ => some m
  | _ => none

/-! ## A cell about to issue (02 R66, R68; 03 R87) -/

/-- The kernel context of a cell. -/
def kctxOf (s : State) (h : Half) (c : Fin 288) : KCtx := (s.cell h c.val).ctx.getD ⟨0, 0, 0, 0, 0, 0, 0⟩

/-- The fetch of the cell's next instruction: state, status, the 16 bytes. -/
def fetchOf (s : State) (h : Half) (c : Fin 288) : State × Nat × List Byte :=
  s.memRead h .cell 0 ((kctxOf s h c).prog + 16 * (s.cell h c.val).pc) 16

/-- What the next instruction is issued with. -/
def issOf (s : State) (h : Half) (c : Fin 288) (e : HwEvent) : Iss :=
  ⟨h, c.val, natOf (fetchOf s h c).2.2, (s.cell h c.val).pc, s.cell h c.val, kctxOf s h c, (fetchOf s h c).1.fresh, e⟩

/-- The state the instruction acts on: after the fetch, and one draw of its free choices. -/
def fetched (s : State) (h : Half) (c : Fin 288) : State := (fetchOf s h c).1.drawn 1

/-- The cell's next instruction has opcode op and issues now: a part runs, the fetch succeeds inside a window and is not held, the tokens it waits for and its own
token are done, its unit has a place. -/
def issues (op : Nat) (s : State) (h : Half) (c : Fin 288) (e : HwEvent) : Bool :=
  let x := s.cell h c.val
  let k := kctxOf s h c
  let w := (issOf s h c e).w
  let done := s.getF (cellPage h c.val) R.cell.TOKENS_DONE
  x.ctx.isSome && x.ended.isNone && x.wait.isNone && s.answers (cellPage h c.val) &&
    s.getF (cellPage h c.val) R.cell.BLK_STS_STATE = 3 && decide (x.pc ≤ k.ninst) && s.inWindow h k.part (k.prog + 16 * x.pc) 16 &&
    !s.holds [(k.prog + 16 * x.pc, 16)] && (fetchOf s h c).2.1 = 0 && e ≠ .fetchUE && bits w 127 122 = op && bits w 121 106 &&& done = bits w 121 106 &&
    (isScalar op || !bit w 105 || bit done (bits w 104 101)) &&
    (match unitOf op w with
     | some u => decide ((unitQ x u).length < 8)
     | none => true)

/-- The cell-store reads of the instruction meet no error, real or injected (02 R39, R80). -/
def readsClean (s : State) (h : Half) (c : Fin 288) (e : HwEvent) : Bool :=
  e ≠ .csUE && e ≠ .csCE && !(fetched s h c).armed (cellPage h c.val) 9 && !(fetched s h c).armed (cellPage h c.val) 10

/-! ## A queue about to dispatch (03 R85, R86, R89, R90) -/

/-- The read of the queue's next descriptor: state, whether it is there, whether the read failed, the words. -/
def descRead (r : QRef) (hr : HostRead) (s : State) : State × Bool × Bool × Nat := s.readDesc r.half r.q.val hr

/-- The next descriptor as it goes in flight. -/
def descNow (r : QRef) (hr : HostRead) (s : State) : Desc :=
  { descOf (s.queue r.half r.q.val).next (descRead r hr s).2.2.2 with stream := needsStream (descRead r hr s).2.2.2 }

/-- The state with the next descriptor in flight, on which it acts. -/
def dispatched (r : QRef) (hr : HostRead) (s : State) : State := (descRead r hr s).1.launch r.half r.q.val (descNow r hr s)

/-- The queue's next descriptor has type ty, passes its checks and is dispatched now. -/
def dispatches (ty : Nat) (r : QRef) (hr : HostRead) (s : State) : Bool :=
  let x := s.queue r.half r.q.val
  let d := descRead r hr s
  s.answers (.seq r.half) && s.seqState r.half = 1 && !s.draining && x.canTake &&
    !(x.ctx.dsp = 0 && s.holds [(x.ctx.dring + 128 * x.next, 128)]) && !s.armed (.seq r.half) 12 && d.2.1 && !d.2.2.1 &&
    bits d.2.2.2 7 0 = ty && s.canDispatch r.half r.q.val d.2.2.2 && s.mayGo r.half r.q.val &&
    (d.1.descCheck r.half ((s.partOfQ r.half r.q.val).getD 0) d.2.2.2).isNone

end Sys2Proof
end

