-- ==== Sys2Proof/Certificates/Slice0/Obligations.lean ====
section
/-! DEFINITION. The statements for the provers. -/

open Sys2Proof Sys2Proof.Machine

/-- NOP, SOP, SLI, SLD, SST and SRD of a cell: the result, the next PC, and nothing else. Rules: 02 Table 2.14, 02 R41, 02 R66, 02 R68, 02 R69, 02 R70, 02 R71, 03 R94. -/
def Obligations.CellScalarInstructions : Prop :=
  (∀ (h : Half) (c : Fin 288) (e : HwEvent) (s : State), let i := issOf s h c e
    issues 0x00 s h c e → i.ten = false → bits i.w 100 0 = 0 →
    exec (.nop h c e) s = .next (((fetched s h c).issued i i.x (i.pc + 1)).onQueue s)) ∧
  (∀ (h : Half) (c : Fin 288) (e : HwEvent) (s : State), let i := issOf s h c e
    issues 0x28 s h c e → i.ten = false → bits i.w 48 0 = 0 → bits i.w 85 82 < 13 →
    exec (.sop h c e) s = .next (((fetched s h c).issued i (putSreg i.x (bits i.w 100 96) (sopFn (bits i.w 85 82) (sreg i.x (bits i.w 95 91))
      (if bit i.w 81 then wrap64 (toSigned 32 (bits i.w 80 49)) else sreg i.x (bits i.w 90 86)))) (i.pc + 1)).onQueue s)) ∧
  (∀ (h : Half) (c : Fin 288) (e : HwEvent) (s : State), let i := issOf s h c e
    issues 0x29 s h c e → i.ten = false → bits i.w 95 64 = 0 →
    exec (.sli h c e) s = .next (((fetched s h c).issued i (putSreg i.x (bits i.w 100 96) (bits i.w 63 0)) (i.pc + 1)).onQueue s)) ∧
  (∀ (h : Half) (c : Fin 288) (e : HwEvent) (s : State), let i := issOf s h c e
    let a := (sreg i.x (bits i.w 95 91) + bits i.w 90 69) % 2 ^ 22
    issues 0x2A s h c e → i.ten = false → bits i.w 68 0 = 0 → a % 8 = 0 → readsClean s h c e →
    exec (.sld h c e) s = .next (((fetched s h c).issued i (putSreg i.x (bits i.w 100 96)
      (natOf (((csBytes i.x none i.stamp (a / 64) 64).drop (a % 64)).take 8))) (i.pc + 1)).onQueue
      s)) ∧
  (∀ (h : Half) (c : Fin 288) (e : HwEvent) (s : State), let i := issOf s h c e
    let a := (sreg i.x (bits i.w 95 91) + bits i.w 90 69) % 2 ^ 22
    let old := csBytes i.x none i.stamp (a / 64) 64
    issues 0x2B s h c e → i.ten = false → bits i.w 68 0 = 0 → a % 8 = 0 →
    exec (.sst h c e) s = .next (((fetched s h c).issued i { i.x with cs := mset (0 : Line) i.x.cs (a / 64) (BitVec.ofNat 512 (natOf
      (old.take (a % 64) ++ bytesOf 8 (sreg i.x (bits i.w 100 96)) ++ old.drop (a % 64 + 8)))) } (i.pc + 1)).onQueue s)) ∧
  (∀ (h : Half) (c : Fin 288) (e : HwEvent) (s : State), let i := issOf s h c e
    issues 0x2C s h c e → i.ten = false → bits i.w 91 0 = 0 → bits i.w 95 92 < 3 →
    exec (.srd h c e) s = .next ((((fetched s h c).drawn 1).issued i (putSreg i.x (bits i.w 100 96)
      (nth 0 [(fetched s h c).logicalId h c.val, c.val, i.k.part] (bits i.w 95 92) % 2 ^ 64)) (i.pc + 1)).onQueue s))

/-- LOOP, BR, END, SIGNAL, WAIT and FENCE of a cell. Rules: 02 Table 2.14, 02 R68, 02 R70, 02 R71, 03 R93, 03 R94, 03 R95. -/
def Obligations.CellControlInstructions : Prop :=
  (∀ (h : Half) (c : Fin 288) (e : HwEvent) (s : State), let i := issOf s h c e
    let first := i.pc + 1
    let stop := first + bits i.w 75 64 + 1
    let encl := match i.x.loops with
      | [] => i.k.ninst + 1
      | l :: _ => l.stop
    let n := if bits i.w 100 96 = 0 then bits i.w 95 76 else sreg i.x (bits i.w 100 96) % 2 ^ 32
    issues 0x30 s h c e → i.ten = false → bits i.w 63 0 = 0 → i.x.loops.length < 4 → stop ≤ encl →
    exec (.loop h c e) s = .next ((if n = 0 then (fetched s h c).issued i i.x stop
      else (fetched s h c).issued i { i.x with loops := ⟨first, stop, n, 0⟩ :: i.x.loops } (i.pc + 1)).onQueue s)) ∧
  (∀ (h : Half) (c : Fin 288) (e : HwEvent) (s : State), let i := issOf s h c e
    let taken := brTaken (bits i.w 90 88) (sreg i.x (bits i.w 100 96)) (sreg i.x (bits i.w 95 91))
    let t := (i.pc : Int) + toSigned 20 (bits i.w 87 68)
    let lim : Int × Int := match i.x.loops with
      | [] => (0, (i.k.ninst : Int) + 1)
      | l :: _ => ((l.first : Int), (l.stop : Int))
    issues 0x31 s h c e → i.ten = false → bits i.w 67 0 = 0 → bits i.w 90 88 ≠ 7 → lim.1 ≤ t → t < lim.2 →
    exec (.br h c e) s = .next (((fetched s h c).issued i i.x (if taken then t.toNat else i.pc + 1)).onQueue s)) ∧
  (∀ (h : Half) (c : Fin 288) (e : HwEvent) (s : State), let i := issOf s h c e
    issues 0x33 s h c e → i.ten = false → bits i.w 100 0 = 0 → unitsIdle i.x = true →
    exec (.endPart h c e) s = .next ((((fetched s h c).setF (cellPage h c.val) R.cell.PC i.pc).endNow h c.val).onQueue s)) ∧
  (∀ (h : Half) (c : Nat) (s : State), unitsIdle (s.cell h c) = true →
    s.endNow h c = (s.setCell h c { s.cell h c with ended := some (0, 0) }).setF (cellPage h c) R.cell.BLK_STS_STATE 4) ∧
  (∀ (h : Half) (c : Fin 288) (e : HwEvent) (s : State), let i := issOf s h c e
    let sem := bits i.w 100 85
    issues 0x38 s h c e → i.ten = false → bits i.w 50 0 = 0 → (bits i.w 52 51 = 1 ∨ bits i.w 52 51 = 2) →
    (fetched s h c).semIn h i.k.part sem = true → i.x.lsu.all (fun q => q.stores.isEmpty) = true →
    exec (.cellSignal h c e) s = .next ((((fetched s h c).issued i i.x (i.pc + 1)).addSem sem (bits i.w 84 53)).onQueue s)) ∧
  (∀ (h : Half) (c : Fin 288) (e : HwEvent) (s : State), let i := issOf s h c e
    let sem := bits i.w 100 85
    issues 0x39 s h c e → i.ten = false → bits i.w 52 0 = 0 → (fetched s h c).semIn h i.k.part sem = true →
    exec (.cellWait h c e) s = .next ((if bits i.w 84 53 ≤ (fetched s h c).sem sem then (fetched s h c).issued i i.x (i.pc + 1)
      else ((fetched s h c).setCell h c.val { i.x with wait := some (sem, bits i.w 84 53) }).setF (cellPage h c.val) R.cell.PC i.pc).onQueue
      s)) ∧
  (∀ (h : Half) (c : Fin 288) (e : HwEvent) (s : State), let i := issOf s h c e
    issues 0x3A s h c e → i.ten = false → bits i.w 98 0 = 0 → bits i.w 100 99 ≠ 3 → unitsIdle i.x = true →
    exec (.cellFence h c e) s = .next (((fetched s h c).issued i i.x (i.pc + 1)).onQueue s))

/-- the vector unit's instructions queue their result, set their flags and move the PC on. Rules: 02 Table 2.13, 02 R57, 02 R62, 02 R66, 02 R72. -/
def Obligations.CellVectorInstructions : Prop :=
  (∀ (h : Half) (c : Fin 288) (e : HwEvent) (s : State) (op : Nat) (i : Iss), i = issOf s h c e →
    let f := bits i.w 21 18
    let n := 256 * (bits i.w 37 22 + 1)
    let bc := bits i.w 17 16
    let ld := csOperand i.x (bits i.w 100 80)
    let l1 := csOperand i.x (bits i.w 79 59)
    let l2 := csOperand i.x (bits i.w 58 38)
    let n2 := if bc = 2 then 0 else if bc = 1 then 256 else n
    let a := vecRead i.x i.stamp l1 f n
    let b2 := if bc = 2 then [sreg i.x (bits i.w 58 54)] else vecRead i.x i.stamp l2 f n2
    let d := if op = 0x15 then vecRead i.x i.stamp ld f n else []
    let sb := fun k => nth 0 b2 (if bc = 0 then k else if bc = 1 then k % 256 else 0) % 2 ^ fmtBits f
    let fl := convAll (rndField i.k.drnd (bits i.w 15 14))
      (fun md x => toFmt f md (ovfMode i.k.dovf (bits i.w 13 12)) x)
      ((List.range n).map (fun k => vecExact op (decodeElem f (nth 0 d k)) (decodeElem f (nth 0 a k)) (decodeElem f (sb k)))) (genOf i.x)
    let int := (List.range n).map (fun k => vecInt op (int32 (nth 0 d k)) (int32 (nth 0 a k)) (int32 (sb k)))
    let t := if f = 13 then vuDone i (vecEntry i ld f int) 0 (genOf i.x) (fetched s h c)
      else vuDone i (vecEntry i ld f fl.1) fl.2.1 fl.2.2 (fetched s h c)
    issues op s h c e → bits i.w 11 0 = 0 → bc ≠ 3 → bits i.w 13 12 ≠ 3 → vecFmt f = true → ld + vecLines f n ≤ 65536 →
    l1 + vecLines f n ≤ 65536 → (bc ≠ 2 → l2 + vecLines f n2 ≤ 65536) → badOverlap ld (vecLines f n) l1 (vecLines f n) = false →
    (bc ≠ 2 → badOverlap ld (vecLines f n) l2 (vecLines f n2) = false) → readsClean s h c e →
    (op = 0x10 → exec (.vadd h c e) s = .next (t.onQueue s)) ∧ (op = 0x11 → exec (.vsub h c e) s = .next (t.onQueue s)) ∧
    (op = 0x12 → exec (.vmul h c e) s = .next (t.onQueue s)) ∧ (op = 0x13 → exec (.vmax h c e) s = .next (t.onQueue s)) ∧
    (op = 0x14 → exec (.vmin h c e) s = .next (t.onQueue s)) ∧ (op = 0x15 → exec (.vfma h c e) s = .next (t.onQueue s))) ∧
  (∀ (h : Half) (c : Fin 288) (e : HwEvent) (s : State), let i := issOf s h c e
    let f := bits i.w 63 60
    let n := 256 * (bits i.w 79 64 + 1)
    let ld := csOperand i.x (bits i.w 100 80)
    let v := bits i.w 59 28 % 2 ^ fmtBits f
    issues 0x16 s h c e → bits i.w 27 0 = 0 → vecFmt f = true → ld + vecLines f n ≤ 65536 →
    exec (.vfill h c e) s = .next ((vuDone i (vecEntry i ld f (List.replicate n v)) (nanFlag f v) (genOf i.x) (fetched s h c)).onQueue s)) ∧
  (∀ (h : Half) (c : Fin 288) (e : HwEvent) (s : State), let i := issOf s h c e
    let f := bits i.w 42 39
    let fn := bits i.w 38 35
    let n := 256 * (bits i.w 58 43 + 1)
    let ld := csOperand i.x (bits i.w 100 80)
    let l1 := csOperand i.x (bits i.w 79 59)
    let o := ovfMode i.k.dovf (bits i.w 32 31)
    let a := vecRead i.x i.stamp l1 f n
    let r := convAll (rndField i.k.drnd (bits i.w 34 33)) (fun md x => toFmt f md o x) (a.map (fun q => unaryNum fn o (decodeElem f q))) (genOf i.x)
    issues 0x17 s h c e → bits i.w 30 0 = 0 → fn < 0xA → bits i.w 32 31 ≠ 3 → vecFmt f = true → (f = 13 → fn ≤ 2) →
    ld + vecLines f n ≤ 65536 → l1 + vecLines f n ≤ 65536 → badOverlap ld (vecLines f n) l1 (vecLines f n) = false → readsClean s h c e →
    exec (.vun h c e) s = .next ((if f = 13 then vuDone i (vecEntry i ld f (a.map (unaryInt fn))) 0 (genOf i.x) (fetched s h c)
      else vuDone i (vecEntry i ld f r.1) r.2.1 r.2.2 (fetched s h c)).onQueue s)) ∧
  (∀ (h : Half) (c : Fin 288) (e : HwEvent) (s : State), let i := issOf s h c e
    let f := bits i.w 58 55
    let n := 16384 * (bits i.w 54 43 + 1)
    let ld := csOperand i.x (bits i.w 100 80)
    let l1 := csOperand i.x (bits i.w 79 59)
    let a := vecRead i.x i.stamp l1 f n
    issues 0x18 s h c e → bits i.w 42 0 = 0 → f ≤ 2 → ld + vecLines f n ≤ 65536 → l1 + vecLines f n ≤ 65536 →
    overlap ld (vecLines f n) l1 (vecLines f n) = false → readsClean s h c e →
    exec (.trans h c e) s = .next ((let r := (List.range n).map (fun k => nth 0 a (16384 * (k / 16384) + 128 * (k % 16384 % 128) + k % 16384 / 128))
      vuDone i (vecEntry i ld f r) (r.foldl (fun fl c => fl ||| nanFlag f c) 0) (genOf i.x) (fetched s h c)).onQueue s)) ∧
  (∀ (h : Half) (c : Fin 288) (e : HwEvent) (s : State), let i := issOf s h c e
    let nb := bits i.w 58 43 + 1
    let fs := bits i.w 42 39
    let fd := bits i.w 38 35
    let ld := csOperand i.x (bits i.w 100 80)
    let l1 := csOperand i.x (bits i.w 79 59)
    let b := flatRead i.x i.stamp l1 fs nb
    let r := convAll (rndField i.k.drnd (bits i.w 34 33)) (fun md x => toFmt fd md (ovfMode i.k.dovf (bits i.w 32 31)) x)
      ((List.range (32 * nb)).map (flatNum fs b)) (genOf i.x)
    issues 0x1C s h c e → bits i.w 30 0 = 0 → bits i.w 32 31 ≠ 3 → fmtOk fs = true → fmtOk fd = true → isBlock fd = false →
    ld + flatLines fd nb ≤ 65536 → l1 + flatLines fs nb ≤ 65536 → badOverlap ld (flatLines fd nb) l1 (flatLines fs nb) = false →
    (overlap ld (flatLines fd nb) l1 (flatLines fs nb) = true → fmtBits fs = fmtBits fd) → readsClean s h c e →
    exec (.cvt h c e) s = .next ((vuDone i (vecEntry i ld fd r.1) r.2.1 r.2.2 (fetched s h c)).onQueue s)) ∧
  (∀ (h : Half) (c : Fin 288) (e : HwEvent) (s : State), let i := issOf s h c e
    let nb := bits i.w 58 43 + 1
    let fs := bits i.w 42 39
    let fd := bits i.w 38 35
    let ld := csOperand i.x (bits i.w 100 80)
    let l1 := csOperand i.x (bits i.w 79 59)
    let b := flatRead i.x i.stamp l1 fs nb
    let old := flatRead i.x i.stamp ld fd nb
    let r := quantAll fd (rndField i.k.drnd (bits i.w 34 33)) (fun k => if bit i.w 30 then some (nth 0 old.2 k).toNat else none) nb 0
      ((List.range (32 * nb)).map (flatNum fs b)) (genOf i.x)
    let scl := csLines i.x (some .vu) i.stamp (ld + linesFor (nb * chunkBytes fd)) (r.1.map (BitVec.ofNat 8 ·))
    issues 0x1D s h c e → bits i.w 32 31 = 0 → bits i.w 29 0 = 0 → fs ≤ 2 → isBlock fd = true → ld + flatLines fd nb ≤ 65536 →
    l1 + flatLines fs nb ≤ 65536 → overlap ld (flatLines fd nb) l1 (flatLines fs nb) = false → readsClean s h c e →
    exec (.quant h c e) s = .next ((vuDone i { vecEntry i ld fd r.2.1 with lines := (vecEntry i ld fd r.2.1).lines ++ scl } r.2.2.1 r.2.2.2
      (fetched s h c)).onQueue s)) ∧
  (∀ (h : Half) (c : Fin 288) (e : HwEvent) (s : State), let i := issOf s h c e
    let m := bits i.w 58 43 + 1
    let ax := bits i.w 42 41
    let fn := bits i.w 40 39
    let ld := csOperand i.x (bits i.w 100 80)
    let l1 := csOperand i.x (bits i.w 79 59)
    let n := if ax = 0 then 128 else m
    let b := csBytes i.x (some .vu) i.stamp l1 (512 * m)
    let d := csBytes i.x (some .vu) i.stamp ld (4 * n)
    let r := (List.range n).map (fun j =>
      redList fn (ovfMode i.k.dovf 0) (if bit i.w 38 then some (elemAt 0 d j) else none)
        (if ax = 0 then (List.range m).map (fun r => elemAt 0 b (128 * r + j)) else (List.range 128).map (fun q => elemAt 0 b (128 * j + q))))
    issues 0x20 s h c e → bits i.w 37 0 = 0 → ax ≤ 1 → ld + linesFor (4 * n) ≤ 65536 → l1 + 8 * m ≤ 65536 →
    badOverlap ld (linesFor (4 * n)) l1 (8 * m) = false → readsClean s h c e →
    exec (.red h c e) s = .next ((vuDone i { tok := none, lines := csLines i.x (some .vu) i.stamp ld (r.flatMap (fun z => bytesOf 4 z.1)), stores := [], hint := 0, load := false }
      (r.foldl (fun f z => f ||| z.2) 0) (genOf i.x) (fetched s h c)).onQueue s))

/-- MMA queues the accumulated tile of its engine with the passes it counts when it completes. Rules: 02 Table 2.11, 02 R49, 02 R50, 02 R62, 02 R66, 02 R73. -/
def Obligations.CellMatrixInstruction : Prop :=
  (∀ (h : Half) (c : Fin 288) (e : HwEvent) (s : State), let i := issOf s h c e
    let fa := bits i.w 37 34
    let fb := bits i.w 33 30
    let steps := bits i.w 29 18 + 1
    let u : CUnit := if bit i.w 17 then .me1 else .me0
    let la := csOperand i.x (bits i.w 100 80)
    let lb := csOperand i.x (bits i.w 79 59)
    let lc := csOperand i.x (bits i.w 58 38)
    let na := mmaLines fa (bit i.w 15) (128 * steps)
    let nb := mmaLines fb false (128 * steps)
    issues 0x01 s h c e → bits i.w 14 0 = 0 → (pairWindow fa fb).isSome = true →
    (bit i.w 15 = true → fa = 3 ∨ fa = 4 ∨ fa = 5 ∨ fa = 6 ∨ fa = 10 ∨ fa = 11) →
    la + na ≤ 65536 → lb + nb ≤ 65536 → lc + 1024 ≤ 65536 → overlap lc 1024 la na = false → overlap lc 1024 lb nb = false →
    e ≠ .meParity → (fetched s h c).armed (cellPage h c.val) 11 = false → readsClean s h c e →
    exec (.mma h c e) s = .next ((mmaRun i la lb lc fa fb steps (bit i.w 16) (bit i.w 15) u (fetched s h c)).onQueue s)) ∧
  (∀ (i : Iss) (la lb lc fa fb steps : Nat) (acc : Bool) (u : CUnit) (s : State),
    let a := mmaRead i.x u i.stamp la fa false (128 * steps)
    let b := mmaRead i.x u i.stamp lb fb false (128 * steps)
    let res := (List.range 16384).map (fun j => mmaElem a b (ovfMode i.k.dovf 0) acc steps (j / 128) (j % 128)
      (natOf (((csBytes i.x (some u) i.stamp lc 65536).drop (4 * j)).take 4)))
    mmaRun i la lb lc fa fb steps acc false u s =
      (s.cellFlags i.h i.c (res.foldl (fun m e => m ||| e.2) 0)).enqueue i u i.x
        (InFl.mk none (csLines i.x (some u) i.stamp lc (res.flatMap (fun e => bytesOf 4 e.1))) [] 0 false 0 (passCount false steps) []))

/-- LOAD, STORE, GATHER, SCATTER, PREFETCH and MOVE of a cell queue what they move. Rules: 02 Table 2.12, 02 R66, 02 R67, 04 R119, 04 R128. -/
def Obligations.CellMemoryInstructions : Prop :=
  (∀ (h : Half) (c : Fin 288) (e : HwEvent) (s : State), let i := issOf s h c e
    let rows := bits i.w 54 43 + 1
    let n := 64 * (bits i.w 42 33 + 1)
    let ca := csOperand i.x (bits i.w 100 80)
    let base := addSigned 20 (sreg i.x (bits i.w 79 75)) (bits i.w 74 55)
    let al := strideRows base (bits i.w 32 9) rows
    let b := csBytes i.x (some .lsu) i.stamp ca (n * al.length)
    issues 0x05 s h c e → bits i.w 6 0 = 0 → bits i.w 8 7 ≠ 3 → ca + rows * (bits i.w 42 33 + 1) ≤ 65536 → base % 64 = 0 → readsClean s h c e →
    i.badRow (fetched s h c) n al = none →
    exec (.store h c e) s = .next (((fetched s h c).enqueue i .lsu i.x (InFl.mk none []
      ((List.range al.length).map (fun r => (nth 0 al r, (b.drop (n * r)).take n))) (bits i.w 8 7) false 0 0 [])).onQueue s)) ∧
  (∀ (h : Half) (c : Fin 288) (e : HwEvent) (s : State), let i := issOf s h c e
    let rows := bits i.w 54 43 + 1
    let n := 64 * (bits i.w 42 33 + 1)
    let ca := csOperand i.x (bits i.w 100 80)
    let base := addSigned 20 (sreg i.x (bits i.w 79 75)) (bits i.w 74 55)
    let al := strideRows base (bits i.w 32 9) rows
    let r := i.loadRows (bits i.w 8 7) n al (fetched s h c)
    issues 0x04 s h c e → bits i.w 6 0 = 0 → bits i.w 8 7 ≠ 3 → ca + rows * (bits i.w 42 33 + 1) ≤ 65536 → base % 64 = 0 →
    i.badRow (fetched s h c) n al = none → r.2.1 = false → e ≠ .loadUE →
    exec (.load h c e) s = .next ((r.1.enqueue i .lsu i.x (InFl.mk none (csLines i.x (some .lsu) i.stamp ca r.2.2) [] (bits i.w 8 7) true 0 0
      (al.map (fun a => (a, n))))).onQueue s)) ∧
  (∀ (h : Half) (c : Fin 288) (e : HwEvent) (s : State), let i := issOf s h c e
    let rows := bits i.w 53 42 + 1
    let n := 64 * (bits i.w 41 32 + 1)
    let ca := csOperand i.x (bits i.w 100 80)
    let ia := csOperand i.x (bits i.w 79 59)
    let base := sreg i.x (bits i.w 58 54)
    let ib := csBytes i.x (some .lsu) i.stamp ia (4 * rows)
    let al := indexRows base (bits i.w 31 8) ((List.range rows).map (fun k => natOf ((ib.drop (4 * k)).take 4)))
    let b := csBytes i.x (some .lsu) i.stamp ca (n * al.length)
    issues 0x06 s h c e → bits i.w 5 0 = 0 → bits i.w 7 6 ≠ 3 → ca + rows * (bits i.w 41 32 + 1) ≤ 65536 → ia + linesFor (4 * rows) ≤ 65536 →
    base % 64 = 0 → readsClean s h c e → i.badRow (fetched s h c) n al = none →
    exec (.scatter h c e) s = .next (((fetched s h c).enqueue i .lsu i.x (InFl.mk none []
      ((List.range al.length).map (fun r => (nth 0 al r, (b.drop (n * r)).take n))) (bits i.w 7 6) false 0 0 [])).onQueue s)) ∧
  (∀ (h : Half) (c : Fin 288) (e : HwEvent) (s : State), let i := issOf s h c e
    let rows := bits i.w 53 42 + 1
    let n := 64 * (bits i.w 41 32 + 1)
    let ca := csOperand i.x (bits i.w 100 80)
    let ia := csOperand i.x (bits i.w 79 59)
    let base := sreg i.x (bits i.w 58 54)
    let ib := csBytes i.x (some .lsu) i.stamp ia (4 * rows)
    let al := indexRows base (bits i.w 31 8) ((List.range rows).map (fun k => natOf ((ib.drop (4 * k)).take 4)))
    let r := i.loadRows (bits i.w 7 6) n al (fetched s h c)
    issues 0x09 s h c e → bits i.w 5 0 = 0 → bits i.w 7 6 ≠ 3 → ca + rows * (bits i.w 41 32 + 1) ≤ 65536 → ia + linesFor (4 * rows) ≤ 65536 →
    base % 64 = 0 → readsClean s h c e → i.badRow (fetched s h c) n al = none → r.2.1 = false → e ≠ .loadUE →
    exec (.gather h c e) s = .next ((r.1.enqueue i .lsu i.x (InFl.mk none (csLines i.x (some .lsu) i.stamp ca r.2.2) [] (bits i.w 7 6) true 0 0
      (al.map (fun a => (a, n))))).onQueue s)) ∧
  (∀ (h : Half) (c : Fin 288) (e : HwEvent) (s : State), let i := issOf s h c e
    let base := addSigned 20 (sreg i.x (bits i.w 100 96)) (bits i.w 95 76)
    let fill := fun (s : State) (k : Nat) =>
      let a := (base + 64 * k) % 2 ^ 64
      match s.place a with
      | .hbm home _ | .tier home _ =>
        if s.inWindow h i.k.part a 64 && s.halfUp home && !s.refused (s.place a) && base % 64 = 0 then
          (s.cacheTouch h home .cell false (bits i.w 51 50) (a / 128)).1
        else s
      | _ => s
    issues 0x07 s h c e → bits i.w 49 0 = 0 → bits i.w 51 50 ≠ 3 →
    exec (.prefetch h c e) s = .next ((((List.range (bits i.w 75 52 + 1)).foldl fill (fetched s h c)).issued i i.x (i.pc + 1)).onQueue s)) ∧
  (∀ (h : Half) (c : Fin 288) (e : HwEvent) (s : State), let i := issOf s h c e
    let n := bits i.w 58 43 + 1
    let ld := csOperand i.x (bits i.w 100 80)
    let l1 := csOperand i.x (bits i.w 79 59)
    issues 0x08 s h c e → bits i.w 42 0 = 0 → ld + n ≤ 65536 → l1 + n ≤ 65536 → readsClean s h c e →
    exec (.move h c e) s = .next (((fetched s h c).enqueue i .lsu i.x
      { tok := none, lines := csLines i.x (some .lsu) i.stamp ld (csBytes i.x (some .lsu) i.stamp l1 (64 * n)), stores := [], hint := 0, load := false }).onQueue s))

/-- V_AON, VIN48, POR_N, PRI_SEL, the power-fail path, the cuts, the drain and the loss of the keeper: what each does, and nothing else. Rules: 11 R338, 01 R14, 01 R15, 11 R345, 11 R346, 11 R359, 11 Table 11.8, 12 R364, 14 R420. -/
def Obligations.SupplyAndStrapCommands : Prop :=
  (∀ (k : KeeperStart) (s : State),
    s.pins.vAon = false →
    exec (.vAonRise k) s = .next (State.onQueue (
    let s := { s with pins := { s.pins with vAon := true }, nv := match k.nor with
      | some n => { s.nv with prim := n.1, mirr := n.2 }
      | none => s.nv }
    let s := ((s.setDie 0 .up).setDstate 1).setF .keeper R.keeper.STRAPS_PRI_SEL_NOW (if s.pins.priSel then 1 else 0)
    ({ s with sec := { s.sec with puf := k.pufOk } }).romStart) s)) ∧
  (∀ (s : State),
    exec (.vAonLoss) s = .next (({ State.reset with
      pins := { s.pins with vAon := false, sampled := false, edge := false, fault := false, therm := false, alert := false }
      ppr := s.ppr
      nv := { State.reset.nv with
        prim := { s.nv.prim with journal := tearLast (s.freeAhead 0) s.nv.prim.journal }
        mirr := { s.nv.mirr with journal := tearLast (s.freeAhead 1) s.nv.mirr.journal } }
      sec := { State.reset.sec with svn := s.sec.svn, revoke := s.sec.revoke, token := s.sec.token }
      out := s.closeAll.out
      fresh := s.fresh + 2
      pending := s.pending }).onQueue s)) ∧
  (∀ (s : State),
    s.railsUp = false →
    exec (.porAssert) s = .next (({ s with pins := { s.pins with por := true, sampled := false, edge := false, pwrFail := false, therm := false, fault := false } }).onQueue s)) ∧
  (∀ (s : State),
    s.railsUp →
    exec (.porAssert) s = .next ((({ s with pins := { s.pins with por := true, sampled := false, edge := false, pwrFail := false, therm := false, fault := false } }).railsOff 1).onQueue s)) ∧
  (∀ (s : State),
    s.pins.por →
    exec (.porDeassert) s = .next (({ s with pins := { s.pins with por := false, edge := true } }).onQueue s)) ∧
  (∀ (s : State),
    s.pins.vAon → s.pins.por = false → s.pins.sampled = false →
    exec (.priSelSample) s = .next (State.onQueue (
    let q := if s.pins.priSel then 1 else 0
    ({ s with pins := { s.pins with sampled := true } }).setFs .keeper
      [(R.keeper.STRAPS_PRI_SEL, q), (R.keeper.STRAPS_LEADER, q), (R.keeper.STRAPS_BRDID, s.pins.brdid.toNat)]) s)) ∧
  (∀ (level : Bool) (s : State),
    s.pins.vAon →
    exec (.priSelChange level) s = .next ((({ s with pins := { s.pins with priSel := level } }).setF .keeper R.keeper.STRAPS_PRI_SEL_NOW (if level then 1 else 0)).onQueue s)) ∧
  (∀ (level : Bool) (s : State),
    s.pins.vAon = false →
    exec (.priSelChange level) s = .next (({ s with pins := { s.pins with priSel := level } }).onQueue s)) ∧
  (∀ (s : State),
    exec (.vin48Rise) s = .next (({ s with pins := { s.pins with vin48 := true } }).onQueue s)) ∧
  (∀ (s : State),
    s.railsUp →
    exec (.vin48Low) s = .next ((({ s with pins := { s.pins with vin48 := false } }).err .gPwr 9).onQueue s)) ∧
  (∀ (s : State),
    s.railsUp →
    exec (.undervoltage) s = .next ((((({ s with pins := { s.pins with vin48 := false, fault := true } }).err .gPwr 11)).railsOff 5).onQueue s)) ∧
  (∀ (s : State),
    s.railsUp →
    exec (.overvoltage) s = .next ((((({ s with pins := { s.pins with fault := true } }).err .gPwr 12)).railsOff 6).onQueue s)) ∧
  (∀ (s : State),
    s.railsUp → s.halted = false → s.draining = false →
    exec (.powerFail) s = .next (State.onQueue (
    let s := (({ s with pins := { s.pins with pwrFail := true } }).setDstate 4).mgmtEvt 7 none
    let s := s.err .gPwr 10 { parts := bitsOf s.busyParts }
    ((s.abandon).sendDark s.leader).railsOff 3) s)) ∧
  (∀ (s : State),
    s.railsUp → s.halted →
    exec (.powerFail) s = .next ((({ s with pins := { s.pins with pwrFail := true } }).abandon).onQueue s)) ∧
  (∀ (s : State),
    s.draining →
    exec (.drainEnd) s = .next (State.onQueue (
    let s := (((s.stopSeq .A 0xD).stopSeq .B 0xD).stopDone .A).stopDone .B
    let s := s.sendDark s.leader
    let s := foldOver [Half.A, Half.B] (fun h s =>
      foldOver (allFin 8) (fun o s => if s.pstate h o = 0 then s else s.lowerOe h o 0 0) s) s
    s.journalHeld.railsOff 2) s)) ∧
  (∀ (s : State),
    s.die 0 = .up →
    exec (.keeperLoss) s = .next (State.onQueue (
    let parts := (List.range 8).filter (fun p => s.getF (.seq s.leader) (R.seq.PART_CTL_STATE.ix p) ≠ 0)
    let s := s.fwRecord .keeper true { cost := 5, parts := bitsOf parts }
    let s := ((((s.setChan .ck 5).votersLeft).orderlyStop).setDie 0 .lost)
    { s with nv := { s.nv with queue := [] } }) s))

/-- BRING_UP_START and BOOT_DONE: the steps of Table 12.2 in their order, reduced service, and its end. Rules: 12 R367, 12 R368, 12 R370, 12 R371, 12 Table 12.2, 01 R15. -/
def Obligations.BringUp : Prop :=
  (∀ (o : BringUpObs) (s : State),
    s.mayStart →
    exec (.bringUpStart o) s = .next (State.onQueue (
    let s := ({ s with pins := { s.pins with edge := false }, session := BitVec.ofNat 32 (s.freeAhead 0) }).drawn 1
    let s := s.setFs .keeper [(R.keeper.BOOT_STS_PHASE, 2), (R.keeper.STRAPS_LEADER, halfNo s.queen)]
    let (s, imgs) := s.loadFirmware
    let fa := halfFails o.a imgs
    let fb := halfFails o.b imgs
    let s := (s.railsMissed .A o.a.badRails).railsMissed .B o.b.badRails
    let lead := s.queen
    let lead := if (if lead = .A then fa else fb) ≠ 0 then otherHalf lead else lead
    let s := if fa ≠ 0 then s.startFails .A fa else s
    let s := if fb ≠ 0 then s.startFails .B fb else s
    let s := if imgs then s else { s with pins := { s.pins with fault := true } }
    if fa ≠ 0 && fb ≠ 0 then (if imgs then s else s.setF .keeper R.keeper.BOOT_STS_PHASE 0xA)
    else
      let s := (s.setF .keeper R.keeper.STRAPS_LEADER (halfNo lead)).takeCfg.startDimms
      let s := { s with reduced := true }.setFs .keeper [(R.keeper.BOOT_STS_REDUCED, 1), (R.keeper.BOOT_STS_PHASE, 8)]
      let s := if fa = 0 then s.startHalf .A o.a else s
      let s := if fb = 0 then s.startHalf .B o.b else s
      let s := ((s.startComplex o).startHinge o.bundlesBad).fabCaps.placeSpills ([Half.A, Half.B].filter s.halfUp)
      let s := (s.startCap.setCap lead 600 15).setDstate 2
      let s := s.setF (.seq lead) R.seq.BLK_STS_STATE 1
      let s := if fa ≠ 0 then s.hportLost .A else if fb ≠ 0 then s.hportLost .B else s
      if fa = 0 && fb = 0 && decide (s.bundlesUp < 4) then s.hingeLost else s) s)) ∧
  (∀ (s : State),
    s.reduced →
    exec (.bootDone) s = .next (State.onQueue (
    let oth := otherHalf s.leader
    let s := ({ s with reduced := false, sec := { s.sec with frozen := true } }).setCap s.leader 1500 15
    let s := if s.halfUp oth && s.getF (.seq oth) R.seq.BLK_STS_STATE = 0 then s.setF (.seq oth) R.seq.BLK_STS_STATE 1 else s
    let s := (s.setFs .keeper [(R.keeper.BOOT_STS_REDUCED, 0), (R.keeper.BOOT_STS_PHASE, 9), (R.keeper.BOOT_STS_DONE_MS, s.freeAhead 0)]).drawn 1
    foldOver ((List.range 128).map portOf) (fun p (s : State) => if s.linkUp p && s.lead p = p then s.linkDown p 6 else s) s) s))

/-- The cap loop, ceilings, clock domains, the idle device and REFCLK: the registers each changes, and nothing else. Rules: 11 R340, 11 R341, 11 R342, 11 R343, 11 R348, 11 R349, 11 R350, 11 R352, 11 Table 11.3, 11 Table 11.7a. -/
def Obligations.ClockCommands : Prop :=
  (∀ (h : Half) (q : Fin 4) (s : State),
    s.answers (.clk h) → s.die (dieCd h q.val) = .up → s.getF (.clk h) (R.clk.CEIL_MHZ.ix q.val) < s.ceilOf h q.val → 15 ≤ (s.cd h q.val).rise →
    exec (.clockRampStep h q) s = .next ((s.setF (.clk h) (R.clk.CEIL_MHZ.ix q.val) (min (s.getF (.clk h) (R.clk.CEIL_MHZ.ix q.val) + 100) (s.ceilOf h q.val))).onQueue s)) ∧
  (∀ (h : Half) (q : Fin 4) (s : State),
    s.answers (.clk h) → s.die (dieCd h q.val) = .up → s.ceilOf h q.val ≤ s.getF (.clk h) (R.clk.CEIL_MHZ.ix q.val) → (s.cd h q.val).rise < 15 →
    exec (.clockRampStep h q) s = .next (((s.drawn 1).setCd h q.val { s.cd h q.val with rise := (s.cd h q.val).rise + 1 + s.freeAhead 0 % (15 - (s.cd h q.val).rise) }).onQueue s)) ∧
  (∀ (m : Master) (h : Half) (value : Word) (s : State),
    s.reaches m → s.answers (.clk h) → 600 ≤ bits value.toNat 10 0 → bits value.toNat 10 0 ≤ 1500 → bits value.toNat 10 0 % 10 = 0 →
    exec (.fmax m h value) s = .next ((foldOver (List.range 4) (fun q (s : State) => s.showClock h q) (s.setF (.clk h) R.clk.FMAX_MHZ (bits value.toNat 10 0))).onQueue s)) ∧
  (∀ (m : Master) (h : Half) (value : Word) (s : State),
    s.reaches m → s.answers (.clk h) → bits value.toNat 10 0 < 600 ∨ 1500 < bits value.toNat 10 0 ∨ bits value.toNat 10 0 % 10 ≠ 0 →
    exec (.fmax m h value) s = .next ((s).onQueue s)) ∧
  (∀ (m : Master) (value : Word) (s : State),
    s.reaches m → s.answers .gPwr → 1500 ≤ value.toNat % 65536 → value.toNat % 65536 ≤ 5200 → s.ccLive = true → s.draining = false →
    exec (.capReq m value) s = .next (((s.setF .gPwr R.pwrG.CAP_REQ_W (value.toNat % 65536)).applyCap (value.toNat % 65536)).onQueue s)) ∧
  (∀ (m : Master) (value : Word) (s : State),
    s.reaches m → s.answers .gPwr → 1500 ≤ value.toNat % 65536 → value.toNat % 65536 ≤ 5200 → s.ccLive = false ∨ s.draining = true →
    exec (.capReq m value) s = .next (({ s.setF .gPwr R.pwrG.CAP_REQ_W (value.toNat % 65536) with capHeld := true }).onQueue s)) ∧
  (∀ (o : CapObs) (s : State),
    s.die 0 = .up → 2 ≤ s.dstate →
    exec (.capLoop o) s = .next (State.onQueue (
    let peak := max (s.getF .gPwr R.pwrG.LIMIT_PEAK_W) (min o.input 65535)
    let s := s.setFs .gPwr [(R.pwrG.VIN_W, min o.input 65535), (R.pwrG.LIMIT_PEAK_W, peak), (R.pwrG.CAP_NOW_FLOOR, min o.floor 65535)]
    let s := foldOver [Half.A, Half.B] (fun h s =>
      if !s.halfUp h then s
      else
        let load := match h with
          | .A => o.loadA
          | .B => o.loadB
        let share := s.getF (.pwr h) R.pwrH.SHARE_SHARE_W
        let s := s.setF (.pwr h) R.pwrH.SHARE_LOAD_W (min load 65535)
        if load > share then s.capLower h else if load < share then s.capRaise h else s) s
    s.setF .gPwr R.pwrG.LIMIT_STAGE (max (s.capStage .A) (s.capStage .B))) s)) ∧
  (∀ (s : State),
    s.answers .gPwr → s.halfUp .A → s.hbmLimit .A = 5 → s.getF (.pwr .A) R.pwrH.SHARE_LOAD_W > s.getF (.pwr .A) R.pwrH.SHARE_SHARE_W →
    exec (.capUnmet) s = .next ((s.err .gPwr 8).onQueue s)) ∧
  (∀ (d : DomRef) (toOff : Bool) (s : State),
    s.answers (.clk d.half) → s.dom d.half d.k.val = 2 → d.k.val < 4 → s.dieBusy d.half d.k.val = false →
    exec (.domainGate d toOff) s = .next ((s.setDom d.half d.k.val (if toOff then 0 else 1)).onQueue s)) ∧
  (∀ (d : DomRef) (toOff : Bool) (s : State),
    s.answers (.clk d.half) → s.dom d.half d.k.val = 2 → 8 ≤ d.k.val → d.k.val < 28 → toOff = false →
    exec (.domainGate d toOff) s = .next ((s.setDom d.half d.k.val 1).onQueue s)) ∧
  (∀ (d : DomRef) (toOff : Bool) (s : State),
    s.answers (.clk d.half) → s.dom d.half d.k.val = 2 ∨ s.dom d.half d.k.val = 1 → 28 ≤ d.k.val → d.k.val < 36 → s.pstate d.half (Fin.ofNat 8 (d.k.val - 28)) = 0 → toOff = true →
    exec (.domainGate d toOff) s = .next ((s.setDom d.half d.k.val 0).onQueue s)) ∧
  (∀ (d : DomRef) (s : State),
    s.answers (.clk d.half) → s.dom d.half d.k.val ≤ 1 →
    exec (.domainWake d) s = .next ((s.setDom d.half d.k.val 2).onQueue s)) ∧
  (∀ (s : State),
    s.dstate = 3 → s.working = false →
    exec (.deviceIdle) s = .next ((s.setDstate 2).onQueue s)) ∧
  (∀ (h : Half) (s : State),
    s.answers (.clk h) →
    exec (.refclkLoss h) s = .next (((s.setRef h false).err (.clk h) 9).onQueue s)) ∧
  (∀ (h : Half) (s : State),
    s.refOn h = false → s.halfUp h = true ∨ s.die (dieComb h) = .fenced →
    exec (.refclkHoldoverExpire h) s = .next ((s.halfLost h 1).onQueue s)) ∧
  (∀ (h : Half) (s : State),
    exec (.refclkReturn h) s = .next ((s.setRef h true).onQueue s))

/-- PLL_UNLOCK, RAIL_FAULT, AUTO_HALF_RESET and HALF_RST: what resets, what is lost, and what comes back. Rules: 11 R350, 11 R363, 11 Table 11.16, 12 R378, 12 R379, 12 R380, 12 R381, 12 Table 12.4. -/
def Obligations.DomainFaultsAndHalfReturn : Prop :=
  (∀ (e : PllEvent) (s : State),
    s.answers (.clk e.dom.half) → s.dom e.dom.half e.dom.k.val ≠ 0 →
    exec (.pllUnlock e) s = .next (State.onQueue (
    let h := e.dom.half
    let k := e.dom.k.val
    let cost := if k < 4 then 4 else if k < 8 || 36 ≤ k then 5 else if k < 28 then 0 else 4
    let s := (s.setDom h k 3).err (.clk h) 8 { cost := cost, status := if k < 4 then 8 else 0 }
    if k < 4 then s.resetDie h k (e.bistFail.map (·.val))
    else if k < 8 || 36 ≤ k then s.halfLost h 1
    else
      let s := if k < 20 then s.resetStack h (k - 8)
        else if k < 28 then s.resetChannel h (k - 20)
        else s.resetOe h (Fin.ofNat 8 (k - 28))
      s.setDom h k 2) s)) ∧
  (∀ (h : Half) (e : RailEvent) (s : State),
    s.answers (.pwr h) → e.rail.val < 4 →
    exec (.railFault h e) s = .next (((s.err (.pwr h) 14 { cost := 4, status := 8 }).resetDie h e.rail.val (e.bistFail.map (·.val))).onQueue s)) ∧
  (∀ (h : Half) (e : RailEvent) (s : State),
    s.answers (.pwr h) → e.rail.val = 4 ∨ e.rail.val = 9 →
    exec (.railFault h e) s = .next (((s.err (.pwr h) 14 { cost := 5 }).halfLost h 1).onQueue s)) ∧
  (∀ (h : Half) (e : RailEvent) (s : State),
    s.answers (.pwr h) → e.rail.val = 5 ∨ e.rail.val = 6 →
    exec (.railFault h e) s = .next ((foldOver (List.range 12) (fun i (s : State) => s.resetStack h i)
      (foldOver (List.range 72) (fun j (s : State) => s.undefRow (72 * halfNo h + j)) (s.err (.pwr h) 14))).onQueue s)) ∧
  (∀ (h : Half) (e : RailEvent) (s : State),
    s.answers (.pwr h) → e.rail.val = 7 →
    exec (.railFault h e) s = .next ((foldOver (allFin 8) (fun o (s : State) => s.resetOe h o) (s.err (.pwr h) 14 { cost := 4 })).onQueue s)) ∧
  (∀ (h : Half) (e : RailEvent) (s : State),
    s.answers (.pwr h) → e.rail.val = 8 →
    exec (.railFault h e) s = .next ((foldOver (allFin 8) (fun o (s : State) => if s.pstate h o = 0 then s else s.lowerOe h o 0 0) (s.err (.pwr h) 14)).onQueue s)) ∧
  (∀ (h : Half) (o : HalfObs) (s : State),
    s.die 0 = .up → s.whyLost h = 1 → s.refOn h → o.refclk → s.autoCount h < 2 →
    exec (.autoHalfReset h o) s = .next ((((s.drawn 1).setF .keeper (autoFld h) ((if s.freeAhead 0 % 2 = 0 then s.autoCount h else 0) + 1)).resetHalf h o).onQueue s)) ∧
  (∀ (m : Master) (o : HalfObs) (s : State),
    s.reaches m → s.answers .keeper → s.halted = false → s.halfUp .A = false → s.whyLost .A ≠ 0 →
    exec (.halfRstA m o) s = .next ((s.resetHalf .A o).onQueue s)) ∧
  (∀ (m : Master) (o : HalfObs) (s : State),
    s.reaches m → s.answers .keeper → s.halted = false → s.halfUp .B = false → s.whyLost .B ≠ 0 →
    exec (.halfRstB m o) s = .next ((s.resetHalf .B o).onQueue s)) ∧
  (∀ (m : Master) (o : HalfObs) (s : State),
    s.reaches m → s.answers .keeper → s.halted = true ∨ s.halfUp .A = true ∨ s.whyLost .A = 0 →
    exec (.halfRstA m o) s = .next ((s.err .keeper 0 { status := 1 }).onQueue s)) ∧
  (∀ (m : Master) (o : HalfObs) (s : State),
    s.reaches m → s.answers .keeper → s.halted = true ∨ s.halfUp .B = true ∨ s.whyLost .B = 0 →
    exec (.halfRstB m o) s = .next ((s.err .keeper 0 { status := 1 }).onQueue s))

/-- Each scheduled calibration runs once when its page answers, HOLD is 0 and its instance is ready. Rules: 12 R383, 12 R384, 12 R387, 12 R390, 12 Table 12.5, 06 R186, 04 R122. -/
def Obligations.CalibrationCommands : Prop :=
  (∀ (o : CalObs) (s : State),
    s.answers (.gCal) → s.isSet (.gCal) R.cal.CAL_CTL_HOLD = false →
    exec (.oscCal o) s = .next ((s.calRun (.gCal) 0x01 0 o 0).onQueue s)) ∧
  (∀ (o : CalObs) (s : State),
    s.answers (.gCal) → s.isSet (.gCal) R.cal.CAL_CTL_HOLD = false → s.halted = false →
    exec (.vrefCal o) s = .next ((s.calRun (.gCal) 0x02 0 o 0).onQueue s)) ∧
  (∀ (i : Fin 12) (o : CalObs) (s : State),
    s.answers (.gCal) → s.isSet (.gCal) R.cal.CAL_CTL_HOLD = false → s.halted = false →
    exec (.remoteInputCal i o) s = .next ((s.calRun (.gCal) 0x03 i.val o 0).onQueue s)) ∧
  (∀ (o : CalObs) (s : State),
    s.answers (.gCal) → s.isSet (.gCal) R.cal.CAL_CTL_HOLD = false → s.halted = false →
    exec (.vinSenseCal o) s = .next ((s.calRun (.gCal) 0x04 0 o 0).onQueue s)) ∧
  (∀ (h : Half) (o : CalObs) (s : State),
    s.answers (.cal h) → s.isSet (.cal h) R.cal.CAL_CTL_HOLD = false → s.halfUp h →
    exec (.refclkCal h o) s = .next ((s.calRun (.cal h) 0x10 0 o 0).onQueue s)) ∧
  (∀ (h : Half) (o : CalObs) (s : State),
    s.answers (.cal h) → s.isSet (.cal h) R.cal.CAL_CTL_HOLD = false → s.halted = false → s.halfUp h →
    exec (.railSenseCal h o) s = .next ((s.calRun (.cal h) 0x11 0 o 0).onQueue s)) ∧
  (∀ (h : Half) (b : Fin 16) (o : CalObs) (s : State),
    s.answers (.cal h) → s.isSet (.cal h) R.cal.CAL_CTL_HOLD = false → s.halted = false → s.bundleUp (Fin.ofNat 16 b.val) →
    exec (.hingeRxCal h b o) s = .next ((s.calRun (.cal h) 0x12 b.val o 0).onQueue s)) ∧
  (∀ (h : Half) (k : Fin 32) (o : CalObs) (s : State),
    s.answers (.cal h) → s.isSet (.cal h) R.cal.CAL_CTL_HOLD = false → s.halted = false → s.dlState (.ucie h (Fin.ofNat 32 k.val)) = ucACTIVE →
    exec (.ucieRxCal h k o) s = .next ((s.calRun (.cal h) 0x13 k.val o 0).onQueue s)) ∧
  (∀ (h : Half) (c : Fin 8) (o : CalObs) (s : State),
    s.answers (.cal h) → s.getF (ddrPage h c.val) R.ddrc.BLK_STS_STATE = 2 →
    exec (.ddrZqTracking h c o) s = .next ((s.calRun (.cal h) 0x15 c.val o 0).onQueue s)) ∧
  (∀ (h : Half) (i : Fin 12) (ch : Fin 32) (o : CalObs) (s : State),
    s.answers (.cal h) → s.getF (hbmPage h ((32 * i.val + ch.val) / 32)) R.hbmc.BLK_STS_STATE = 3 →
    exec (.hbmTimingUpdate h i ch o) s = .next ((s.calRun (.cal h) 0x14 (32 * i.val + ch.val) o 0).onQueue s)) ∧
  (∀ (p : PortId) (o : CalObs) (bad : BitVec 36) (s : State),
    s.answers (.cal p.half) → s.isSet (.cal p.half) R.cal.CAL_CTL_HOLD = false → s.halted = false → s.calReady (.cal p.half) 0x16 p.i.val →
    exec (.portRecal p o bad) s = .next ((s.calRun (.cal p.half) 0x16 p.i.val o bad.toNat).onQueue s)) ∧
  (∀ (p : Page) (id : BitVec 8) (inst : BitVec 9) (s : State),
    s.answers p → calHeld p id.toNat inst.toNat →
    exec (.calStepTimeout p id inst) s = .next ((s.calFails p id.toNat inst.toNat (s.calRec p id.toNat inst.toNat) 3 false).onQueue s)) ∧
  (∀ (m : Master) (o : CalObs) (s : State),
    s.reaches m → s.answers .gCal → s.isSet .gCal R.cal.CAL_CTL_HOLD = false → s.getF .gCal R.cal.CAL_SEL_ID = 1 → s.getF .gCal R.cal.CAL_SEL_INST = 0 →
    exec (.runNow m .gCal o) s = .next (((s.drawn 1).calRun .gCal 1 0 o (s.freeAhead 0 % 2 ^ 36)).onQueue s)) ∧
  (∀ (m : Master) (h : Half) (o : CalObs) (s : State),
    s.reaches m → s.answers (.cal h) → s.isSet (.cal h) R.cal.CAL_CTL_HOLD = false → calHeld (.cal h) (s.getF (.cal h) R.cal.CAL_SEL_ID) (s.getF (.cal h) R.cal.CAL_SEL_INST) → s.getF (.cal h) R.cal.CAL_SEL_ID ≠ 0x17 → s.calReady (.cal h) (s.getF (.cal h) R.cal.CAL_SEL_ID) (s.getF (.cal h) R.cal.CAL_SEL_INST) → s.halted = false →
    exec (.runNow m (.cal h) o) s = .next (((s.drawn 1).calRun (.cal h) (s.getF (.cal h) R.cal.CAL_SEL_ID) (s.getF (.cal h) R.cal.CAL_SEL_INST) o (s.freeAhead 0 % 2 ^ 36)).onQueue s)) ∧
  (∀ (m : Master) (h : Half) (o : CalObs) (s : State),
    s.reaches m → s.answers (.cal h) → s.isSet (.cal h) R.cal.CAL_CTL_HOLD = true ∨ s.getF (.cal h) R.cal.CAL_SEL_ID = 0x17 →
    exec (.runNow m (.cal h) o) s = .next ((s.err (.cal h) 0 { status := 1 }).onQueue s))

/-- How a calibration run ends without an armed injection: no reference, a step timeout, a limit missed, a pass. Rules: 12 R382, 12 R383, 12 R384, 12 R392, 12 Table 12.5, 12 Table 12.11. -/
def Obligations.CalibrationOutcomes : Prop :=
  ∀ (p : Page) (id inst : Nat) (o : CalObs) (s : State), s.armed p 8 = false →
    (calNeedsRef id → o.refOk = false →
      s.calEnd p id inst o = ((((s.showRef id false).setCal p id inst
        { s.calRec p id inst with result := 2, traced := false, runs := min ((s.calRec p id inst).runs + 1) 65535, fails := 0 }).err p 9), false)) ∧
    ((calNeedsRef id = false ∨ o.refOk) → o.timeout →
      s.calEnd p id inst o = ((s.showRef id o.refOk).calFails p id inst (s.calRec p id inst) 3 false, false)) ∧
    ((calNeedsRef id = false ∨ o.refOk) → o.timeout = false → calMeets id o.quality = false →
      s.calEnd p id inst o = ((s.showRef id o.refOk).calFails p id inst
        { s.calRec p id inst with q := o.quality, pause := min o.pauseUs 65535 } 4 false, false)) ∧
    ((calNeedsRef id = false ∨ o.refOk) → o.timeout = false → calMeets id o.quality →
      s.calEnd p id inst o = ((s.showRef id o.refOk).setCal p id inst
        { result := 1, traced := calTraces id && o.refOk, elem := o.elem.toNat, runs := min ((s.calRec p id inst).runs + 1) 65535, q := o.quality,
          passed := true, pause := min o.pauseUs 65535, fails := 0 }, true))

/-- Record sets, CFG_NEXT and the NV journal: what is written where. Rules: 11 R360, 12 R376, 12 R388, 12 R389, 14 R427, 11 R341. -/
def Obligations.StoresAndJournal : Prop :=
  (∀ (set : Fin 8) (body : List Byte) (o : StoreObs) (s : State),
    s.keeperRuns → 1 ≤ set.val → set.val ≤ 6 → body ≠ [] → body.length ≤ 65216 →
    exec (.recordStore set body o) s = .next (((s.storeRec set.val body o).1).onQueue s)) ∧
  (∀ (m : Master) (value : Word) (o : StoreObs) (s : State),
    s.reaches m → s.answers .keeper → s.keeperRuns → (o.firstTry && o.secondTry) = false →
    exec (.cfgNext m value o) s = .next (State.onQueue (
    let t := s.setFs .keeper [(R.keeper.CFG_NEXT_SET, value.toNat % 65536), (R.keeper.CFG_NEXT_STORED, 0)]
    (t.storeRec 7 (bytesOf 2 (value.toNat % 65536)) o).1.setF .keeper R.keeper.CFG_NEXT_STORED 1) s)) ∧
  (∀ (m : Master) (value : Word) (o : StoreObs) (s : State),
    s.reaches m → s.answers .keeper → s.keeperRuns → (o.firstTry && o.secondTry) = true →
    exec (.cfgNext m value o) s = .next (State.onQueue (
    let t := s.setFs .keeper [(R.keeper.CFG_NEXT_SET, value.toNat % 65536), (R.keeper.CFG_NEXT_STORED, 0)]
    (t.storeRec 7 (bytesOf 2 (value.toNat % 65536)) o).1) s)) ∧
  (∀ (primary mirror : Bool) (e : Nat × List Byte) (t : List (Nat × List Byte)) (s : State),
    s.keeperRuns → s.nv.queue = e :: t →
    exec (.journalWrite primary mirror) s = .next (State.onQueue (
    let r : JRec := { type := BitVec.ofNat 8 e.1, seqno := BitVec.ofNat 64 s.nv.seqno, body := e.2, whole := true }
    let nv := { s.nv with prim := addRec s.nv.prim r primary, mirr := addRec s.nv.mirr r mirror, queue := t, seqno := s.nv.seqno + 1 }
    { s with nv := nv }.setF .gPwr R.pwrG.NV_STS_QUEUED (min t.length 255)) s)) ∧
  (∀ (s : State),
    s.keeperRuns →
    exec (.journalRewrite) s = .next (({ s with nv := { s.nv with
      prim := { dropTorn s.nv.prim with journal := keepNewest (dropTorn s.nv.prim).journal }
      mirr := { dropTorn s.nv.mirr with journal := keepNewest (dropTorn s.nv.mirr).journal } } }).onQueue s))

/-- Sensor and remote samples, and the release of thermal ceilings, surges, holds and region throttles. Rules: 11 R353, 11 R354, 11 R355, 11 R356, 11 R357, 11 Table 11.9, 05 R168. -/
def Obligations.ThermalCommands : Prop :=
  (∀ (o : SensorObs) (s : State),
    let ls := thermDies
    let sens := (o.temps.filter (fun e => decide (e.1 < 540))).foldl (fun m e => mput m (540 * halfNo o.half + e.1) e.2) s.sens
    let t := foldOver thermDies (fun d (t : State) => t.excludeSensors o.half d (jumps o.half d s.sens sens t.excl)) { s with sens := sens, ticks := mset 0 s.ticks (halfNo o.half) (mget 0 s.ticks (halfNo o.half) + 1) }
    s.railsUp → s.answers (.therm o.half) → ls.findSome? (fun d => (t.tripAt o.half d).map (fun r => (d, r))) = none →
    exec (.sensorSample o) s = .next (State.onQueue (
    let h := o.half
    let olds := thermDies.map (fun d => (d, (s.watch1 (dieWatch h d)).hist.head?))
    let inj := t.armed (.therm h) 11
    let s := foldOver thermDies (fun d (s : State) =>
      match s.reading h d with
      | none => s
      | some r =>
        let x := s.watch1 (dieWatch h d)
        let rises := match x.hist with
          | _ :: b :: _ => decide (r - b > 32)
          | _ => false
        let inj0 := inj && d = 0
        let s := if rises then s.surge h d false else s
        let s := if inj0 then s.surge h d true else s
        s.setWatch (dieWatch h d) { x with hist := (r :: x.hist).take 4 }) t
    let s := if inj then s.disarm (.therm h) else s
    let s := foldOver olds (fun e (s : State) =>
      match s.reading h e.1 with
      | none => if s.heldHot h e.1 then s.judgeDie h e.1 else s
      | some r => (s.judgeDie h e.1).dieActs h e.1 e.2 r) s
    ((s.setVolts o).regions h).showTherm h) s)) ∧
  (∀ (o : SensorObs) (s : State),
    let ls := thermDies
    let sens := (o.temps.filter (fun e => decide (e.1 < 540))).foldl (fun m e => mput m (540 * halfNo o.half + e.1) e.2) s.sens
    let t := foldOver thermDies (fun d (t : State) => t.excludeSensors o.half d (jumps o.half d s.sens sens t.excl)) { s with sens := sens, ticks := mset 0 s.ticks (halfNo o.half) (mget 0 s.ticks (halfNo o.half) + 1) }
    s.railsUp → s.answers (.therm o.half) → (ls.findSome? (fun d => (t.tripAt o.half d).map (fun r => (d, r)))).isSome →
    exec (.sensorSample o) s = .next (State.onQueue (
    let e := (ls.findSome? (fun d => (t.tripAt o.half d).map (fun r => (d, r)))).getD (0, 0)
    t.trip o.half e.1 e.2) s)) ∧
  (∀ (o : RemoteObs) (s : State),
    s.answers .gTherm → s.getF .gTherm (remFld R.thermG.TD_CFG_EN R.thermG.TH_CFG_EN o.input) ≠ 0 → o.fault → s.getF .gTherm (remFld R.thermG.TD_FAULT R.thermG.TH_FAULT o.input) ≠ 1 →
    exec (.remoteSample o) s = .next ((((s.setF .gTherm (remFld R.thermG.TD_FAULT R.thermG.TH_FAULT o.input) 1).setWatch (remKey o.input) watchInit).err .gTherm 14).onQueue s)) ∧
  (∀ (o : RemoteObs) (s : State),
    s.answers .gTherm → s.getF .gTherm (remFld R.thermG.TD_CFG_EN R.thermG.TH_CFG_EN o.input) ≠ 0 → o.fault = false →
    exec (.remoteSample o) s = .next (State.onQueue (
    let i := o.input
    let f := fun (td th : Fld) => s.getF .gTherm (remFld td th i)
    let s := s.setFs .gTherm [(remFld R.thermG.TD_FAULT R.thermG.TH_FAULT i, 0),
      (remFld R.thermG.TD_TEMP R.thermG.TH_TEMP i, (BitVec.ofInt 16 o.temp).toNat)]
    let x := s.watch1 (remKey i)
    let th := fun (n : Nat) => (16 : Int) * ([0, f R.thermG.TD_CFG_WARN_C R.thermG.TH_CFG_WARN_C, f R.thermG.TD_CFG_CRIT_C R.thermG.TH_CFG_CRIT_C].getD n 0 : Nat)
    let hist := (o.temp :: x.hist).take 4
    let n := settleState th 2 48 hist x.prev
    let s := s.setWatch (remKey i) { x with hist := hist, prev := n }
    if n = 2 && x.prev ≠ 2 then
      if f R.thermG.TD_CFG_CRIT_STOP R.thermG.TH_CFG_CRIT_STOP = 1 then s.orderlyStop
      else ((s.err .gTherm 15).drawn 1).mgmtEvt ((s.err .gTherm 15).freeAhead 0 % 256) none
    else s) s)) ∧
  (∀ (h : Half) (q : Fin 4) (s : State),
    s.answers (.therm h) → s.getF (.therm h) (R.therm.DIE_STS_STATE.ix q.val) < 2 → (s.cd h q.val).thermD < 15 →
    exec (.thermalCeilingRise h q) s = .next ((s.setCd h q.val { s.cd h q.val with thermD := (s.cd h q.val).thermD + 1 }).onQueue s)) ∧
  (∀ (h : Half) (q : Fin 4) (s : State),
    s.answers (.therm h) → s.getF (.therm h) (R.therm.DIE_STS_STATE.ix q.val) < 2 → 15 ≤ (s.cd h q.val).thermD → (s.cd h q.val).therm < 1500 →
    exec (.thermalCeilingRise h q) s = .next ((s.setCd h q.val { s.cd h q.val with       therm := if (s.cd h q.val).therm + 50 ≥ s.fmaxOf h then 1500 else (s.cd h q.val).therm + 50 }).onQueue s)) ∧
  (∀ (h : Half) (d : Fin 36) (renew : Bool) (s : State),
    s.answers (.therm h) → renew = false →
    exec (.ditherHoldExpire h d renew) s = .next ((s.setF (.therm h) (R.therm.DIE_STS_HOLD.ix d.val) 0).onQueue s)) ∧
  (∀ (h : Half) (d : Fin 36) (s : State),
    s.answers (.therm h) → isCompute d.val → (s.cd h d.val).surge < 1500 → (s.cd h d.val).surge + 100 < s.fmaxOf h →
    exec (.surgeRelease h d) s = .next ((s.setCd h d.val { s.cd h d.val with surge := (s.cd h d.val).surge + 100 }).onQueue s)) ∧
  (∀ (h : Half) (d : Fin 36) (s : State),
    s.answers (.therm h) → isCompute d.val → (s.cd h d.val).surge < 1500 → s.fmaxOf h ≤ (s.cd h d.val).surge + 100 →
    exec (.surgeRelease h d) s = .next (((s.setF (.therm h) (R.therm.DIE_STS_SURGE.ix d.val) 0).setCd h d.val { s.cd h d.val with surge := 1500 }).onQueue s)) ∧
  (∀ (h : Half) (q : Fin 4) (p : RegionPair) (s : State),
    s.answers (.noc h q) → p = .compute → ((s.pairs h).find? (fun x => x.dieA = 36 * halfNo h + q.val)).any (fun x => decide (x.dT ≤ 216) && decide (x.dV ≤ 140)) →
    exec (.regionThrottleRelease h q p) s = .next (State.onQueue (
    let t := { s with throttled := merase s.throttled (36 * halfNo h + q.val) }
    t.setCd h q.val { t.cd h q.val with region := 1500 }) s)) ∧
  (∀ (h : Half) (q : Fin 4) (i : Fin 12) (s : State),
    s.answers (.noc h q) → ((s.pairs h).find? (fun x => x.dieA = 36 * halfNo h + 16 + i.val)).any (fun x => decide (x.dT ≤ 216) && decide (x.dV ≤ 140)) →
    exec (.regionThrottleRelease h q (.hbm i)) s = .next (({ s with throttled := merase s.throttled (36 * halfNo h + 16 + i.val) }).onQueue s))

/-- Frames, command copies, votes, heartbeats, the hinge timer, restarts and LINK_TRAIN: each outcome of each. Rules: 10 R317, 10 R318, 10 R319, 10 R320, 10 R323, 10 R324, 10 R326, 10 R327, 10 R328, 10 R329, 10 Table 10.2, 07 R219. -/
def Obligations.ControlComplex : Prop :=
  (∀ (joining : List (Chan × ResyncObs)) (s : State),
    s.ccLive →
    exec (.controlFrame joining) s = .next (State.onQueue (
    let s := { s with cc := { s.cc with frame := (s.cc.frame + 1) % 2 ^ 24 } }
    let d := s.freeAhead 0
    let s := foldOver allChans (fun c s => if s.chanRuns c then s.setF (chanPage c) R.ctrlch.CS_CRC_DIGEST d else s) (s.drawn 1)
    (foldOver joining (fun e s => s.rejoin e.1 e.2) s).splitHalves) s)) ∧
  (∀ (c : CmdCopy) (s : State),
    s.ccLive → s.chan c.chan = 1 → s.cc.promo.contains c.actuator.val = false → s.armed (chanPage c.chan) 8 = false → c.seq.toNat = s.expectSeq c.actuator.val → (s.copiesOf c.actuator.val).any (fun x => x.seq = c.seq && x.chan = c.chan) = false →
    exec (.commandCopy c) s = .next ((s.judge1 c).onQueue s)) ∧
  (∀ (c : CmdCopy) (s : State),
    s.ccLive → s.chan c.chan = 1 → s.cc.promo.contains c.actuator.val = false → s.armed (chanPage c.chan) 8 = false → c.seq.toNat ≠ s.expectSeq c.actuator.val → s.copiesOf c.actuator.val = [] →
    exec (.commandCopy c) s = .next ((s.disagree).onQueue s)) ∧
  (∀ (c : CmdCopy) (x : CmdCopy) (s : State),
    s.ccLive → s.chan c.chan = 1 → s.cc.promo.contains c.actuator.val = false → s.armed (chanPage c.chan) 8 = false → c.seq.toNat = s.expectSeq c.actuator.val → s.copiesOf c.actuator.val = [x] → x.chan ≠ c.chan → sameCmd x c → s.ccMode = 2 →
    exec (.commandCopy c) s = .next (((s.setCopies c.actuator.val [x, c]).acceptCmd c).onQueue s)) ∧
  (∀ (c : CmdCopy) (s : State),
    s.ccLive → s.chan c.chan = 2 → s.cc.promo.contains c.actuator.val = true → s.armed (chanPage c.chan) 8 = false → (s.copiesOf c.actuator.val).any (fun x => x.seq = c.seq) →
    exec (.commandCopy c) s = .next ((s.promote c).onQueue s)) ∧
  (∀ (c : CmdCopy) (s : State),
    s.ccLive = false ∨ (s.chan c.chan ≠ 1 ∧ s.chan c.chan ≠ 2) →
    exec (.commandCopy c) s = .next ((s).onQueue s)) ∧
  (∀ (a : Fin 32) (s : State),
    s.ccLive → s.cc.promo.contains a.val →
    exec (.voteWindowExpire a) s = .next ((s.promoteFail).onQueue s)) ∧
  (∀ (a : Fin 32) (x : CmdCopy) (t : List CmdCopy) (s : State),
    s.ccLive → s.cc.promo.contains a.val = false → s.copiesOf a.val = x :: t → x.seq.toNat ≠ s.expectSeq a.val → s.ccMode = 1 →
    exec (.voteWindowExpire a) s = .next (State.onQueue (
    let cur := (x :: t).filter (fun y => y.seq = x.seq)
    let r := s.setCopies a.val ((x :: t).filter (fun y => y.seq ≠ x.seq))
    match s.voters.filter (fun k => !cur.any (fun y => y.chan = k)) with
    | [] => r
    | k :: _ => (r.outvote k).setMode 2) s)) ∧
  (∀ (a : Fin 32) (x : CmdCopy) (t : List CmdCopy) (s : State),
    s.ccLive → s.cc.promo.contains a.val = false → s.copiesOf a.val = x :: t → x.seq.toNat = s.expectSeq a.val → s.ccMode = 1 →
    exec (.voteWindowExpire a) s = .next (((s.setCopies a.val ((x :: t).filter (fun y => y.seq ≠ x.seq))).disagree.safeHalt 3).onQueue s)) ∧
  (∀ (a : Fin 32) (x : CmdCopy) (t : List CmdCopy) (s : State),
    s.ccLive → s.cc.promo.contains a.val = false → s.copiesOf a.val = x :: t → x.seq.toNat = s.expectSeq a.val → s.ccMode ≠ 1 →
    exec (.voteWindowExpire a) s = .next ((s.pairDisagree a.val).onQueue s)) ∧
  (∀ (v : HbViews) (s : State),
    s.ccLive →
    exec (.heartbeatLoss v) s = .next (State.onQueue (
    let run := allChans.filter s.chanRuns
    let d := fun (x y : Chan) => run.contains x && declares v x y
    let s := foldOver run (fun c s => s.missHb v c) s
    let ck := run.contains .ck
    if d .ca .cb && d .cb .ca then
      if ck && !d .ck .ca && !d .ck .cb then (s.holdActuators).hingeLost
      else if ck && !d .ck .ca then s.holdActuators.fenceHalf .B 2 |> State.votersLeft
      else if ck && !d .ck .cb then s.holdActuators.fenceHalf .A 2 |> State.votersLeft
      else
        let s := if ck then s.setChan .ck (if v.dieRuns then 3 else 5) else s
        s.goSingle
    else
      match allChans.find? (fun x => run.contains x && (run.filter (fun y => y ≠ x)).length ≥ 2 &&
          (run.filter (fun y => y ≠ x)).all (fun y => d y x)) with
      | some x =>
        let s := s.hbFailed x v.dieRuns
        if x = .ck && v.pairDisagrees && s.ccMode = 2 then s.goSingle else s
      | none =>
        if run.length = 2 && run.all (fun x => run.any (fun y => d x y)) then s.pairDisagree 0 else s) s)) ∧
  (∀ (bundles : List (Fin 16)) (s : State),
    s.getF .ck R.ctrlch.CC_STS_HINGE = 2 → s.halted = false → s.halfUp .A → s.halfUp .B → 4 ≤ (allBundles.filter (fun b => bundles.contains b)).length →
    exec (.hingeRetrainTimer bundles) s = .next ((s.hingeBack (allBundles.filter (fun b => bundles.contains b))).onQueue s)) ∧
  (∀ (ok : List Chan) (s : State),
    s.bound .i3c → s.ccMode = 4 →
    exec (.ccRestart .i3c ok) s = .next (((s.mgmtReply .i3c 5 0 []).ccRestartWith ok).onQueue s)) ∧
  (∀ (ok : List Chan) (s : State),
    s.bound .i3c → s.ccMode ≠ 4 →
    exec (.ccRestart .i3c ok) s = .next (((s.err .ck 0 { status := 1 }).mgmtReply .i3c 5 1 []).onQueue s)) ∧
  (∀ (f : Fn) (ok : List Chan) (s : State),
    s.bound (.pcie f) →
    exec (.ccRestart (.pcie f) ok) s = .next ((s.mgmtReply (.pcie f) 5 3 []).onQueue s)) ∧
  (∀ (m : Master) (ok : List Chan) (s : State),
    s.reaches m → s.answers .ck →
    exec (.ccRestartWrite m ok) s = .next ((s.ccRestartWith ok).onQueue s)) ∧
  (∀ (p : PortId) (o : TrainObs) (s : State),
    s.isBypass p = false →
    exec (.linkTrain p o) s = .next ((s.trainLink p o).onQueue s)) ∧
  (∀ (p : PortId) (o : TrainObs) (s : State),
    s.isBypass p → s.hingeView = 2 → (s.trainLink p o).hingeView ≠ 1 →
    exec (.linkTrain p o) s = .next ((s.trainLink p o).onQueue s))

/-- The management endpoint, events, telemetry and the I3C target: the answer each command gets and the state it leaves. Rules: 10 R330, 10 R331, 10 R332, 10 R333, 10 Table 10.5, 10 Table 10.6, 10 Table 10.7, 04 R131, 11 R352. -/
def Obligations.ManagementCommands : Prop :=
  (∀ (b : Binding) (s : State),
    s.bound b →
    exec (.getTelemetry b) s = .next ((s.mgmtReply b 1 0 (padTo 64 s.telem)).onQueue s)) ∧
  (∀ (b : Binding) (s : State),
    s.bound b →
    exec (.getHealth b) s = .next ((s.mgmtReply b 2 0 (bytesOf 4 s.ccSts ++ bytesOf 1 (halfNo s.leader) ++ bytesOf 1 s.hostRoles ++ bytesOf 1 s.fencedHalves ++
      bytesOf 4 (s.readReg .ck 0x124).toNat)).onQueue s)) ∧
  (∀ (f : Fn) (h : Half) (c : Fin 8) (offset : Nat) (bytes : List Byte) (s : State),
    s.bound (.pcie f) →
    exec (.dimmDesc (.pcie f) h c offset bytes) s = .next ((s.mgmtReply (.pcie f) 3 3 []).onQueue s)) ∧
  (∀ (h : Half) (c : Fin 8) (offset : Nat) (bytes : List Byte) (s : State),
    s.bound .i3c → bytes.length = 256 → [0, 256, 512, 768].contains offset → (mput (mget [] s.dimmIn (chanKey h c.val)) offset bytes).length < 4 →
    exec (.dimmDesc .i3c h c offset bytes) s = .next ((({ s with dimmIn := mput s.dimmIn (chanKey h c.val) (mput (mget [] s.dimmIn (chanKey h c.val)) offset bytes) }).mgmtReply .i3c 3 0 []).onQueue s)) ∧
  (∀ (h : Half) (c : Fin 8) (offset : Nat) (bytes : List Byte) (s : State),
    s.bound .i3c → bytes.length = 256 → [0, 256, 512, 768].contains offset → 4 ≤ (mput (mget [] s.dimmIn (chanKey h c.val)) offset bytes).length →
    exec (.dimmDesc .i3c h c offset bytes) s = .next ((if s.freeAhead 0 % 2 = 0 then ({ s.drawn 1 with dimmIn := mput s.dimmIn (chanKey h c.val) [(offset, bytes)] }).mgmtReply .i3c 3 0 []
    else ({ s.drawn 1 with dimmIn := merase s.dimmIn (chanKey h c.val) }).takeDimm h c ((mput (mget [] s.dimmIn (chanKey h c.val)) offset bytes).flatMap (fun (e : Nat × List Byte) => e.2))).onQueue s)) ∧
  (∀ (h : Half) (c : Fin 8) (offset : Nat) (bytes : List Byte) (s : State),
    s.bound .i3c → bytes.length ≠ 256 ∨ [0, 256, 512, 768].contains offset = false →
    exec (.dimmDesc .i3c h c offset bytes) s = .next ((s.mgmtReply .i3c 3 2 []).onQueue s)) ∧
  (∀ (b : Binding) (count : BitVec 8) (s : State),
    s.bound b → 1 ≤ count.toNat → count.toNat ≤ 8 →
    exec (.getEvents b count) s = .next (State.onQueue (
    let l := s.evq.take count.toNat
    let rest := s.evq.drop count.toNat
    ((({ s with evq := rest, pins := { s.pins with alert := !rest.isEmpty } }).setCc R.ctrlch.EVT_PEND_COUNT rest.length)).mgmtReply b 4 0
      (bytesOf 1 l.length ++ l.flatMap evtBytes)) s)) ∧
  (∀ (b : Binding) (eid : BitVec 8) (s : State),
    s.reached b → eid ≠ 0 → eid ≠ 0xFF →
    exec (.setEndpointId b eid) s = .next (((s.setCc (eidFld b) eid.toNat).emit (.mgmt b ([1, 0, 0, eid] ++ [0]))).onQueue s)) ∧
  (∀ (b : Binding) (eid : BitVec 8) (s : State),
    s.reached b → eid = 0 ∨ eid = 0xFF →
    exec (.setEndpointId b eid) s = .next (((s.err .ck 14 {}).emit (.mgmt b [1, 2])).onQueue s)) ∧
  (∀ (b : Binding) (s : State),
    s.bound b →
    exec (.mctpReassemblyTimeout b) s = .next ((s.err .ck 14 {}).onQueue s)) ∧
  (∀ (s : State),
    s.die 0 = .up →
    exec (.telemetryRefresh) s = .next (({ s.drawn 1 with telem := s.telemetry }).onQueue s)) ∧
  (∀ (bits : BitVec 8) (s : State),
    s.i3cUp →
    exec (.enec bits) s = .next (State.onQueue (
    let t := s.emit (.i3cAck true)
    { t with i3c := { t.i3c with events := t.i3c.events ||| (bits &&& 1).toNat } }) s)) ∧
  (∀ (bits : BitVec 8) (s : State),
    s.i3cUp →
    exec (.disec bits) s = .next (State.onQueue (
    let t := s.emit (.i3cAck true)
    { t with i3c := { t.i3c with events := t.i3c.events &&& (bits &&& 1 ^^^ 1).toNat } }) s)) ∧
  (∀ (s : State),
    s.i3cUp →
    exec (.rstdaa) s = .next (((s.emit (.i3cAck true)).setDa false 0).onQueue s)) ∧
  (∀ (da : BitVec 7) (s : State),
    s.i3cUp → s.hasDa = false →
    exec (.entdaa da) s = .next ((((s.emit (.i3cAck true)).emit (.i3c (pidBytes ++ [0x26, 0x00]))).setDa true da.toNat).onQueue s)) ∧
  (∀ (da : BitVec 7) (s : State),
    s.i3cUp → s.hasDa →
    exec (.entdaa da) s = .next ((s.emit (.i3cAck false)).onQueue s)) ∧
  (∀ (static da : BitVec 7) (s : State),
    s.i3cUp → s.hasDa = false → static = 0x4C →
    exec (.setdasa static da) s = .next (((s.emit (.i3cAck true)).setDa true da.toNat).onQueue s)) ∧
  (∀ (static da : BitVec 7) (s : State),
    s.i3cUp → s.hasDa = true ∨ static ≠ 0x4C →
    exec (.setdasa static da) s = .next ((s.emit (.i3cAck false)).onQueue s)) ∧
  (∀ (len : BitVec 16) (s : State),
    s.i3cUp →
    exec (.setmrl len) s = .next (State.onQueue (
    let t := s.emit (.i3cAck true)
    { t with i3c := { t.i3c with mrl := len.toNat } }) s)) ∧
  (∀ (len : BitVec 16) (s : State),
    s.i3cUp →
    exec (.setmwl len) s = .next (State.onQueue (
    let t := s.emit (.i3cAck true)
    { t with i3c := { t.i3c with mwl := len.toNat } }) s)) ∧
  (∀ (s : State),
    s.i3cUp → s.hasDa →
    exec (.getpid) s = .next ((((s.emit (.i3cAck true)).emit (.i3c (pidBytes)))).onQueue s)) ∧
  (∀ (s : State),
    s.i3cUp → s.hasDa →
    exec (.getbcr) s = .next ((((s.emit (.i3cAck true)).emit (.i3c ([0x26])))).onQueue s)) ∧
  (∀ (s : State),
    s.i3cUp → s.hasDa →
    exec (.getdcr) s = .next ((((s.emit (.i3cAck true)).emit (.i3c ([0x00])))).onQueue s)) ∧
  (∀ (s : State),
    s.i3cUp → s.hasDa →
    exec (.getstatus) s = .next ((((s.emit (.i3cAck true)).emit (.i3c (bytesOf 2 (s.freeAhead 0)))).drawn 1).onQueue s)) ∧
  (∀ (s : State),
    s.i3cUp → s.hasDa →
    exec (.getmrl) s = .next ((((s.emit (.i3cAck true)).emit (.i3c ((bytesOf 2 s.i3c.mrl).reverse ++ [1])))).onQueue s)) ∧
  (∀ (s : State),
    s.i3cUp → s.hasDa →
    exec (.getmwl) s = .next ((((s.emit (.i3cAck true)).emit (.i3c ((bytesOf 2 s.i3c.mwl).reverse)))).onQueue s)) ∧
  (∀ (s : State),
    s.i3cUp → s.hasDa →
    exec (.getmxds) s = .next ((((s.emit (.i3cAck true)).emit (.i3c ([0, BitVec.ofNat 8 (8 * (s.freeAhead 0 % 8))]))).drawn 1).onQueue s)) ∧
  (∀ (s : State),
    s.i3cUp → s.hasDa = false →
    exec (.getpid) s = .next (((s.emit (.i3cAck false))).onQueue s)) ∧
  (∀ (s : State),
    s.i3cUp → s.hasDa = false →
    exec (.getbcr) s = .next (((s.emit (.i3cAck false))).onQueue s)) ∧
  (∀ (s : State),
    s.i3cUp → s.hasDa = false →
    exec (.getdcr) s = .next (((s.emit (.i3cAck false))).onQueue s)) ∧
  (∀ (s : State),
    s.i3cUp → s.hasDa = false →
    exec (.getstatus) s = .next (((s.emit (.i3cAck false)).drawn 1).onQueue s)) ∧
  (∀ (s : State),
    s.i3cUp → s.hasDa = false →
    exec (.getmrl) s = .next (((s.emit (.i3cAck false))).onQueue s)) ∧
  (∀ (s : State),
    s.i3cUp → s.hasDa = false →
    exec (.getmwl) s = .next (((s.emit (.i3cAck false))).onQueue s)) ∧
  (∀ (s : State),
    s.i3cUp → s.hasDa = false →
    exec (.getmxds) s = .next (((s.emit (.i3cAck false)).drawn 1).onQueue s)) ∧
  (∀ (action : BitVec 8) (s : State),
    s.i3cUp → action = 1 →
    exec (.rstact action) s = .next (State.onQueue (
    let t := s.emit (.i3cAck true)
    let t := { t with dimmIn := [], spdm := merase t.spdm 2, i3c := { events := 0, mrl := 0, mwl := 0, hot := t.i3c.hot } }
    (t.setDa false 0).setCc R.ctrlch.MGMT_ADDR_EID_I3C 0) s)) ∧
  (∀ (action : BitVec 8) (s : State),
    s.i3cUp → action = 0 →
    exec (.rstact action) s = .next ((s.emit (.i3cAck true)).onQueue s)) ∧
  (∀ (action : BitVec 8) (s : State),
    s.i3cUp → 2 ≤ action.toNat →
    exec (.rstact action) s = .next ((s.emit (.i3cAck false)).onQueue s)) ∧
  (∀ (s : State),
    s.i3cUp → s.hasDa = false → s.i3c.hot = false →
    exec (.hotJoin) s = .next ((({ s with i3c := { s.i3c with hot := true } }).emit .hotJoin).onQueue s)) ∧
  (∀ (e : MgmtEvt) (t : List MgmtEvt) (s : State),
    s.evq = e :: t → s.i3cUp → s.ibiOn →
    exec (.ibiRepeat) s = .next ((s.emit (.ibi e.cls)).onQueue s))

/-- Accesses to BAR0: bad sizes, latched reads, writes by access code, block resets and locks. Rules: 00 R8, 00 R9, 00 R10, 01 R29, 01 R30, 01 R33, 09 R289, 09 R302, 09 R303, 09 R304, 13 R405. -/
def Obligations.RegisterAccesses : Prop :=
  (∀ (m : Master) (addr size : Nat) (s : State),
    badAccess addr size → s.reaches m →
    exec (.badSizeAccess m addr size false) s = .next ((s.emit (.readValue m addr 0xFFFFFFFF)).onQueue s)) ∧
  (∀ (m : Master) (addr size : Nat) (s : State),
    badAccess addr size → s.reaches m →
    exec (.badSizeAccess m addr size true) s = .next ((s).onQueue s)) ∧
  (∀ (m : Master) (addr : Nat) (p : Page) (s : State),
    lowWord addr → s.reaches m → pageOf addr = some p → s.answers p →
    exec (.latchedLowRead m ⟨addr, .low⟩) s = .next (State.onQueue (
    let t := { s with latch := mput s.latch (2 ^ 28 * masterId m + addr + 4) (s.view p (addr % 0x1000 + 4)) }
    (t.drawn 2).emit (.readValue m addr (s.view p (addr % 0x1000)).toNat)) s)) ∧
  (∀ (m : Master) (addr : Nat) (p : Page) (s : State),
    lowWord addr → s.reaches m → pageOf addr = some p → s.answers p → mhas s.latch (latchKey m addr) →
    exec (.latchedLowRead m ⟨addr, .high⟩) s = .next (State.onQueue (
    let t := { s with latch := merase s.latch (latchKey m addr) }
    t.emit (.readValue m (addr + 4) (mget (0 : Word) s.latch (latchKey m addr)).toNat)) s)) ∧
  (∀ (m : Master) (addr : Nat) (p : Page) (s : State),
    lowWord addr → s.reaches m → pageOf addr = some p → s.answers p → mhas s.latch (latchKey m addr) = false →
    exec (.latchedLowRead m ⟨addr, .high⟩) s = .next (((s.drawn 2).emit (.readValue m (addr + 4) (s.view p (addr % 0x1000 + 4)).toNat)).onQueue s)) ∧
  (∀ (m : Master) (addr : Nat) (p : Page) (s : State),
    lowWord addr → s.reaches m → pageOf addr = some p → s.answers p →
    exec (.latchedLowRead m ⟨addr, .wide⟩) s = .next (((s.drawn 2).emit (.readValue m addr ((s.view p (addr % 0x1000)).toNat + 2 ^ 32 * (s.view p (addr % 0x1000 + 4)).toNat))).onQueue s)) ∧
  (∀ (m : Master) (p : Page) (o : Nat) (value : BitVec 64) (s : State),
    s.reaches m → pageOf (pageBase p + o) = some p → (pageBase p + o) % 0x1000 = o → (pageBase p + o) % 4 = 0 → pageBase p + o < 0x800000 ∨ 0x808000 ≤ pageBase p + o → s.answers p → occupied p o → s.isSet p R.hdr.BLK_STS_RESET_BUSY = false → foreignPage m p = false → s.writeHeld p o = false → writeIgnored m p o (value.toNat % 2 ^ 32) = false →
    exec (.registerWrite m (pageBase p + o) false value) s = .next (((s.codeWrite p o (value.toNat % 2 ^ 32)).writeActs s p o (value.toNat % 2 ^ 32)).onQueue s)) ∧
  (∀ (m : Master) (p : Page) (o : Nat) (value : BitVec 64) (s : State),
    s.reaches m → pageOf (pageBase p + o) = some p → (pageBase p + o) % 0x1000 = o → (pageBase p + o) % 4 = 0 → pageBase p + o < 0x800000 ∨ 0x808000 ≤ pageBase p + o → s.answers p → occupied p o → 0x100 ≤ o → s.isSet p R.hdr.BLK_STS_RESET_BUSY →
    exec (.registerWrite m (pageBase p + o) false value) s = .next ((s.err p 0 { status := 1 }).onQueue s)) ∧
  (∀ (m : Master) (i : Fin 48) (o : Nat) (value : BitVec 64) (s : State),
    isHost m → 32 ≤ i.val → pageOf (pageBase (.mbx i) + o) = some (.mbx i) → (pageBase (.mbx i) + o) % 0x1000 = o → (pageBase (.mbx i) + o) % 4 = 0 → pageBase (.mbx i) + o < 0x800000 → s.answers (.mbx i) → occupied (.mbx i) o → s.isSet (.mbx i) R.hdr.BLK_STS_RESET_BUSY = false →
    exec (.registerWrite m (pageBase (.mbx i) + o) false value) s = .next ((s.mbxReject m i).onQueue s)) ∧
  (∀ (m : Master) (addr : Nat) (value : BitVec 64) (s : State),
    s.reaches m → addr % 8 = 0 →
    exec (.registerWrite m addr true value) s = .next (((s.barWrite m addr (value.toNat % 2 ^ 32)).barWrite m (addr + 4) (value.toNat / 2 ^ 32)).onQueue s)) ∧
  (∀ (m : Master) (addr : Nat) (wide : Bool) (value : BitVec 64) (s : State),
    s.reaches m → addr % (if wide then 8 else 4) ≠ 0 →
    exec (.registerWrite m addr wide value) s = .next ((s).onQueue s)) ∧
  (∀ (m : Master) (h : Half) (c : Fin 288) (s : State),
    s.reaches m →
    exec (.blockReset m (.cell h c)) s = .next ((cellReset m h c s).onQueue s)) ∧
  (∀ (m : Master) (h : Half) (b : Fin 16) (s : State),
    s.reaches m →
    exec (.blockReset m (.hinge h b)) s = .next ((hingeLinkReset m ⟨.hinge h b, []⟩ s).onQueue s)) ∧
  (∀ (m : Master) (h : Half) (k : Fin 32) (s : State),
    s.reaches m →
    exec (.blockReset m (.ucie h k)) s = .next ((hingeLinkReset m ⟨.ucie h k, []⟩ s).onQueue s)) ∧
  (∀ (m : Master) (h : Half) (o : Fin 8) (s : State),
    s.reaches m →
    exec (.blockReset m (.oe h o)) s = .next ((oeReset m h o s).onQueue s)) ∧
  (∀ (h : Half) (c : Fin 288) (s : State),
    s.answers (.cell h c) → s.isSet (.cell h c) R.hdr.BLK_STS_RESET_BUSY →
    exec (.blockResetDone (.cell h c)) s = .next ((((s.setF (.cell h c) R.hdr.BLK_STS_RESET_BUSY 0).cellState h c.val (s.cst h c.val)).freeLock (.cell h c)).onQueue s)) ∧
  (∀ (h : Half) (k : Fin 32) (s : State),
    s.answers (.ucie h k) → s.isSet (.ucie h k) R.hdr.BLK_STS_RESET_BUSY →
    exec (.blockResetDone (.ucie h k)) s = .next (State.onQueue (
    let t := (s.setF (.ucie h k) R.hdr.BLK_STS_RESET_BUSY 0).setReady (.ucie h k)
    (if t.isSet (.ucie h k) ucieEn then t.trainModule h k else t).freeLock (.ucie h k)) s)) ∧
  (∀ (h : Half) (b : Fin 16) (s : State),
    s.answers (.hinge h b) → s.isSet (.hinge h b) R.hdr.BLK_STS_RESET_BUSY →
    exec (.blockResetDone (.hinge h b)) s = .next ((((s.setF (.hinge h b) R.hdr.BLK_STS_RESET_BUSY 0).setReady (.hinge h b)).freeLock (.hinge h b)).onQueue s)) ∧
  (∀ (m : Master) (p : Page) (s : State),
    s.reaches m → s.answers p → s.getF p R.hdr.LOCK_OWNER = 0 →
    exec (.lockAcquire m p) s = .next (((s.setF p R.hdr.LOCK_OWNER (masterId m)).emit (.readValue m (pageBase p + 0x20) (masterId m))).onQueue s)) ∧
  (∀ (m : Master) (p : Page) (s : State),
    s.reaches m → s.answers p → s.getF p R.hdr.LOCK_OWNER ≠ 0 →
    exec (.lockAcquire m p) s = .next ((s.emit (.readValue m (pageBase p + 0x20) (s.getF p R.hdr.LOCK_OWNER))).onQueue s)) ∧
  (∀ (m : Master) (p : Page) (s : State),
    s.reaches m → s.answers p → s.getF p R.hdr.LOCK_OWNER = masterId m →
    exec (.lockRelease m p) s = .next ((s.setF p R.hdr.LOCK_OWNER 0).onQueue s)) ∧
  (∀ (m : Master) (p : Page) (s : State),
    s.reaches m → s.answers p → s.getF p R.hdr.LOCK_OWNER ≠ masterId m →
    exec (.lockRelease m p) s = .next ((s.err p 1).onQueue s))

/-- Doorbells, error injection, and the commands of the error rings. Rules: 01 R35, 01 R36, 14 R425, 14 R426, 14 R429, 14 R431, 14 R432, 09 R306, 06 R209. -/
def Obligations.DoorbellsAndInjection : Prop :=
  (∀ (m : Master) (p : Page) (bits : Word) (s : State),
    s.reaches m → s.answers p → occupied p 0x28 → foreignPage m p = false →
    exec (.doorbellSet m p bits) s = .next (State.onQueue (
    let t := s.orF p R.hdr.DB_STS_STS bits.toNat
    if bits.toNat &&& (t.getF p R.hdr.DB_MASK_MASK ^^^ 0xFFFFFFFF) ≠ 0 then t.bell p else t) s)) ∧
  (∀ (m : Master) (p : Page) (mask : Word) (s : State),
    s.reaches m → s.answers p → occupied p 0x2C → foreignPage m p = false →
    exec (.doorbellUnmask m p mask) s = .next (State.onQueue (
    let t := s.setF p R.hdr.DB_MASK_MASK mask.toNat
    if s.getF p R.hdr.DB_MASK_MASK &&& (mask.toNat ^^^ 0xFFFFFFFF) &&& t.getF p R.hdr.DB_STS_STS ≠ 0 then t.bell p else t) s)) ∧
  (∀ (m : Master) (p : Page) (value : Word) (s : State),
    s.reaches m → s.answers p → foreignPage m p = false → s.isSet .sec R.sec.SEC_CTL_INJ_DIS = false →
    exec (.errInjWrite m p value) s = .next ((s.setFs p [(R.hdr.ERR_INJ_ARM, bits value.toNat 31 31), (R.hdr.ERR_INJ_BIT, bits value.toNat 4 0)]).onQueue s)) ∧
  (∀ (m : Master) (p : Page) (value : Word) (s : State),
    s.reaches m → foreignPage m p = false → s.isSet .sec R.sec.SEC_CTL_INJ_DIS →
    exec (.errInjWrite m p value) s = .next ((s).onQueue s)) ∧
  (∀ (p : Page) (s : State),
    s.answers p → s.isSet p R.hdr.ERR_INJ_ARM → s.getF p R.hdr.ERR_INJ_BIT = 2 → (waitsForData p).contains 2 = false → bit (errBits p) 2 →
    exec (.injectionFire p) s = .next (((s.disarm p).setF p R.hdr.ERR_STS_INJECTED 1).onQueue s)) ∧
  (∀ (p : Page) (s : State),
    s.answers p → s.isSet p R.hdr.ERR_INJ_ARM → bit (errBits p) (s.getF p R.hdr.ERR_INJ_BIT) = false → (waitsForData p).contains (s.getF p R.hdr.ERR_INJ_BIT) = false →
    exec (.injectionFire p) s = .next ((s.disarm p).onQueue s)) ∧
  (∀ (h : Half) (s : State),
    s.answers (.clk h) → s.isSet (.clk h) R.hdr.ERR_INJ_ARM → s.getF (.clk h) R.hdr.ERR_INJ_BIT = 9 →
    exec (.injectionFire (.clk h)) s = .next ((((s.disarm (.clk h)).err (.clk h) 9 { inj := true }).drawn 1).onQueue s)) ∧
  (∀ (h : Half) (i : Fin 64) (s : State),
    s.answers (.oport h i) → s.isSet (.oport h i) R.hdr.ERR_INJ_ARM → s.getF (.oport h i) R.hdr.ERR_INJ_BIT = 8 →
    exec (.injectionFire (.oport h i)) s = .next (((s.disarm (.oport h i)).lightLost ⟨h, i⟩ true).onQueue s)) ∧
  (∀ (h : Half) (o : Fin 8) (s : State),
    s.answers (.laser h o) → s.isSet (.laser h o) R.hdr.ERR_INJ_ARM → s.getF (.laser h o) R.hdr.ERR_INJ_BIT = 8 →
    exec (.injectionFire (.laser h o)) s = .next (((s.disarm (.laser h o)).injectFade h o).onQueue s)) ∧
  (∀ (p : Page) (b : Fin 32) (s : State),
    exec (.coalesceWindowEnd p b) s = .next ((((s.endWindow p b.val 0).endWindow p b.val 1).endWindow p b.val 2).onQueue s)) ∧
  (∀ (h : Half) (s : State),
    s.halfUp h → s.ringOpen h →
    exec (.errorRingDrain h) s = .next (State.onQueue (
    let s := drainRing h (s.ring h).held.length s
    let lost := s.getF (.comb h) R.comb.ERR_RING_STS_LOST
    if lost ≠ 0 && (s.ring h).held.isEmpty && s.ringOpen h then
      (s.setF (.comb h) R.comb.ERR_RING_STS_LOST 0).fwRecord (.comb h) false { count := lost }
    else s) s)) ∧
  (∀ (m : Master) (h : Half) (value : Word) (s : State),
    s.reaches m → s.answers (.comb h) → s.isSet (.comb h) R.hdr.BLK_STS_RESET_BUSY = false → (value.toNat + 2 ^ 32 - s.getF (.comb h) R.comb.ERR_CONS_CONS) % 2 ^ 32 ≤ s.ringUsed h →
    exec (.errCons m h value) s = .next (((s.setF (.comb h) R.comb.ERR_CONS_CONS value.toNat).ringSts h).onQueue s)) ∧
  (∀ (m : Master) (h : Half) (value : Word) (s : State),
    s.reaches m → s.answers (.comb h) → s.isSet (.comb h) R.hdr.BLK_STS_RESET_BUSY = false → s.ringUsed h < (value.toNat + 2 ^ 32 - s.getF (.comb h) R.comb.ERR_CONS_CONS) % 2 ^ 32 →
    exec (.errCons m h value) s = .next ((s.setF (.comb h) R.comb.ERR_RING_STS_CFG_BAD 1).onQueue s)) ∧
  (∀ (m : Master) (h : Half) (value : Word) (s : State),
    s.reaches m → s.answers (.comb h) → s.isSet (.comb h) R.hdr.BLK_STS_RESET_BUSY = false → s.isSet (.comb h) R.comb.ERR_RING_CTL_ENABLE = false → bit value.toNat 31 = false →
    exec (.errRingCtl m h value) s = .next (((s.setF (.comb h) R.comb.ERR_RING_CTL_LOG2 (bits value.toNat 4 0)).ringSts h).onQueue s)) ∧
  (∀ (m : Master) (h : Half) (value : Word) (s : State),
    s.reaches m → s.answers (.comb h) → s.isSet (.comb h) R.hdr.BLK_STS_RESET_BUSY = false → s.isSet (.comb h) R.comb.ERR_RING_CTL_ENABLE = false → bit value.toNat 31 →
    exec (.errRingCtl m h value) s = .next (State.onQueue (
    let t := (s.setF (.comb h) R.comb.ERR_RING_CTL_LOG2 (bits value.toNat 4 0)).ringSts h
    if t.ringOk h (bits value.toNat 4 0) then t.setF (.comb h) R.comb.ERR_RING_CTL_ENABLE 1 else t.setF (.comb h) R.comb.ERR_RING_STS_CFG_BAD 1) s)) ∧
  (∀ (m : Master) (h : Half) (value : Word) (s : State),
    s.reaches m → s.answers (.comb h) → s.isSet (.comb h) R.hdr.BLK_STS_RESET_BUSY = false → s.isSet (.comb h) R.comb.ERR_RING_CTL_ENABLE → bits value.toNat 4 0 ≠ s.getF (.comb h) R.comb.ERR_RING_CTL_LOG2 →
    exec (.errRingCtl m h value) s = .next ((s.err (.comb h) 0 { status := 1 }).onQueue s))

/-- Mailboxes: slots, sends, acknowledgements, rejected writes, and the answer to each runtime command. Rules: 09 R305, 09 R306, 09 R307, 09 R308, 09 R309, 09 R310, 09 R311, 09 R315, 09 Table 9.7, 09 Table 9.8, 04 Table 4.3, 04 R117. -/
def Obligations.MailboxCommands : Prop :=
  (∀ (m : Master) (i : Fin 48) (s : State),
    s.reaches m → s.answers (mbxPage i) → i.val < 32 → s.isSet (mbxPage i) R.mbx.MBX_STS_IN_FULL = false →
    exec (.mbxSend m i) s = .next ((((s.setF (mbxPage i) R.mbx.MBX_STS_IN_FULL 1).fbell i 1).unknownIn i).onQueue s)) ∧
  (∀ (m : Master) (i : Fin 48) (s : State),
    s.reaches m → s.answers (mbxPage i) → State.foreign m i = false → s.isSet (mbxPage i) R.mbx.MBX_STS_IN_FULL →
    exec (.mbxSend m i) s = .next (((s.err (mbxPage i) 8 {}).mbxReject m i).onQueue s)) ∧
  (∀ (m : Master) (i : Fin 48) (s : State),
    s.reaches m → s.answers (mbxPage i) → State.foreign m i →
    exec (.mbxSend m i) s = .next ((s.mbxReject m i).onQueue s)) ∧
  (∀ (m : Master) (i : Fin 48) (s : State),
    s.reaches m → s.answers (mbxPage i) → 32 ≤ i.val → isHost m = false → s.isSet (mbxPage i) R.mbx.MBX_STS_IN_FULL = false → s.answers (.seq (if i.val < 40 then .A else .B)) →
    exec (.mbxSend m i) s = .next (((((s.setF (mbxPage i) R.mbx.MBX_STS_IN_FULL 1).fbell i 1).pushBell (.seq (if i.val < 40 then .A else .B)) (2 ^ (i.val % 8))).unknownIn i).onQueue s)) ∧
  (∀ (m : Master) (i : Fin 48) (s : State),
    s.reaches m → s.answers (mbxPage i) → State.foreign m i = false → s.isSet (mbxPage i) R.mbx.MBX_STS_OUT_FULL →
    exec (.mbxAck m i) s = .next (((((s.setF (mbxPage i) R.mbx.MBX_STS_OUT_FULL 0).fbell i 2).fwNext i).unknownIn i).onQueue s)) ∧
  (∀ (m : Master) (i : Fin 48) (s : State),
    s.reaches m → s.answers (mbxPage i) → State.foreign m i = false → s.isSet (mbxPage i) R.mbx.MBX_STS_OUT_FULL = false →
    exec (.mbxAck m i) s = .next ((s.err (mbxPage i) 0 { status := 1 }).onQueue s)) ∧
  (∀ (m : Master) (i : Fin 48) (s : State),
    s.reaches m → s.answers (mbxPage i) → isHost m = false → s.isSet (mbxPage i) R.mbx.MBX_STS_OUT_FULL = false →
    exec (.mbxRsend m i) s = .next (((s.setF (mbxPage i) R.mbx.MBX_STS_OUT_FULL 1).pushBell (mbxPage i) 1).onQueue s)) ∧
  (∀ (m : Master) (i : Fin 48) (s : State),
    s.reaches m → s.answers (mbxPage i) → isHost m = false → s.isSet (mbxPage i) R.mbx.MBX_STS_OUT_FULL →
    exec (.mbxRsend m i) s = .next (((s.err (mbxPage i) 9 {}).mbxReject m i).onQueue s)) ∧
  (∀ (m : Master) (i : Fin 48) (s : State),
    s.reaches m → s.answers (mbxPage i) → isHost m = false → s.isSet (mbxPage i) R.mbx.MBX_STS_IN_FULL →
    exec (.mbxRack m i) s = .next (((s.setF (mbxPage i) R.mbx.MBX_STS_IN_FULL 0).pushBell (mbxPage i) 2).onQueue s)) ∧
  (∀ (m : Master) (i : Fin 48) (s : State),
    s.reaches m → s.answers (mbxPage i) → isHost m →
    exec (.mbxRack m i) s = .next ((s.mbxReject m i).onQueue s)) ∧
  (∀ (m : Master) (i : Fin 48) (word : Fin 64) (value : Word) (s : State),
    s.reaches m → s.answers (mbxPage i) → State.foreign m i = false → s.armed (mbxPage i) 8 = false → s.isSet (mbxPage i) R.mbx.MBX_STS_IN_FULL = false →
    exec (.inSlotWrite m i word value) s = .next ((s.setF (mbxPage i) (R.mbx.IN_SLOT_DATA.ix word.val) value.toNat).onQueue s)) ∧
  (∀ (m : Master) (i : Fin 48) (word : Fin 64) (value : Word) (s : State),
    s.reaches m → s.answers (mbxPage i) → State.foreign m i = false → s.armed (mbxPage i) 8 = false → s.isSet (mbxPage i) R.mbx.MBX_STS_IN_FULL →
    exec (.inSlotWrite m i word value) s = .next (((s.err (mbxPage i) 8 {}).mbxReject m i).onQueue s)) ∧
  (∀ (m : Master) (i : Fin 48) (word : Fin 64) (value : Word) (s : State),
    s.reaches m → s.answers (mbxPage i) → isHost m = false → s.isSet (mbxPage i) R.mbx.MBX_STS_OUT_FULL = false →
    exec (.outSlotWrite m i word value) s = .next ((s.setF (mbxPage i) (R.mbx.OUT_SLOT_DATA.ix word.val) value.toNat).onQueue s)) ∧
  (∀ (m : Master) (i : Fin 48) (bits : Word) (s : State),
    s.reaches m → s.answers (mbxPage i) → State.foreign m i = false →
    exec (.fdbSet m i bits) s = .next (State.onQueue (
    let t := s.orF (mbxPage i) R.mbx.FDB_STS_STS bits.toNat
    if bits.toNat &&& (t.getF (mbxPage i) R.mbx.FDB_MASK_MASK ^^^ 0xFFFFFFFF) ≠ 0 then t.emit (.irq (mbxPage i)) else t) s)) ∧
  (∀ (i : Fin 32) (s : State),
    let j : Fin 48 := Fin.ofNat 48 i.val
    let b := s.inMsg j
    s.answers (mbxPage j) → s.isSet (mbxPage j) R.mbx.MBX_STS_IN_FULL → msgOp b = 1 → (s.waitingOut j).length < 8 → s.halted = false → msgRsvd b = 0 → msgLen b = 0 →
    exec (.getInfo i) s = .next (State.onQueue (
    let ver := match s.sec.running.find? (fun e => e.1 = .keeper) with
      | some e => e.2.version.toNat
      | none => 0
    s.fwReply j b 0 (bytesOf 4 (s.readReg .keeper 0x100).toNat ++ bytesOf 2 s.ownFid ++ bytesOf 8 Config.uid.toNat ++ bytesOf 4 ver ++
      bytesOf 1 (halfNo s.leader) ++ bytesOf 1 s.hostRoles)) s)) ∧
  (∀ (i : Fin 32) (s : State),
    let j : Fin 48 := Fin.ofNat 48 i.val
    let b := s.inMsg j
    s.answers (mbxPage j) → s.isSet (mbxPage j) R.mbx.MBX_STS_IN_FULL → msgOp b = 2 → (s.waitingOut j).length < 8 → s.halted = false → msgRsvd b = 0 → msgLen b = 0 →
    exec (.getNuma i) s = .next ((s.fwReply j b 0 (s.numa.flatMap (bytesOf 1))).onQueue s)) ∧
  (∀ (i : Fin 32) (s : State),
    let j : Fin 48 := Fin.ofNat 48 i.val
    let b := s.inMsg j
    s.answers (mbxPage j) → s.isSet (mbxPage j) R.mbx.MBX_STS_IN_FULL → msgOp b = 3 → (s.waitingOut j).length < 8 → s.halted = false → i.val < 4 → msgRsvd b = 0 → 1 ≤ natOf ((msgBody b).take 2) → natOf ((msgBody b).take 2) ≤ 41 → msgLen b = 2 + 6 * natOf ((msgBody b).take 2) →
    exec (.xtWrite i) s = .next (State.onQueue (
    let t := foldOver (List.range (natOf ((msgBody b).take 2))) (fun k (t : State) =>
      let e := ((msgBody b).drop (2 + 6 * k)).take 6
      t.setTransit (natOf (e.take 2)) ((e.drop 2).map (·.toNat))) s
    t.settle.fwReply j b 0 []) s)) ∧
  (∀ (i : Fin 32) (s : State),
    let j : Fin 48 := Fin.ofNat 48 i.val
    let b := s.inMsg j
    s.answers (mbxPage j) → s.isSet (mbxPage j) R.mbx.MBX_STS_IN_FULL → msgOp b = 4 → (s.waitingOut j).length < 8 → s.halted = false → msgRsvd b = 0 → msgLen b = 2 →
    exec (.xtRead i) s = .next ((s.fwReply j b 0 (padTo 4 ((mget [] s.transit (natOf ((msgBody b).take 2))).map (BitVec.ofNat 8)))).onQueue s)) ∧
  (∀ (i : Fin 32) (s : State),
    let j : Fin 48 := Fin.ofNat 48 i.val
    let b := s.inMsg j
    s.answers (mbxPage j) → s.isSet (mbxPage j) R.mbx.MBX_STS_IN_FULL → msgOp b = 6 → (s.waitingOut j).length < 8 → s.halted = false → msgRsvd b = 0 → msgLen b = 2 →
    exec (.noteAck i) s = .next ((s.fwReply j b 0 []).onQueue s)) ∧
  (∀ (i : Fin 32) (s : State),
    let j : Fin 48 := Fin.ofNat 48 i.val
    s.answers (mbxPage j) → s.isSet (mbxPage j) R.mbx.MBX_STS_IN_FULL → msgOp (s.inMsg j) = 1 → (s.waitingOut j).length < 8 → s.halted →
    exec (.getInfo i) s = .next ((s.fwReply j (s.inMsg j) 1 []).onQueue s)) ∧
  (∀ (i : Fin 32) (s : State),
    let j : Fin 48 := Fin.ofNat 48 i.val
    s.answers (mbxPage j) → s.isSet (mbxPage j) R.mbx.MBX_STS_IN_FULL → msgOp (s.inMsg j) = 3 → (s.waitingOut j).length < 8 → s.halted = false → 4 ≤ i.val →
    exec (.xtWrite i) s = .next ((s.fwReply j (s.inMsg j) 3 []).onQueue s))

/-- Completion of a unit's oldest instruction, scrub, retirement, swap and reset of a cell. Rules: 02 R39, 02 R66, 02 R75, 02 R76, 02 R77, 02 R78, 02 R80, 02 Table 2.15, 02 Table 2.17, 01 R33. -/
def Obligations.CellControlCommands : Prop :=
  (∀ (h : Half) (c : Fin 288) (u : CUnit) (e : InFl) (t : List InFl) (s : State),
    unitQ (s.cell h c.val) u = e :: t → s.answers (cellPage h c.val) → s.holds (e.spans ++ e.stores.map (fun p => (p.1, p.2.length))) = false → (e.load && s.armed (cellPage h c.val) 13) = false →
    exec (.instructionComplete h c u) s = .next (State.onQueue (
    let p := cellPage h c.val
    let cs := e.lines.foldl (fun cs l => mset (0 : Line) cs l.1 l.2) (s.cell h c.val).cs
    let s := s.setCell h c.val (setUnitQ { s.cell h c.val with cs := cs } u t)
    let s := e.stores.foldl (fun (s : State) p => s.memWrite h .cell e.hint p.1 p.2) s
    let s := match e.tok with
      | some t => s.setF p R.cell.TOKENS_DONE (s.getF p R.cell.TOKENS_DONE ||| 2 ^ t)
      | none => s
    let s := if e.passes = 0 then s
      else s.set64 p R.cell.PASSES_LO R.cell.PASSES_HI (s.get64 p R.cell.PASSES_LO R.cell.PASSES_HI + e.passes)
    s.showBusy h c.val) s)) ∧
  (∀ (h : Half) (c : Fin 288) (u : CUnit) (e : InFl) (t : List InFl) (s : State),
    unitQ (s.cell h c.val) u = e :: t → s.answers (cellPage h c.val) → s.holds (e.spans ++ e.stores.map (fun p => (p.1, p.2.length))) = false → e.load → s.armed (cellPage h c.val) 13 →
    exec (.instructionComplete h c u) s = .next (((s.disarm (cellPage h c.val)).progError h c.val 0xA e.pc true).onQueue s)) ∧
  (∀ (h : Half) (c : Fin 288) (line : Fin 65536) (u : Upset) (s : State),
    s.answers (cellPage h c.val) → 2 ≤ s.cst h c.val → s.cst h c.val ≤ 4 →
    exec (.cellStoreScrub h c line u) s = .next ((match u with
    | .none | .tag => s
    | .corrected => s.err (cellPage h c.val) 9
    | .uncorrectable => s.progError h c.val 0xC (s.getF (cellPage h c.val) R.cell.PC)).onQueue s)) ∧
  (∀ (m : Master) (h : Half) (c : Fin 288) (s : State),
    s.reaches m → s.answers (cellPage h c.val) → s.cst h c.val ≤ 1 →
    exec (.retireReq m h c) s = .next ((s.retireCell h c.val).onQueue s)) ∧
  (∀ (m : Master) (h : Half) (c : Fin 288) (s : State),
    s.reaches m → s.answers (cellPage h c.val) → s.cst h c.val = 5 →
    exec (.retireReq m h c) s = .next ((s.err (cellPage h c.val) 0 { status := 1 }).onQueue s)) ∧
  (∀ (m : Master) (h : Half) (c : Fin 288) (s : State),
    s.reaches m → s.answers (cellPage h c.val) → 2 ≤ s.cst h c.val → s.cst h c.val ≤ 4 →
    exec (.retireReq m h c) s = .next ((if (s.cell h c.val).ctx.isNone then (s.setCell h c.val { s.cell h c.val with retire := true }).queueSwap h c.val
    else s.setCell h c.val { s.cell h c.val with retire := true }).onQueue s)) ∧
  (∀ (h : Half) (c : Fin 288) (bistFail : List (Fin 288)) (s : State),
    s.answers (cellPage h c.val) → (s.cell h c.val).swap = true ∨ (s.cell h c.val).retire = true → s.swapDue h c.val → s.cst h c.val ≠ 5 → s.isSet (cellPage h c.val) R.hdr.BLK_STS_RESET_BUSY = false →
    exec (.swapStart h c bistFail) s = .next (State.onQueue (
    let t := (s.fence (cellPage h c.val)).retireCell h c.val
    if s.isSet (cellPage h c.val) R.cell.CELL_ID_MAPPED then t.trySpares h (s.logicalId h c.val) (bistFail.map (·.val)) (s.spares h (c.val / 72)) else t) s)) ∧
  (∀ (m : Master) (h : Half) (c : Fin 288) (s : State),
    s.reaches m → s.answers (cellPage h c.val) → s.isSet (cellPage h c.val) R.hdr.BLK_STS_RESET_BUSY = false →
    exec (.cellReset m h c) s = .next ((s.resetCell h c.val).onQueue s)) ∧
  (∀ (m : Master) (h : Half) (c : Fin 288) (s : State),
    s.reaches m → s.answers (cellPage h c.val) → s.isSet (cellPage h c.val) R.hdr.BLK_STS_RESET_BUSY →
    exec (.cellReset m h c) s = .next ((s.err (cellPage h c.val) 0 { status := 1 }).onQueue s))

/-- The doorbell, the queue commands and what ends PAUSING and DRAINING. Rules: 03 R81, 03 R83, 03 R84, 03 R90, 03 R101, 03 R102, 03 R103, 03 Table 3.13, 03 Table 3.14, 03 Table 3.16. -/
def Obligations.QueueCommands : Prop :=
  (∀ (m : Master) (r : QRef) (value : Word) (s : State),
    s.reaches m → s.answers (.seq r.half) → [qACTIVE, qPAUSING, qPAUSED, qHALTED].contains (s.queue r.half r.q.val).st → value.toNat % 65536 < 2 ^ (s.queue r.half r.q.val).ctx.dlog →
    exec (.queueDoorbell m r value) s = .next ((s.setQueue r.half r.q.val { s.queue r.half r.q.val with tail := value.toNat % 65536 }).onQueue s)) ∧
  (∀ (m : Master) (r : QRef) (value : Word) (s : State),
    s.reaches m → s.answers (.seq r.half) → [qACTIVE, qPAUSING, qPAUSED, qHALTED].contains (s.queue r.half r.q.val).st → 2 ^ (s.queue r.half r.q.val).ctx.dlog ≤ value.toNat % 65536 →
    exec (.queueDoorbell m r value) s = .next ((s.err (.seq r.half) 10).onQueue s)) ∧
  (∀ (m : Master) (r : QRef) (value : Word) (s : State),
    s.reaches m → s.answers (.seq r.half) → [qDISABLED, qDRAINING].contains (s.queue r.half r.q.val).st →
    exec (.queueDoorbell m r value) s = .next ((s.err (.seq r.half) 0 { status := 1 }).onQueue s)) ∧
  (∀ (m : Master) (r : QRef) (p : Nat) (s : State),
    let e := s.memRead r.half .dma 0 (s.qctBase r.half + 64 * r.q.val) 64
    s.reaches m → s.answers (.seq r.half) → s.cmdBusy r.half = false → s.seqState r.half ≠ 0 → s.seqState r.half ≠ 4 → (s.queue r.half r.q.val).st = 0 → s.partOfQ r.half r.q.val = some p → e.2.1 = 0 → e.1.qctOk r.half p (natOf e.2.2) →
    exec (.enable m r) s = .next ((((e.1.setQueue r.half r.q.val { qInit with st := qACTIVE, ctx := qctOf (natOf e.2.2) }).showQ r.half r.q.val).cmdSts r.half r.q.val 0).onQueue s)) ∧
  (∀ (m : Master) (r : QRef) (p : Nat) (s : State),
    let e := s.memRead r.half .dma 0 (s.qctBase r.half + 64 * r.q.val) 64
    s.reaches m → s.answers (.seq r.half) → s.cmdBusy r.half = false → s.seqState r.half ≠ 0 → s.seqState r.half ≠ 4 → (s.queue r.half r.q.val).st = 0 → s.partOfQ r.half r.q.val = some p → e.1.qctOk r.half p (natOf e.2.2) = false →
    exec (.enable m r) s = .next (((e.1.err (.seq r.half) 11 { status := 2, parts := 2 ^ p }).cmdSts r.half r.q.val 2).onQueue s)) ∧
  (∀ (m : Master) (r : QRef) (s : State),
    s.reaches m → s.answers (.seq r.half) → s.cmdBusy r.half = false → s.seqState r.half ≠ 0 → s.seqState r.half ≠ 4 → [qACTIVE].contains (s.queue r.half r.q.val).st →
    exec (.pause m r) s = .next (((s.qState r.half r.q.val qPAUSING).cmdSts r.half r.q.val 0).onQueue s)) ∧
  (∀ (m : Master) (r : QRef) (s : State),
    s.reaches m → s.answers (.seq r.half) → s.cmdBusy r.half = false → s.seqState r.half ≠ 0 → s.seqState r.half ≠ 4 → [qPAUSING, qPAUSED, qHALTED].contains (s.queue r.half r.q.val).st →
    exec (.resume m r) s = .next ((((s.setQueue r.half r.q.val { s.queue r.half r.q.val with haltDue := false }).qState r.half r.q.val qACTIVE).cmdSts r.half r.q.val 0).onQueue s)) ∧
  (∀ (m : Master) (r : QRef) (s : State),
    s.reaches m → s.answers (.seq r.half) → s.cmdBusy r.half = false → s.seqState r.half ≠ 0 → s.seqState r.half ≠ 4 → [qACTIVE, qPAUSED, qHALTED].contains (s.queue r.half r.q.val).st →
    exec (.drain m r) s = .next (((s.qState r.half r.q.val qDRAINING).cmdSts r.half r.q.val 0).onQueue s)) ∧
  (∀ (m : Master) (r : QRef) (s : State),
    s.reaches m → s.answers (.seq r.half) → s.cmdBusy r.half = false → s.seqState r.half ≠ 0 → s.seqState r.half ≠ 4 → [qPAUSED, qHALTED].contains (s.queue r.half r.q.val).st → (s.queue r.half r.q.val).fly = [] →
    exec (.disable m r) s = .next (((s.disableQ r.half r.q.val).cmdSts r.half r.q.val 0).onQueue s)) ∧
  (∀ (m : Master) (r : QRef) (s : State),
    s.reaches m → s.answers (.seq r.half) → s.cmdBusy r.half = false → s.seqState r.half ≠ 0 → s.seqState r.half ≠ 4 → [qDISABLED, qACTIVE, qPAUSING, qPAUSED, qDRAINING, qHALTED].contains (s.queue r.half r.q.val).st →
    exec (.queueReset m r) s = .next (((s.resetQueue r.half r.q.val 9).cmdSts r.half r.q.val 0).onQueue s)) ∧
  (∀ (m : Master) (r : QRef) (s : State),
    s.reaches m → s.answers (.seq r.half) → s.cmdBusy r.half = false → (s.queue r.half r.q.val).st ≠ qACTIVE →
    exec (.pause m r) s = .next (((s.err (.seq r.half) 0 { status := 1 }).cmdSts r.half r.q.val 1).onQueue s)) ∧
  (∀ (m : Master) (r : QRef) (op : BitVec 4) (s : State),
    s.reaches m → s.answers (.seq r.half) → s.cmdBusy r.half = false → s.seqState r.half ≠ 0 → s.seqState r.half ≠ 4 → op.toNat = 0 ∨ 7 ≤ op.toNat →
    exec (.qCmdBad m r op) s = .next (((s.err (.seq r.half) 9 { status := 2 }).cmdSts r.half r.q.val 2).onQueue s)) ∧
  (∀ (r : QRef) (s : State),
    s.answers (.seq r.half) → (s.queue r.half r.q.val).st = qPAUSING → (s.queue r.half r.q.val).fly = [] →
    exec (.queuePaused r) s = .next ((s.qState r.half r.q.val qPAUSED).onQueue s)) ∧
  (∀ (r : QRef) (s : State),
    s.answers (.seq r.half) → (s.queue r.half r.q.val).st = qDRAINING → (s.queue r.half r.q.val).fly = [] → (s.queue r.half r.q.val).next = (s.queue r.half r.q.val).tail →
    exec (.queueDrained r) s = .next ((s.disableQ r.half r.q.val).onQueue s)) ∧
  (∀ (r : QRef) (s : State),
    s.answers (.seq r.half) → s.seqState r.half = 1 → s.ready r.half r.q.val →
    exec (.priorityAging r) s = .next (((s.drawn 1).setQueue r.half r.q.val { s.queue r.half r.q.val with aged := true }).onQueue s)) ∧
  (∀ (m : Master) (h : Half) (high : Bool) (value : Word) (s : State),
    s.reaches m → s.answers (.seq h) → (s.listedQ h).all (fun q => (s.queue h q).st = 0) →
    exec (.qctBaseWrite m h high value) s = .next ((if high then s.setF (.seq h) R.seq.QCT_BASE_HI_ADDR (bits value.toNat 19 0)     else s.setF (.seq h) R.seq.QCT_BASE_LO_ADDR (bits value.toNat 31 12)).onQueue s))

/-- The sequencer's states, semaphores, and the commands of a partition. Rules: 03 R93, 03 R94, 03 R104, 03 R105, 03 R106, 03 R107, 03 Table 3.15. -/
def Obligations.SequencerAndPartitions : Prop :=
  (∀ (m : Master) (h : Half) (s : State),
    s.reaches m → s.answers (.seq h) → s.seqState h = 1 →
    exec (.seqQuiesce m h) s = .next (((s.setF (.seq h) R.seq.BLK_STS_STATE 2).setF (.seq h) R.seq.BLK_CTL_EN 0).onQueue s)) ∧
  (∀ (m : Master) (h : Half) (s : State),
    s.reaches m → s.answers (.seq h) → s.seqState h ≠ 1 →
    exec (.seqQuiesce m h) s = .next ((s.err (.seq h) 0 { status := 1 }).onQueue s)) ∧
  (∀ (m : Master) (h : Half) (s : State),
    s.reaches m → s.answers (.seq h) → s.seqState h = 2 ∨ s.seqState h = 3 →
    exec (.seqRun m h) s = .next (((s.setF (.seq h) R.seq.BLK_STS_STATE 1).setF (.seq h) R.seq.BLK_CTL_EN 1).onQueue s)) ∧
  (∀ (m : Master) (h : Half) (s : State),
    s.reaches m → s.answers (.seq h) → s.seqState h ≠ 2 → s.seqState h ≠ 3 →
    exec (.seqRun m h) s = .next ((s.err (.seq h) 0 { status := 1 }).onQueue s)) ∧
  (∀ (h : Half) (s : State),
    s.answers (.seq h) → s.seqState h = 2 → s.quiet h →
    exec (.seqQuiesced h) s = .next ((s.setF (.seq h) R.seq.BLK_STS_STATE 3).onQueue s)) ∧
  (∀ (m : Master) (h : Half) (value : Word) (s : State),
    s.reaches m → s.answers (.seq h) →
    exec (.semAdd m h value) s = .next ((s.addSem (s.getF (.seq h) R.seq.SEM_SEL_INDEX) value.toNat).onQueue s)) ∧
  (∀ (m : Master) (h : Half) (value : Word) (s : State),
    s.reaches m → s.answers (.seq h) →
    exec (.semVal m h value) s = .next ((s.setSem (s.getF (.seq h) R.seq.SEM_SEL_INDEX) value.toNat).onQueue s)) ∧
  (∀ (m : Master) (h : Half) (p : Fin 8) (s : State),
    s.reaches m → s.answers (.seq h) → s.partState h p.val = 1 →
    exec (.terminate m h p) s = .next ((s.terminatePart p.val (if m = .cc then 0xE else 9)).onQueue s)) ∧
  (∀ (m : Master) (h : Half) (p : Fin 8) (s : State),
    s.reaches m → s.answers (.seq h) → s.partState h p.val ≠ 1 →
    exec (.terminate m h p) s = .next ((s.err (.seq h) 0 { status := 1 }).onQueue s)) ∧
  (∀ (m : Master) (h : Half) (p : Fin 8) (s : State),
    s.reaches m → s.answers (.seq h) → s.partState h p.val = 3 →
    exec (.restart m h p) s = .next (State.onQueue (
    let zero := fun (hh : Half) (s : State) =>
      foldOver (List.range 256) (fun l (s : State) =>
        if s.cellIn hh p.val l then
          match s.physOf hh l with
          | some c => s.setCell hh c { s.cell hh c with cs := [] }
          | none => s
        else s) s
    (zero .B (zero .A s)).setPart p.val 1) s))

/-- Each descriptor that passes its checks goes in flight and acts; one whose read fails, or whose checks fail, completes without effect. Rules: 03 R85, 03 R86, 03 R88, 03 R89, 03 R93, 03 R95, 03 R96, 03 R97, 03 Table 3.3, 03 Table 3.4, 08 R262, 09 R292. -/
def Obligations.DescriptorDispatch : Prop :=
  (∀ (r : QRef) (hr : HostRead) (s : State),
    dispatches dKERNEL r hr s →
    exec (.kernel r hr) s = .next ((dispatched r hr s).onQueue s)) ∧
  (∀ (r : QRef) (hr : HostRead) (s : State),
    dispatches dCOPY r hr s → bits (descNow r hr s).raw 401 400 = 0 → bits (descNow r hr s).raw 403 402 ≠ 3 →
    exec (.copy r hr) s = .next (State.onQueue (
    let d := descNow r hr s
    let t := dispatched r hr s
    let o := (List.range (bits d.raw 311 288 + 1)).foldl (fun acc k => State.copyRow r.half r.q.val d.raw t.fresh k acc) (t.drawn 1, 0, 0)
    o.1.updDesc r.half r.q.val d.slot (·.finish o.2.1 0 o.2.2)) s)) ∧
  (∀ (r : QRef) (hr : HostRead) (s : State),
    dispatches dCOPY r hr s → bits (descNow r hr s).raw 401 400 = 3 ∨ bits (descNow r hr s).raw 403 402 = 3 →
    exec (.copy r hr) s = .next (State.onQueue (
    let d := descNow r hr s
    let t := dispatched r hr s
    let c : RCopy :=
      { half := r.half, q := r.q.val, slot := d.slot, part := (t.partOfQ r.half r.q.val).getD 0, raw := d.raw, todo := remoteMsgs d.raw, bytes := 0,
        fail := none, out := 0 }
    ({ t with rcopies := t.rcopies ++ [c] }).settle) s)) ∧
  (∀ (r : QRef) (hr : HostRead) (s : State),
    dispatches dCOPY r hr s → bits (descNow r hr s).raw 401 400 = 1 ∨ bits (descNow r hr s).raw 401 400 = 2 → bits (descNow r hr s).raw 403 402 ≠ 3 → ((dispatched r hr s).carrier (spaceFn (bits (descNow r hr s).raw 401 400))).isSome →
    exec (.copy r hr) s = .next (State.onQueue (
    let d := descNow r hr s
    foldOver (List.range (bits d.raw 311 288 + 1)) (fun k (t : State) =>
      t.hostRead r.half r.q.val d.slot (spaceFn (bits d.raw 401 400)) (bits d.raw 191 128 + k * bits d.raw 359 320) (bits d.raw 287 256) (bits d.raw 403 402)
        (bits d.raw 255 192 + k * bits d.raw 399 360)) (dispatched r hr s)) s)) ∧
  (∀ (r : QRef) (hr : HostRead) (s : State),
    dispatches dFILL r hr s →
    exec (.fill r hr) s = .next (State.onQueue (
    let d := descNow r hr s
    ((dispatched r hr s).writeSpace r.half r.q.val (bits d.raw 233 232) 0 (bits d.raw 191 128)
      (fillBytes (bytesOf (2 ^ bits d.raw 235 234) (bits d.raw 319 256)) (bits d.raw 231 192))).updDesc r.half r.q.val d.slot
      (·.finish 0 0 (bits d.raw 231 192))) s)) ∧
  (∀ (r : QRef) (hr : HostRead) (s : State),
    dispatches dFENCE r hr s →
    exec (.fence r hr) s = .next (State.onQueue (
    let d := descNow r hr s
    let t := dispatched r hr s
    let x := t.queue r.half r.q.val
    if bits d.raw 129 128 = 3 then
      (t.setQueue r.half r.q.val { x with bad11 := [] }).updDesc r.half r.q.val d.slot (·.finish (worst11 x.bad11).1 (worst11 x.bad11).2 0)
    else t.updDesc r.half r.q.val d.slot (·.finish 0 0 0)) s)) ∧
  (∀ (r : QRef) (hr : HostRead) (s : State),
    dispatches dSIGNAL r hr s →
    exec (.signal r hr) s = .next (State.onQueue (
    let d := descNow r hr s
    ((dispatched r hr s).updDesc r.half r.q.val d.slot (·.finish 0 0 0)).addSem (bits d.raw 143 128) (bits d.raw 175 144)) s)) ∧
  (∀ (r : QRef) (hr : HostRead) (s : State),
    dispatches dWAIT r hr s →
    exec (.wait r hr) s = .next (State.onQueue (
    let d := descNow r hr s
    let t := dispatched r hr s
    t.updDesc r.half r.q.val d.slot (wakeDesc (bits d.raw 143 128) (t.sem (bits d.raw 143 128)))) s)) ∧
  (∀ (r : QRef) (hr : HostRead) (s : State),
    dispatches dEVENT r hr s →
    exec (.event r hr) s = .next (State.onQueue (
    let d := descNow r hr s
    (dispatched r hr s).updDesc r.half r.q.val d.slot (·.finish 0 0 (bits d.raw 191 128))) s)) ∧
  (∀ (r : QRef) (hr : HostRead) (c : Nat) (s : State),
    let d := descRead r hr s
    s.answers (.seq r.half) → s.seqState r.half = 1 → s.draining = false → (s.queue r.half r.q.val).canTake → ((s.queue r.half r.q.val).ctx.dsp = 0 && s.holds [((s.queue r.half r.q.val).ctx.dring + 128 * (s.queue r.half r.q.val).next, 128)]) = false → s.armed (.seq r.half) 12 = false → d.2.1 → d.2.2.1 = false → bits d.2.2.2 7 0 = dFILL → s.canDispatch r.half r.q.val d.2.2.2 → s.mayGo r.half r.q.val → d.1.descCheck r.half ((s.partOfQ r.half r.q.val).getD 0) d.2.2.2 = some c →
    exec (.fill r hr) s = .next (((d.1.denySpans r.half ((s.partOfQ r.half r.q.val).getD 0) c (descSpans d.2.2.2)).launch r.half r.q.val { descOf (s.queue r.half r.q.val).next d.2.2.2 with done := true, status := checkStatus c, detail := c, info := 0 }).onQueue s)) ∧
  (∀ (r : QRef) (hr : HostRead) (s : State),
    let d := descRead r hr s
    s.answers (.seq r.half) → s.seqState r.half = 1 → s.draining = false → (s.queue r.half r.q.val).canTake → ((s.queue r.half r.q.val).ctx.dsp = 0 && s.holds [((s.queue r.half r.q.val).ctx.dring + 128 * (s.queue r.half r.q.val).next, 128)]) = false → s.armed (.seq r.half) 12 = false → d.2.1 → d.2.2.1 → s.mayGo r.half r.q.val →
    exec (.fill r hr) s = .next (((d.1.err (.seq r.half) 12 { cost := 4, status := 7, detail := 0x88, parts := 2 ^ (s.partOfQ r.half r.q.val).getD 0 }).launch r.half r.q.val { descOf (s.queue r.half r.q.val).next 0 with done := true, status := 7, detail := 0x88 }).onQueue s))

/-- Kernels from reservation to their last part, timeouts, and the completion of a descriptor. Rules: 03 R87, 03 R91, 03 R92, 03 R94, 03 R98, 03 R99, 03 R100, 03 Table 3.10, 03 Table 3.11a. -/
def Obligations.DescriptorsInFlight : Prop :=
  (∀ (r : QRef) (slot : BitVec 16) (s : State),
    s.answers (.seq r.half) → (s.waitingKernel r.half r.q.val slot.toNat).isSome → (s.rsv r.half).contains (r.q.val, slot.toNat) = false →
    exec (.kernelReserve r slot) s = .next ((s.setRsv r.half (s.rsv r.half ++ [(r.q.val, slot.toNat)])).onQueue s)) ∧
  (∀ (r : QRef) (slot : BitVec 16) (d : Desc) (s : State),
    s.answers (.seq r.half) → s.draining = false → s.waitingKernel r.half r.q.val slot.toNat = some d → s.setAbsent r.half d.raw = false → (s.kernelCells r.half d.raw).all (fun c => s.cellFree r.half c && !(s.heldCells r.half r.q.val slot.toNat).contains c) →
    exec (.kernelStart r slot) s = .next (State.onQueue (
    let cs := s.kernelCells r.half d.raw
    let t := (s.setRsv r.half ((s.rsv r.half).filter (· ≠ (r.q.val, slot.toNat)))).updDesc r.half r.q.val d.slot (fun e => { e with started := true, cells := cs })
    let t := foldOver ((List.range 4).filter (fun k => cs.any (fun c => c / 72 = k))) (fun k (t : State) => (t.rampDuty r.half k).wakeDom r.half k) t
    foldOver ((List.range cs.length).zip cs) (fun (e : Nat × Nat) (t : State) =>
      t.startPart r.half r.q.val ((s.partOfQ r.half r.q.val).getD 0) d cs.length e.1 e.2) t) s)) ∧
  (∀ (r : QRef) (slot : BitVec 16) (d : Desc) (s : State),
    s.answers (.seq r.half) → s.draining = false → s.waitingKernel r.half r.q.val slot.toNat = some d → s.setAbsent r.half d.raw →
    exec (.kernelStart r slot) s = .next (((s.setRsv r.half ((s.rsv r.half).filter (· ≠ (r.q.val, slot.toNat)))).updDesc r.half r.q.val d.slot (fun e => e.finish 0xC 0x87 0)).onQueue s)) ∧
  (∀ (h : Half) (c : Fin 288) (k : KCtx) (e : Nat × Nat) (s : State),
    (s.cell h c.val).ctx = some k → (s.cell h c.val).ended = some e →
    exec (.kernelPartComplete h c) s = .next (State.onQueue (
    let t := (s.setCell h c.val { s.cell h c.val with ctx := none, ended := none, loops := [] }).cellState h c.val (if s.isSet (cellPage h c.val) R.cell.CELL_ID_MAPPED then 2 else if s.cst h c.val = 5 then 5 else 0)
    let t := if (s.cell h c.val).retire then t.queueSwap h c.val else t
    match t.desc h k.q k.slot with
    | none => t
    | some d =>
      let rest := d.cells.filter (· ≠ c.val)
      let u := t.updDesc h k.q k.slot (fun d => { d with cells := rest, cflags := d.cflags ||| s.flagsOf h c.val, done := rest.isEmpty })
      if e.1 = 0 then u else foldOver rest (fun c (u : State) => u.endPartWith h c 9) u) s)) ∧
  (∀ (r : QRef) (slot : BitVec 16) (d : Desc) (s : State),
    s.desc r.half r.q.val slot.toNat = some d → d.type = dKERNEL → d.started → d.done = false → s.kernelLimit r.half r.q.val d →
    exec (.kernelTimeout r slot) s = .next ((s.abortDesc r.half r.q.val 5 d).onQueue s)) ∧
  (∀ (h : Half) (q : Fin 512) (slot : BitVec 16) (d : Desc) (s : State),
    s.desc h q.val slot.toNat = some d → d.type = dWAIT → d.done = false →
    exec (.waitTimeout (.desc h q slot)) s = .next ((s.updDesc h q.val slot.toNat (·.finish 5 0 (s.sem (bits d.raw 143 128)))).onQueue s)) ∧
  (∀ (h : Half) (c : Fin 288) (s : State),
    (s.cell h c.val).wait.isSome →
    exec (.waitTimeout (.cell h c)) s = .next ((s.endPartWith h c.val 5).onQueue s)) ∧
  (∀ (r : QRef) (slot : BitVec 16) (d : Desc) (s : State),
    s.answers (.seq r.half) → s.desc r.half r.q.val slot.toNat = some d → d.done → (d.stream && d.status = 0 && s.holds (descSpans d.raw)) = false →
    exec (.descriptorComplete r slot) s = .next ((s.completeDesc r.half r.q.val d).onQueue s))

/-- A line access: denied outside the windows, held while its controller holds it, else served and answered. Rules: 04 R111, 04 R113, 04 R119, 04 R122, 04 R123, 04 R137, 04 R138. -/
def Obligations.MemoryAccesses : Prop :=
  (∀ (r : LineReq) (p : Fin 8) (s : State),
    r.wf → r.part = some p → s.inWindow r.half p.val r.addr.toNat r.len = false →
    exec (.memoryAccess r) s = .next (((s.err (.comb r.half) 14 { status := 3, parts := 2 ^ p.val, detail := (if r.src = .cell then 9 else 0x86), info := s.memInfo r.addr.toNat }).emit
      (.access r.half r.src 3 [])).onQueue s)) ∧
  (∀ (r : LineReq) (p : Fin 8) (s : State),
    r.wf → r.part = some p → s.inWindow r.half p.val r.addr.toNat r.len → s.isHeld r.addr.toNat = false →
    exec (.memoryAccess r) s = .next (State.onQueue (
    let x := s.lineOp r.half r.src r.write r.addr.toNat r.hint.toNat r.data r.len r.upset
    x.1.emit (.access r.half r.src x.2.1 x.2.2)) s)) ∧
  (∀ (r : LineReq) (s : State),
    r.wf → r.part = none → s.isHeld r.addr.toNat = false →
    exec (.memoryAccess r) s = .next (State.onQueue (
    let x := s.lineOp r.half r.src r.write r.addr.toNat r.hint.toNat r.data r.len r.upset
    x.1.emit (.access r.half r.src x.2.1 x.2.2)) s)) ∧
  (∀ (r : LineReq) (s : State),
    r.wf → r.part = none → s.isHeld r.addr.toNat →
    exec (.memoryAccess r) s = .next (({ s with mem := { s.mem with held := s.mem.held ++ [Held.line r] } }).onQueue s)) ∧
  (∀ (r : LineReq) (s : State),
    r.wf = false →
    exec (.memoryAccess r) s = .refused .illFormed)

/-- Interleave writes, training, scrub, repair and retirement of HBM and DDR5. Rules: 04 R122, 04 R123, 04 R124, 04 R131, 04 R132, 04 R135, 04 R136, 04 R137, 04 R139, 04 Table 4.10, 12 R377, 14 Table 14.2. -/
def Obligations.MemoryControllers : Prop :=
  (∀ (m : Master) (h : Half) (i : Fin 5) (value : Word) (s : State),
    s.reaches m → s.answers (.comb h) →
    exec (.ilvWrite m h i value) s = .next ((foldOver (List.range (if i.val < 4 then 16 else 8))       (fun k (s : State) => s.ilvRow h (16 * i.val + k) (bits value.toNat (2 * k + 1) (2 * k))) s).onQueue s)) ∧
  (∀ (h : Half) (i : Fin 12) (e : GroupEyes) (x : TrainSt) (s : State),
    s.mem.train.find? (fun y => y.1 = 12 * halfNo h + i.val) = some (12 * halfNo h + i.val, x) → s.getF (.hbmc h i) R.hbmc.BLK_STS_STATE = 2 → x.group < 3 →
    exec (.hbmGroupTrained h i e) s = .next (State.onQueue (
    let eye := if e.first ≥ 64 then e.first else e.retry
    let t : TrainSt := { group := x.group + 1, failed := x.failed || decide (eye < 64), slowOk := x.slowOk && decide (e.slow ≥ 90), eye := min x.eye eye }
    ({ s with mem := { s.mem with train := mput s.mem.train (12 * halfNo h + i.val) t } } : State).releaseHeld) s)) ∧
  (∀ (h : Half) (i : Fin 12) (e : GroupEyes) (x : TrainSt) (s : State),
    s.mem.train.find? (fun y => y.1 = 12 * halfNo h + i.val) = some (12 * halfNo h + i.val, x) → s.getF (.hbmc h i) R.hbmc.BLK_STS_STATE = 2 → 3 ≤ x.group →
    exec (.hbmGroupTrained h i e) s = .next (State.onQueue (
    let p : Page := .hbmc h i
    let eye := if e.first ≥ 64 then e.first else e.retry
    let failed := x.failed || decide (eye < 64)
    let u := { s with mem := { s.mem with train := merase s.mem.train (12 * halfNo h + i.val) } }
    let u := (u.setFs p [(R.hbmc.TRAIN_Q_EYE_MIN, min x.eye eye), (R.hbmc.TRAIN_Q_TRAIN_MS, u.freeAhead 0)]).drawn 1
    let info := bytesOf 8 0 ++ bytesOf 1 i.val
    let u := if !failed then u.setFs p [(R.hbmc.BLK_STS_STATE, 3), (R.hbmc.HBM_CFG_RATE, 96)]
      else if x.slowOk && decide (e.slow ≥ 90) then
        (u.setFs p [(R.hbmc.BLK_STS_STATE, 4), (R.hbmc.HBM_CFG_RATE, 64)]).err p 11 { cost := 2, info := info }
      else (u.err p 11 { cost := 5, info := info }).failStack h i.val
    u.releaseHeld.nextTrain h (i.val / 3)) s)) ∧
  (∀ (m : Master) (h : Half) (i : Fin 12) (s : State),
    s.reaches m → s.answers (.hbmc h i) → s.getF (.hbmc h i) R.hbmc.BLK_STS_STATE = 4 →
    exec (.hbmRetrain m h i) s = .next ((s.hbmTrainStart h i.val).onQueue s)) ∧
  (∀ (m : Master) (h : Half) (i : Fin 12) (s : State),
    s.reaches m → s.answers (.hbmc h i) → s.getF (.hbmc h i) R.hbmc.BLK_STS_STATE ≠ 4 →
    exec (.hbmRetrain m h i) s = .next ((s.err (.hbmc h i) 0 { status := 1 }).onQueue s)) ∧
  (∀ (h : Half) (i : Fin 12) (addr : BitVec 52) (u : Upset) (s : State),
    s.answers (.hbmc h i) → s.placePage addr.toNat = .hbmc h i →
    exec (.patrolScrub (.hbm h i) addr u) s = .next (State.onQueue (
    let p : Page := .hbmc h i
    let pos := match s.place addr.toNat with | .hbm hh off => (s.hbmDecode hh off).2 / 2 ^ 22 | _ => 0
    let t := (if pos < s.getF p R.hbmc.SCRUB_POS then s.addWrap p R.hbmc.SCRUB_PASSES 1 else s).setF p R.hbmc.SCRUB_POS pos
    match u with
    | .none | .tag => t
    | .corrected => t.corrected addr.toNat false
    | .uncorrectable => t.uncorrectable addr.toNat false) s)) ∧
  (∀ (h : Half) (c : Fin 8) (addr : BitVec 52) (u : Upset) (s : State),
    s.answers (.ddrc h c) → s.placePage addr.toNat = .ddrc h c →
    exec (.patrolScrub (.ddr h c) addr u) s = .next (State.onQueue (
    let p : Page := .ddrc h c
    let pos := s.tierLocal h (addr.toNat - tierBase h) / 2 ^ 23
    let t := (if pos < s.getF p R.ddrc.SCRUB_POS then s.addWrap p R.ddrc.SCRUB_PASSES 1 else s).setF p R.ddrc.SCRUB_POS pos
    match u with
    | .none | .tag => t
    | .corrected => t.corrected addr.toNat false
    | .uncorrectable => t.uncorrectable addr.toNat false) s)) ∧
  (∀ (h : Half) (addr : BitVec 52) (u : Upset) (s : State),
    s.answers (.comb h) → (match s.place addr.toNat with | .scratch _ _ => false | _ => true) = true → cached (s.cache h) (addr.toNat / 128) →
    exec (.patrolScrub (.comb h) addr u) s = .next ((match u with
    | .none => s
    | .tag => s.err (.comb h) 11 { info := s.memInfo addr.toNat }
    | .corrected => s.err (.comb h) 8 { info := s.memInfo addr.toNat }
    | .uncorrectable =>
      if (mget clNone (s.cache h) (addr.toNat / 128)).dirty then
        ((((s.poisonLine (addr.toNat / 128)).evict h (addr.toNat / 128)).dirSts).err (.comb h) 10 { cost := 4, info := s.memInfo addr.toNat })
      else ((s.evict h (addr.toNat / 128)).dirSts).err (.comb h) 9 { info := s.memInfo addr.toNat }).onQueue s)) ∧
  (∀ (h : Half) (addr : BitVec 52) (u : Upset) (off : Nat) (s : State),
    s.answers (.comb h) → s.place addr.toNat = .scratch h off → u ≠ .tag → u ≠ .none →
    exec (.patrolScrub (.comb h) addr u) s = .next ((if u = .corrected then s.corrected addr.toNat false else s.uncorrectable addr.toNat false).onQueue s)) ∧
  (∀ (h : Half) (i : Fin 12) (addr : BitVec 52) (s : State),
    s.answers (.hbmc h i) → s.placePage addr.toNat = .hbmc h i → s.mem.poison.contains (addr.toNat / 64) →
    exec (.hardPpr h (.hbm i) addr) s = .next (State.onQueue (
    let x := s.pprOf h i.val
    let key := 12 * halfNo h + i.val
    let t := { s with ppr := mput s.ppr key (min 255 (x.1 + 1), x.2 + (if Config.pprLast key x.1 then 1 else 0)) }
    if s.pprLeft h i.val ≠ 0 then t.err (.hbmc h i) 10 { info := t.memInfo addr.toNat } else s) s)) ∧
  (∀ (h : Half) (c : Fin 8) (addr : BitVec 52) (s : State),
    s.answers (.ddrc h c) → s.placePage addr.toNat = .ddrc h c → s.mem.poison.contains (addr.toNat / 64) →
    exec (.hardPpr h (.ddr c) addr) s = .next ((s.err (.ddrc h c) 10 { info := s.memInfo addr.toNat }).onQueue s)) ∧
  (∀ (h : Half) (i : Fin 12) (slice : Fin 72) (why : RetireCause) (s : State),
    s.answers (.hbmc h i) → s.getF (.hbmc h i) R.hbmc.BLK_STS_STATE ≠ 5 → s.retired h i.val slice.val = false →
    exec (.sliceRetire h i slice why) s = .next (State.onQueue (
    let sp := s.sliceSpan h i.val slice.val
    let t := (s.retireSlice h i.val slice.val).err (.hbmc h i) 13
      { cost := 5, parts := s.partsIn h sp.1 sp.2, info := bytesOf 8 sp.1 ++ bytesOf 1 i.val ++ bytesOf 1 slice.val }
    if t.retiredCount h i.val > 8 then (t.failStack h i.val).releaseHeld else t) s)) ∧
  (∀ (h : Half) (c : Fin 8) (s : State),
    s.answers (.ddrc h c) → s.getF (.ddrc h c) R.ddrc.BLK_STS_STATE = 2 →
    exec (.dimmFail h c) s = .next (State.onQueue (
    let t := s.setF (.ddrc h c) R.ddrc.BLK_STS_STATE 3
    (((t.dropLines (tierBase h) (tierBase h + t.tierCap h)).dirSts).journal 4 (bytesOf 1 (halfNo h) ++ bytesOf 1 c.val)).fwRecord (.ddrc h c) false
      { cost := 5, parts := s.partsIn h (tierBase h) (tierBase h + s.tierCap h), info := bytesOf 8 0 ++ bytesOf 1 c.val }) s)) ∧
  (∀ (h : Half) (c : Fin 8) (pass : Bool) (eye : BitVec 8) (t100 : BitVec 8) (s : State),
    s.answers (.ddrc h c) → s.getF (.ddrc h c) R.ddrc.BLK_STS_STATE = 1 →
    exec (.ddrTrainDone h c pass eye t100) s = .next (State.onQueue (
    let t := s.setFs (.ddrc h c) [(R.ddrc.TRAIN_Q_EYE_MIN, eye.toNat), (R.ddrc.TRAIN_Q_TRAIN_100MS, t100.toNat)]
    if pass then t.setF (.ddrc h c) R.ddrc.BLK_STS_STATE 2
    else (t.setF (.ddrc h c) R.ddrc.BLK_STS_STATE 3).err (.ddrc h c) 11 { cost := 5, info := bytesOf 8 0 ++ bytesOf 1 c.val }) s)) ∧
  (∀ (h : Half) (c : Fin 8) (s : State),
    s.answers (.ddrc h c) → s.getF (.ddrc h c) R.ddrc.BLK_STS_STATE = 0 → mhas s.mem.dimms (chanKey h c.val) = false → s.spdOut.contains (chanKey h c.val) = false →
    exec (.spdWaitTimeout h c) s = .next ((({ s with spdOut := sadd s.spdOut (chanKey h c.val) }).err (.ddrc h c) 12).onQueue s)) ∧
  (∀ (h : Half) (s : State),
    s.answers (.comb h) → s.tierChans h = [] → (List.range 8).all (fun c => s.getF (ddrPage h c) R.ddrc.BLK_STS_STATE = 2 || s.getF (ddrPage h c) R.ddrc.BLK_STS_STATE = 3 || (s.getF (ddrPage h c) R.ddrc.BLK_STS_STATE = 0 && s.spdOut.contains (chanKey h c))) →
    exec (.tierMap h) s = .next (State.onQueue (
    let ilv := match s.cfg.ddrIlv with
      | some e => if h = .A then e.1 else e.2
      | none => true
    s.mapTier h ilv (s.cfg.parts.getD [])) s)) ∧
  (∀ (h : Half) (c : Fin 8) (addr : BitVec 52) (retriesFail : Bool) (s : State),
    s.answers (.ddrc h c) → retriesFail →
    exec (.ddrCaAlert h c addr retriesFail) s = .next (((s.err (.ddrc h c) 13 { cost := 4, status := 7, info := bytesOf 8 (addr.toNat / 128 * 128) ++ bytesOf 1 c.val }).emit (.access h .device 7 [])).onQueue s)) ∧
  (∀ (h : Half) (c : Fin 8) (addr : BitVec 52) (retriesFail : Bool) (s : State),
    retriesFail = false →
    exec (.ddrCaAlert h c addr retriesFail) s = .next ((s).onQueue s))

/-- The epoch, mesh packets and the bound on mesh requests. Rules: 05 R146, 05 R147, 05 R149, 05 R150. -/
def Obligations.MeshPackets : Prop :=
  (∀ (h : Half) (s : State),
    s.halfUp h →
    exec (.epochAdvance h) s = .next ((foldOver (allFin 4) (fun q (s : State) => s.addWrap (.noc h q) R.noc.NOC_CFG_EPOCH 1) s).onQueue s)) ∧
  (∀ (p : MeshPkt) (s : State),
    s.halfUp p.half → isEndpoint p.half p.dstQ.val p.dstR.val p.dstP = false →
    exec (.meshPacket p) s = .next ((s.err (nocPage p.half p.srcQ.val) 8 { info := match p.load with | .writeData a => s.memInfo a.toNat | _ => bytesOf 8 0 }).onQueue s)) ∧
  (∀ (p : MeshPkt) (s : State),
    let w := s.arbiters p.half (s.pktAge p) ((pktSites p).zip (p.arbs ++ List.replicate (pktSites p).length arbNone))
    s.halfUp p.half → isEndpoint p.half p.dstQ.val p.dstR.val p.dstP → w.2 → w.1.armed (nocPage p.half p.dstQ.val) 9 = false → w.1.armed (nocPage p.half p.dstQ.val) 10 = false →
    exec (.meshPacket p) s = .next (State.onQueue (
    let d := nocPage p.half p.dstQ.val
    let info := match p.load with
      | .writeData a => s.memInfo a.toNat
      | _ => bytesOf 8 0
    match p.err with
    | .headerBad => w.1.err d 10 { cost := 4, info := info }
    | .corrected => w.1.err d 9 { info := info }
    | .dataBad =>
      match p.load with
      | .writeData a => w.1.poisonLine (a.toNat / 128)
      | .readData c => w.1.readLost p.half c
      | .none => w.1
    | .none => w.1) s)) ∧
  (∀ (p : MeshPkt) (s : State),
    let w := s.arbiters p.half (s.pktAge p) ((pktSites p).zip (p.arbs ++ List.replicate (pktSites p).length arbNone))
    s.halfUp p.half → isEndpoint p.half p.dstQ.val p.dstR.val p.dstP → w.2 = false →
    exec (.meshPacket p) s = .next ((w.1).onQueue s)) ∧
  (∀ (h : Half) (q : Fin 4) (addr : BitVec 52) (cell : Option (Fin 288)) (s : State),
    s.halfUp h →
    exec (.meshRequestTimeout h q true addr cell) s = .next (((s.fwRecord (.noc h q) false { cost := 4, info := s.memInfo addr.toNat }).emit (.access h .device 0 [])).onQueue s)) ∧
  (∀ (h : Half) (q : Fin 4) (addr : BitVec 52) (s : State),
    s.halfUp h →
    exec (.meshRequestTimeout h q false addr none) s = .next ((s.emit (.access h .device 7 [])).onQueue s)) ∧
  (∀ (h : Half) (q : Fin 4) (addr : BitVec 52) (c : Fin 288) (s : State),
    s.halfUp h → (s.cell h c.val).ctx.isSome → (s.cell h c.val).ended = none →
    exec (.meshRequestTimeout h q false addr (some c)) s = .next ((s.progError h c.val 0xA (s.getF (.cell h c) R.cell.PC)).onQueue s))

/-- Hinge flits, acknowledgements, lanes, training and breaks of the links between dies. Rules: 05 R153, 05 R154, 05 R156, 05 R159, 05 R162, 05 R163, 05 R164, 05 R165, 05 R169, 05 R170, 05 Table 5.12, 01 R33. -/
def Obligations.HingeAndModules : Prop :=
  (∀ (h : Half) (b : Fin 16) (f : HingeFlit) (s : State),
    let got := f.flips.foldl flipBit f.bytes
    let y := s.dl (farEnd h b)
    let t := s.setDl (farEnd h b) { y with next := (y.next + 1) % 65536, sent := [{ seq := hfSeq f.bytes, bytes := f.bytes, flow := f.flow }] }
    s.answers (.hinge h b) → f.bytes.length = 256 → s.bundleUp b → (s.dl (farEnd h b)).sent = [] → hfSeq f.bytes = (s.dl (farEnd h b)).next → s.pickBundle f.flow = some b → s.armed (.hinge h b) 10 = false → hfGood got → hfSeq got = ((t.hingeAcked h b (hfAck got) f.nak).dl (.hinge h b)).exp → ((t.hingeAcked h b (hfAck got) f.nak).dl (.hinge h b)).bad = none →
    exec (.hingeFlit h (.bundle b) f) s = .next (State.onQueue (
    let u := t.hingeAcked h b (hfAck got) f.nak
    let x := u.dl (.hinge h b)
    let v := u.setDl (.hinge h b) { x with exp := (x.exp + 1) % 65536, bad := none, since := if x.since + 1 ≥ 8 then 0 else x.since + 1 }
    if x.since + 1 ≥ 8 then v.emit (.hingeAck h b ((x.exp + 1) % 65536) false) else v) s)) ∧
  (∀ (h : Half) (b : Fin 16) (f : HingeFlit) (s : State),
    let got := f.flips.foldl flipBit f.bytes
    let y := s.dl (farEnd h b)
    let t := s.setDl (farEnd h b) { y with next := (y.next + 1) % 65536, sent := [{ seq := hfSeq f.bytes, bytes := f.bytes, flow := f.flow }] }
    s.answers (.hinge h b) → f.bytes.length = 256 → s.bundleUp b → (s.dl (farEnd h b)).sent = [] → hfSeq f.bytes = (s.dl (farEnd h b)).next → s.pickBundle f.flow = some b → s.armed (.hinge h b) 10 = false → hfGood got → hfSeq got ≠ ((t.hingeAcked h b (hfAck got) f.nak).dl (.hinge h b)).exp →
    exec (.hingeFlit h (.bundle b) f) s = .next ((t.hingeAcked h b (hfAck got) f.nak).onQueue s)) ∧
  (∀ (h : Half) (b : Fin 16) (f : HingeFlit) (s : State),
    let got := f.flips.foldl flipBit f.bytes
    let y := s.dl (farEnd h b)
    let t := s.setDl (farEnd h b) { y with next := (y.next + 1) % 65536, sent := [{ seq := hfSeq f.bytes, bytes := f.bytes, flow := f.flow }] }
    s.answers (.hinge h b) → f.bytes.length = 256 → s.bundleUp b → (s.dl (farEnd h b)).sent = [] → hfSeq f.bytes = (s.dl (farEnd h b)).next → s.pickBundle f.flow = some b → s.armed (.hinge h b) 10 = false → hfGood got = false →
    exec (.hingeFlit h (.bundle b) f) s = .next (State.onQueue (
    let u := t.badFlit (.hinge h b) true false
    let x := u.dl (.hinge h b)
    (u.setDl (.hinge h b) { x with bad := some (x.bad.getD got) }).emit (.hingeAck h b x.exp true)) s)) ∧
  (∀ (h : Half) (b : Fin 16) (f : HingeFlit) (s : State),
    s.bundleUp b = false →
    exec (.hingeFlit h (.bundle b) f) s = .next ((s).onQueue s)) ∧
  (∀ (h : Half) (k : Fin 32) (f : HingeFlit) (s : State),
    s.answers (.ucie h k) → f.bytes.length = 256 → s.dlState (.ucie h k) = ucACTIVE → s.armed (.ucie h k) 10 = false → f.flips ≠ [] →
    exec (.hingeFlit h (.module k) f) s = .next (((s.addSat (.ucie h k) R.dlink.CRC_CNT_COUNT 1).err (.ucie h k) 10 { info := (s.addSat (.ucie h k) R.dlink.CRC_CNT_COUNT 1).laneInfo (.ucie h k) 0xFF }).onQueue s)) ∧
  (∀ (h : Half) (b : Fin 16) (s : State),
    s.answers (dlPage (.hinge h b)) → s.bundleUp b → (s.dl (.hinge h b)).since > 0 →
    exec (.hingeAckTimer h b) s = .next (((s.setDl (.hinge h b) { s.dl (.hinge h b) with since := 0 }).emit (.hingeAck h b (s.dl (.hinge h b)).exp false)).onQueue s)) ∧
  (∀ (b : Fin 16) (why : BreakCause) (s : State),
    s.bundleThere b → [hgTRAINING, hgFULL, hgHALF].contains (s.dlState (.hinge .A b)) →
    exec (.bundleBroken b why) s = .next (State.onQueue (
    let t := match why with
      | .credit => foldOver [Half.A, Half.B] (fun h (s : State) => s.setF (.hinge h b) R.dlink.CREDIT_PEND_US 1000) s
      | .training => foldOver [Half.A, Half.B] (fun h (s : State) => s.err (.hinge h b) 8 { info := s.laneInfo (.hinge h b) 0xFF }) s
      | .lanes => s
    (t.setRetry b (!t.halted)).breakBundle b) s)) ∧
  (∀ (b : Fin 16) (badA badB : List (Fin 68)) (pass : Bool) (s : State),
    let t := foldOver badB (fun k (u : State) => u.noteLane (.hinge .B b) k.val) (foldOver badA (fun k (u : State) => u.noteLane (.hinge .A b) k.val) s)
    let n := min ((t.setRetry b false).goodLanes (.hinge .A b)).length ((t.setRetry b false).goodLanes (.hinge .B b)).length
    s.bundleThere b → s.dlState (.hinge .A b) = hgTRAINING → 32 ≤ n → pass →
    exec (.hingeTrainDone b badA badB pass) s = .next (((t.setRetry b false).bundleTrained b (decide (64 ≤ n))).onQueue s)) ∧
  (∀ (b : Fin 16) (badA badB : List (Fin 68)) (pass : Bool) (s : State),
    let t := foldOver badB (fun k (u : State) => u.noteLane (.hinge .B b) k.val) (foldOver badA (fun k (u : State) => u.noteLane (.hinge .A b) k.val) s)
    s.bundleThere b → s.dlState (.hinge .A b) = hgTRAINING → pass = false →
    exec (.hingeTrainDone b badA badB pass) s = .next (((foldOver [Half.A, Half.B] (fun h (s : State) => s.err (.hinge h b) 8 { info := s.laneInfo (.hinge h b) 0xFF }) (t.setRetry b false)).breakBundle b).onQueue s)) ∧
  (∀ (h : Half) (b : Fin 16) (lane : Fin 68) (s : State),
    s.answers (.hinge h b) → (s.dl (.hinge h b)).failed.contains lane.val = false → s.dlState (.hinge h b) ≠ hgTRAINING → s.bundleUp b →
    exec (.laneFail (.hinge h b) lane) s = .next ((if (s.spareLane (.hinge h b) lane.val).2 then (s.spareLane (.hinge h b) lane.val).1 else (s.spareLane (.hinge h b) lane.val).1.retrainBundle b).onQueue s)) ∧
  (∀ (h : Half) (b : Fin 16) (lane : Fin 68) (s : State),
    s.answers (.hinge h b) → (s.dl (.hinge h b)).failed.contains lane.val = false → s.dlState (.hinge h b) = hgTRAINING →
    exec (.laneFail (.hinge h b) lane) s = .next ((s.noteLane (.hinge h b) lane.val).onQueue s)) ∧
  (∀ (h : Half) (k : Fin 32) (lane : Fin 68) (s : State),
    s.answers (.ucie h k) → (s.dl (.ucie h k)).failed.contains lane.val = false →
    exec (.laneFail (.ucie h k) lane) s = .next ((s.moduleLane h k lane.val).onQueue s)) ∧
  (∀ (m : Master) (h : Half) (b : Fin 16) (s : State),
    s.reaches m → s.answers (.hinge h b) → s.bundleUp b →
    exec (.retrainFull m (.hinge h b)) s = .next ((s.retrainBundle b).onQueue s)) ∧
  (∀ (m : Master) (h : Half) (b : Fin 16) (s : State),
    s.reaches m → s.answers (.hinge h b) → s.bundleUp b = false →
    exec (.retrainFull m (.hinge h b)) s = .next ((s.err (.hinge h b) 0 { status := 1 }).onQueue s)) ∧
  (∀ (m : Master) (h : Half) (k : Fin 32) (s : State),
    s.reaches m → s.answers (.ucie h k) → s.dlState (.ucie h k) = ucACTIVE →
    exec (.retrainFull m (.ucie h k)) s = .next ((s.trainModule h k).onQueue s)) ∧
  (∀ (m : Master) (h : Half) (k : Fin 32) (bad : List (Fin 68)) (s : State),
    s.reaches m → s.answers (.ucie h k) → s.isSet (.ucie h k) R.hdr.BLK_STS_RESET_BUSY = false → s.dlState (.ucie h k) ≠ ucDISABLED →
    exec (.hingeLinkReset m ⟨.ucie h k, bad⟩) s = .next (State.onQueue (
    let p : Page := .ucie h k
    let t := (s.resetBlockRegs p).setFs p [(R.hdr.ERR_INJ, 0), (R.hdr.BLK_STS_RESET_BUSY, 1), (R.hdr.BLK_STS_READY, 0),
      (R.hdr.BLK_STS_FENCED, 0), (R.dlink.BLK_STS_X32, 0)]
    let t := t.setDl (.ucie h k) { t.dl (.ucie h k) with exp := 0, since := 0, bad := none, charge := [] }
    foldOver bad (fun j (u : State) => u.noteLane (.ucie h k) j.val) (t.stopModule h k ucRESET)) s)) ∧
  (∀ (m : Master) (h : Half) (b : Fin 16) (bad : List (Fin 68)) (s : State),
    s.reaches m → s.bundleThere b → s.answers (.hinge h b) → s.isSet (.hinge h b) R.hdr.BLK_STS_RESET_BUSY = false →
    exec (.hingeLinkReset m ⟨.hinge h b, bad⟩) s = .next (State.onQueue (
    let clear := fun (l : DieLink) (s : State) =>
      let t := (s.resetBlockRegs (dlPage l)).setFs (dlPage l) [(R.hdr.ERR_INJ, 0), (R.hdr.BLK_STS_RESET_BUSY, 1), (R.hdr.BLK_STS_READY, 0),
        (R.hdr.BLK_STS_FENCED, 0), (R.dlink.BLK_STS_X32, 0)]
      t.setDl l { t.dl l with exp := 0, since := 0, bad := none, charge := [] }
    foldOver bad (fun j (u : State) => u.noteLane (.hinge h b) j.val) (clear (farEnd h b) (clear (.hinge h b) (s.retrainBundle b)))) s)) ∧
  (∀ (m : Master) (l : DieLink) (bad : List (Fin 68)) (s : State),
    s.reaches m → s.answers (dlPage l) → s.isSet (dlPage l) R.hdr.BLK_STS_RESET_BUSY →
    exec (.hingeLinkReset m ⟨l, bad⟩) s = .next ((s.err (dlPage l) 0 { status := 1 }).onQueue s)) ∧
  (∀ (h : Half) (k : Fin 32) (why : BreakCause) (s : State),
    s.answers (dlPage (.ucie h k)) → s.dlState (.ucie h k) ≠ ucBROKEN → s.dlState (.ucie h k) ≠ ucDISABLED →
    exec (.ucieBroken h k why) s = .next (State.onQueue (
    let t := if why = .credit then s.setF (.ucie h k) R.dlink.CREDIT_PEND_US 1000 else s
    let t := if why = .training then t.err (.ucie h k) 8 { info := t.laneInfo (.ucie h k) 0xFF } else t
    t.breakModule h k) s)) ∧
  (∀ (m : Master) (h : Half) (k : Fin 32) (s : State),
    s.reaches m → s.answers (.ucie h k) → s.isSet (.ucie h k) ucieEn →
    exec (.ucieDisable m h k) s = .next ((((s.setF (.ucie h k) ucieEn 0).stopModule h k ucDISABLED).oeModCheck h (modOe k)).onQueue s))

/-- The attach firewall: which requests of an OE pass, which violation the others are, and when a window changes. Rules: 05 R166, 05 R167, 05 R168, 05 Table 5.7, 05 Table 5.15. -/
def Obligations.AttachFirewall : Prop :=
  (∀ (h : Half) (o : Fin 8) (r : OeReq) (s : State),
    s.answers (.fwall h) → s.answers (.oe h o) → s.oeFenced h o = false →
    exec (.oeRequestCheck h o r) s = .next (State.onQueue (
    let ws := ((List.range 17).map (s.fwWin h o.val)).filter (fun w => winLine w r.addr.toNat)
    let drop := fun (s : State) => if r.write then s else s.emit (.access h .device 3 [])
    let bad := fun (kind : Nat) => drop (s.violation h o kind r.addr.toNat false)
    if r.malformed then bad 3
    else if r.forbidden then bad 2
    else if ws.isEmpty then bad 0
    else if !ws.any (fun w => if r.write then w.wr else w.rd) then bad 1
    else s) s)) ∧
  (∀ (h : Half) (o : Fin 8) (r : OeReq) (s : State),
    s.answers (.fwall h) → s.oeFenced h o →
    exec (.oeRequestCheck h o r) s = .next ((if r.write then s else s.emit (.access h .device 3 [])).onQueue s)) ∧
  (∀ (h : Half) (o : Fin 8) (win : Fin 17) (w : FwWin) (s : State),
    s.answers (.fwall h) → (oePorts h o).any (fun p => s.lstate p = 2 || s.lstate p = 3) = false →
    exec (.firewallWindowChange h o win w) s = .next ((s.setWin h o.val win.val (winKind win.val w)).onQueue s)) ∧
  (∀ (h : Half) (o : Fin 8) (win : Fin 17) (w : FwWin) (s : State),
    (oePorts h o).any (fun p => s.lstate p = 2 || s.lstate p = 3) →
    exec (.firewallWindowChange h o win w) s = .next ((s).onQueue s))

/-- When a COLLECTIVE descriptor starts its collective, and the code with which it completes otherwise. Rules: 08 R275, 08 R276, 08 R277, 08 R281, 08 Table 8.12, 08 Table 8.13, 03 Table 3.4. -/
def Obligations.CollectiveStart : Prop :=
  (∀ (r : QRef) (hr : HostRead) (s : State),
    let d := descNow r hr s
    let t := dispatched r hr s
    let p := (t.partOfQ r.half r.q.val).getD 0
    let u := bits d.raw 143 128 / 256
    let first := t.getF (.comb r.half) (R.comb.PF_SWARM_FIRST.ix p)
    dispatches dCOLL r hr s → t.partTag p = none ∨ u < first ∨ first + t.getF (.comb r.half) (R.comb.PF_SWARM_CNT.ix p) ≤ u →
    exec (.collective r hr) s = .next ((t.updDesc r.half r.q.val d.slot (·.finish 3 0x97 0)).onQueue s)) ∧
  (∀ (r : QRef) (hr : HostRead) (s : State),
    let d := descNow r hr s
    let t := dispatched r hr s
    let p := (t.partOfQ r.half r.q.val).getD 0
    let u := bits d.raw 143 128 / 256
    let first := t.getF (.comb r.half) (R.comb.PF_SWARM_FIRST.ix p)
    dispatches dCOLL r hr s → (t.partTag p).isSome → first ≤ u → u < first + t.getF (.comb r.half) (R.comb.PF_SWARM_CNT.ix p) → t.loaded r.half p = false →
    exec (.collective r hr) s = .next ((t.updDesc r.half r.q.val d.slot (·.finish 2 0x9B 0)).onQueue s)) ∧
  (∀ (r : QRef) (hr : HostRead) (s : State),
    let d := descNow r hr s
    let t := dispatched r hr s
    let p := (t.partOfQ r.half r.q.val).getD 0
    let u := bits d.raw 143 128 / 256
    let first := t.getF (.comb r.half) (R.comb.PF_SWARM_FIRST.ix p)
    let e := t.memRead r.half .dma 0 (bits (t.fctxOf r.half p).raw 319 256 + (bits d.raw 143 128 - first * 256) * 64) 64
    dispatches dCOLL r hr s → (t.partTag p).isSome → first ≤ u → u < first + t.getF (.comb r.half) (R.comb.PF_SWARM_CNT.ix p) → t.loaded r.half p → e.2.1 ≠ 0 →
    exec (.collective r hr) s = .next ((e.1.updDesc r.half r.q.val d.slot (·.finish e.2.1 0 0)).onQueue s)) ∧
  (∀ (r : QRef) (hr : HostRead) (s : State),
    let d := descNow r hr s
    let t := dispatched r hr s
    let p := (t.partOfQ r.half r.q.val).getD 0
    let u := bits d.raw 143 128 / 256
    let first := t.getF (.comb r.half) (R.comb.PF_SWARM_FIRST.ix p)
    let e := t.memRead r.half .dma 0 (bits (t.fctxOf r.half p).raw 319 256 + (bits d.raw 143 128 - first * 256) * 64) 64
    let w := natOf e.2.2
    let n := bits w 12 1 + 1
    let l := e.1.memberList r.half (bits w 83 32) n
    dispatches dCOLL r hr s → (t.partTag p).isSome → first ≤ u → u < first + t.getF (.comb r.half) (R.comb.PF_SWARM_CNT.ix p) → t.loaded r.half p → e.2.1 = 0 → l.2.1 ≠ 0 →
    exec (.collective r hr) s = .next ((l.1.updDesc r.half r.q.val d.slot (·.finish l.2.1 0 0)).onQueue s)) ∧
  (∀ (r : QRef) (hr : HostRead) (s : State),
    let d := descNow r hr s
    let t := dispatched r hr s
    let p := (t.partOfQ r.half r.q.val).getD 0
    let u := bits d.raw 143 128 / 256
    let first := t.getF (.comb r.half) (R.comb.PF_SWARM_FIRST.ix p)
    let e := t.memRead r.half .dma 0 (bits (t.fctxOf r.half p).raw 319 256 + (bits d.raw 143 128 - first * 256) * 64) 64
    let w := natOf e.2.2
    let n := bits w 12 1 + 1
    let l := e.1.memberList r.half (bits w 83 32) n
    dispatches dCOLL r hr s → (t.partTag p).isSome → first ≤ u → u < first + t.getF (.comb r.half) (R.comb.PF_SWARM_CNT.ix p) → t.loaded r.half p → e.2.1 = 0 → l.2.1 = 0 → bit w 0 = false ∨ n ≤ bits w 24 13 ∨ l.1.isOwn (nth 0 l.2.2 (bits w 24 13)) = false ∨ repeats l.2.2 →
    exec (.collective r hr) s = .next ((l.1.updDesc r.half r.q.val d.slot (·.finish 2 0x9B 0)).onQueue s)) ∧
  (∀ (r : QRef) (hr : HostRead) (s : State),
    let d := descNow r hr s
    let t := dispatched r hr s
    let p := (t.partOfQ r.half r.q.val).getD 0
    let u := bits d.raw 143 128 / 256
    let first := t.getF (.comb r.half) (R.comb.PF_SWARM_FIRST.ix p)
    let e := t.memRead r.half .dma 0 (bits (t.fctxOf r.half p).raw 319 256 + (bits d.raw 143 128 - first * 256) * 64) 64
    let w := natOf e.2.2
    let n := bits w 12 1 + 1
    let l := e.1.memberList r.half (bits w 83 32) n
    let c : CollSt := { half := r.half, q := r.q.val, slot := d.slot, part := p, raw := d.raw, rank := bits w 24 13, fids := l.2.2, going := false, ready := [], got := [], hold := [], free := l.1.freeAhead 0, bytes := 0 }
    dispatches dCOLL r hr s → (t.partTag p).isSome → first ≤ u → u < first + t.getF (.comb r.half) (R.comb.PF_SWARM_CNT.ix p) → t.loaded r.half p → e.2.1 = 0 → l.2.1 = 0 → bit w 0 → bits w 24 13 < n → l.1.isOwn (nth 0 l.2.2 (bits w 24 13)) → repeats l.2.2 = false → c.op = 1 ∨ c.op = 3 → c.count % n ≠ 0 →
    exec (.collective r hr) s = .next ((l.1.updDesc r.half r.q.val d.slot (·.finish 2 0x82 0)).onQueue s)) ∧
  (∀ (r : QRef) (hr : HostRead) (s : State),
    let d := descNow r hr s
    let t := dispatched r hr s
    let p := (t.partOfQ r.half r.q.val).getD 0
    let u := bits d.raw 143 128 / 256
    let first := t.getF (.comb r.half) (R.comb.PF_SWARM_FIRST.ix p)
    let e := t.memRead r.half .dma 0 (bits (t.fctxOf r.half p).raw 319 256 + (bits d.raw 143 128 - first * 256) * 64) 64
    let w := natOf e.2.2
    let n := bits w 12 1 + 1
    let l := e.1.memberList r.half (bits w 83 32) n
    let c : CollSt := { half := r.half, q := r.q.val, slot := d.slot, part := p, raw := d.raw, rank := bits w 24 13, fids := l.2.2, going := false, ready := [], got := [], hold := [], free := l.1.freeAhead 0, bytes := 0 }
    dispatches dCOLL r hr s → (t.partTag p).isSome → first ≤ u → u < first + t.getF (.comb r.half) (R.comb.PF_SWARM_CNT.ix p) → t.loaded r.half p → e.2.1 = 0 → l.2.1 = 0 → bit w 0 → bits w 24 13 < n → l.1.isOwn (nth 0 l.2.2 (bits w 24 13)) → repeats l.2.2 = false → (c.op = 1 ∨ c.op = 3) → c.count % n = 0 → below52 c.dst (c.resultLen * c.es) = false →
    exec (.collective r hr) s = .next ((l.1.updDesc r.half r.q.val d.slot (·.finish 2 0x83 0)).onQueue s)) ∧
  (∀ (r : QRef) (hr : HostRead) (s : State),
    let d := descNow r hr s
    let t := dispatched r hr s
    let p := (t.partOfQ r.half r.q.val).getD 0
    let u := bits d.raw 143 128 / 256
    let first := t.getF (.comb r.half) (R.comb.PF_SWARM_FIRST.ix p)
    let e := t.memRead r.half .dma 0 (bits (t.fctxOf r.half p).raw 319 256 + (bits d.raw 143 128 - first * 256) * 64) 64
    let w := natOf e.2.2
    let n := bits w 12 1 + 1
    let l := e.1.memberList r.half (bits w 83 32) n
    let c : CollSt := { half := r.half, q := r.q.val, slot := d.slot, part := p, raw := d.raw, rank := bits w 24 13, fids := l.2.2, going := false, ready := [], got := [], hold := [], free := l.1.freeAhead 0, bytes := 0 }
    dispatches dCOLL r hr s → (t.partTag p).isSome → first ≤ u → u < first + t.getF (.comb r.half) (R.comb.PF_SWARM_CNT.ix p) → t.loaded r.half p → e.2.1 = 0 → l.2.1 = 0 → bit w 0 → bits w 24 13 < n → l.1.isOwn (nth 0 l.2.2 (bits w 24 13)) → repeats l.2.2 = false → (c.op = 1 ∨ c.op = 3) → c.count % n = 0 → below52 c.dst (c.resultLen * c.es) → l.1.devOk r.half p c.dst (c.resultLen * c.es) = false →
    exec (.collective r hr) s = .next (((l.1.denySpans r.half p 0x86 [(c.dst, c.resultLen * c.es)]).updDesc r.half r.q.val d.slot (·.finish 3 0x86 0)).onQueue s)) ∧
  (∀ (r : QRef) (hr : HostRead) (s : State),
    let d := descNow r hr s
    let t := dispatched r hr s
    let p := (t.partOfQ r.half r.q.val).getD 0
    let u := bits d.raw 143 128 / 256
    let first := t.getF (.comb r.half) (R.comb.PF_SWARM_FIRST.ix p)
    let e := t.memRead r.half .dma 0 (bits (t.fctxOf r.half p).raw 319 256 + (bits d.raw 143 128 - first * 256) * 64) 64
    let w := natOf e.2.2
    let n := bits w 12 1 + 1
    let l := e.1.memberList r.half (bits w 83 32) n
    let c : CollSt := { half := r.half, q := r.q.val, slot := d.slot, part := p, raw := d.raw, rank := bits w 24 13, fids := l.2.2, going := false, ready := [], got := [], hold := [], free := l.1.freeAhead 0, bytes := 0 }
    dispatches dCOLL r hr s → (t.partTag p).isSome → first ≤ u → u < first + t.getF (.comb r.half) (R.comb.PF_SWARM_CNT.ix p) → t.loaded r.half p → e.2.1 = 0 → l.2.1 = 0 → bit w 0 → bits w 24 13 < n → l.1.isOwn (nth 0 l.2.2 (bits w 24 13)) → repeats l.2.2 = false → (c.op = 1 ∨ c.op = 3) → c.count % n = 0 → below52 c.dst (c.resultLen * c.es) → l.1.devOk r.half p c.dst (c.resultLen * c.es) → (c.peers.map (l.1.peerFit c.dt)).contains (some false) →
    exec (.collective r hr) s = .next ((l.1.updDesc r.half r.q.val d.slot (·.finish 0xB 0x95 0)).onQueue s)) ∧
  (∀ (r : QRef) (hr : HostRead) (s : State),
    let d := descNow r hr s
    let t := dispatched r hr s
    let p := (t.partOfQ r.half r.q.val).getD 0
    let u := bits d.raw 143 128 / 256
    let first := t.getF (.comb r.half) (R.comb.PF_SWARM_FIRST.ix p)
    let e := t.memRead r.half .dma 0 (bits (t.fctxOf r.half p).raw 319 256 + (bits d.raw 143 128 - first * 256) * 64) 64
    let w := natOf e.2.2
    let n := bits w 12 1 + 1
    let l := e.1.memberList r.half (bits w 83 32) n
    let c : CollSt := { half := r.half, q := r.q.val, slot := d.slot, part := p, raw := d.raw, rank := bits w 24 13, fids := l.2.2, going := false, ready := [], got := [], hold := [], free := l.1.freeAhead 0, bytes := 0 }
    dispatches dCOLL r hr s → (t.partTag p).isSome → first ≤ u → u < first + t.getF (.comb r.half) (R.comb.PF_SWARM_CNT.ix p) → t.loaded r.half p → e.2.1 = 0 → l.2.1 = 0 → bit w 0 → bits w 24 13 < n → l.1.isOwn (nth 0 l.2.2 (bits w 24 13)) → repeats l.2.2 = false → (c.op = 1 ∨ c.op = 3) → c.count % n = 0 → below52 c.dst (c.resultLen * c.es) → l.1.devOk r.half p c.dst (c.resultLen * c.es) → (c.peers.map (l.1.peerFit c.dt)).contains (some false) = false → l.1.aborted.contains (c.swarm, c.cseq) →
    exec (.collective r hr) s = .next ((({ l.1 with aborted := l.1.aborted.erase (c.swarm, c.cseq) }).updDesc r.half r.q.val d.slot (·.finish 4 0x9D 0)).onQueue s)) ∧
  (∀ (r : QRef) (hr : HostRead) (s : State),
    let d := descNow r hr s
    let t := dispatched r hr s
    let p := (t.partOfQ r.half r.q.val).getD 0
    let u := bits d.raw 143 128 / 256
    let first := t.getF (.comb r.half) (R.comb.PF_SWARM_FIRST.ix p)
    let e := t.memRead r.half .dma 0 (bits (t.fctxOf r.half p).raw 319 256 + (bits d.raw 143 128 - first * 256) * 64) 64
    let w := natOf e.2.2
    let n := bits w 12 1 + 1
    let l := e.1.memberList r.half (bits w 83 32) n
    let c : CollSt := { half := r.half, q := r.q.val, slot := d.slot, part := p, raw := d.raw, rank := bits w 24 13, fids := l.2.2, going := false, ready := [], got := [], hold := [], free := l.1.freeAhead 0, bytes := 0 }
    dispatches dCOLL r hr s → (t.partTag p).isSome → first ≤ u → u < first + t.getF (.comb r.half) (R.comb.PF_SWARM_CNT.ix p) → t.loaded r.half p → e.2.1 = 0 → l.2.1 = 0 → bit w 0 → bits w 24 13 < n → l.1.isOwn (nth 0 l.2.2 (bits w 24 13)) → repeats l.2.2 = false → (c.op = 1 ∨ c.op = 3) → c.count % n = 0 → below52 c.dst (c.resultLen * c.es) → l.1.devOk r.half p c.dst (c.resultLen * c.es) → (c.peers.map (l.1.peerFit c.dt)).contains (some false) = false → l.1.aborted.contains (c.swarm, c.cseq) = false →
    exec (.collective r hr) s = .next (State.onQueue (
    let mine := fun (x : Nat × Nat × Nat) => x.1 = c.swarm && x.2.1 = c.cseq
    let v := { l.1.drawn 1 with colls := l.1.colls ++ [{ c with ready := (l.1.readys.filter mine).map (·.2.2) }], readys := l.1.readys.filter (fun x => !mine x) }
    let v := foldOver (c.peers.filter (fun f => (v.entry f).isNone)) (fun f (v : State) =>
      match v.collAt r.half r.q.val d.slot with
      | none => v
      | some c =>
        match v.openSession r.half f with
        | (some x, _) => x
        | (none, x) => x.failColl c 0xC 0x98) v
    v.pumpColl r.half r.q.val d.slot) s))

/-- The update of a ring's lock loop, the monitor selection, and the loss of a tile's heartbeat. Rules: 06 R180, 06 R186, 06 R187, 06 R188, 06 R189, 06 R190, 06 Table 6.6, 01 R33. -/
def Obligations.RingLoops : Prop :=
  (∀ (h : Half) (o : Fin 8) (r : RingId) (x : RingObs) (s : State),
    s.answers (.oe h o) → s.pstate h o = 3 → s.ring1 h o (ringKey r.port.val r.tx r.ring.val) ≠ ringInit → (s.ring1 h o (ringKey r.port.val r.tx r.ring.val)).parked = false →
    exec (.ringLockUpdate h o r x) s = .next (State.onQueue (
    let k := ringKey r.port.val r.tx r.ring.val
  let y := s.ring1 h o.val k
  
    let sgn : Int := if y.odd then -1 else 1
    let step := max (-50) (min 50 (Int.fdiv (Config.loopGain (oeKey h o.val) * (sgn * (x.monitor - y.last))) 1000))
    let ns := neighbours k
    let dh := fun (j : Nat) => ((s.ring1 h o.val j).heater : Int) - (mget (s.ring1 h o.val j).heater y.seen j : Nat)
    let ff := -((ns.map (fun j => Int.fdiv ((s.cross1 h o.val k j : Int) * dh j) 1000)).sum)
    let w := (min 30000 ((y.heater : Int) + step + ff)).toNat
    let far := decide (x.offset.natAbs > 60)
    let near := decide (x.offset.natAbs ≤ 20)
    let good := if near then min 4 (y.good + 1) else 0
    let bad := if far then y.bad + 1 else 0
    let locked := y.locked || decide (good ≥ 4)
    let y' : RingSt :=
      { heater := w, home := if locked && near then w else y.home, last := x.monitor, odd := !y.odd, good := good, bad := bad, locked := locked,
        parked := false, ofs := x.offset, seen := ns.foldl (fun m j => mput m j (s.ring1 h o.val j).heater) [] }
    let s := s.setRing1 h o.val k y'
    let sel := s.getF (.oe h o) R.oe.MON_SEL_RING
    let s := if s.getF (.oe h o) R.oe.MON_SEL_PORT = r.port.val && sel = r.ring.val + (if r.tx then 32 else 0) &&
        decide (s.getF (.oe h o) R.oe.MON_SEL_INT ≤ 2) then s.showMon h o x.monitor.toNat
      else s
    let inj := s.armed (.oe h o) 12
    let s := if inj then s.disarm (.oe h o) else s
    let out := !inGuard w
    let s := if out then s.err (.oe h o) 11 { info := bytesOf 2 (64 * halfNo h + 8 * o.val + r.port.val) } else s
    let s := if locked && (bad ≥ 3 || out) then s.loseLock h o r x.peaks false else s
    let s := if inj then s.loseLock h o r x.peaks true else s
    s.showRings h o) s)) ∧
  (∀ (m : Master) (h : Half) (o : Fin 8) (value : Word) (s : State),
    s.reaches m → s.answers (.oe h o) → s.isSet (.oe h o) R.hdr.BLK_STS_RESET_BUSY = false →
    exec (.monSel m h o value) s = .next (((s.setFs (.oe h o) [(R.oe.MON_SEL_INT, bits value.toNat 26 24), (R.oe.MON_SEL_PORT, bits value.toNat 10 8),
      (R.oe.MON_SEL_RING, bits value.toNat 7 0), (R.oe.MON_VAL_VALID, 0), (R.oe.MON_VAL_VALUE, 0)]).setOe h o.val
      { s.oe h o.val with monLeft := nth 41 [1, 1, 1, 1, 3, 11] (bits value.toNat 26 24) }).onQueue s)) ∧
  (∀ (m : Master) (h : Half) (o : Fin 8) (value : Word) (s : State),
    s.reaches m → s.answers (.oe h o) → s.isSet (.oe h o) R.hdr.BLK_STS_RESET_BUSY →
    exec (.monSel m h o value) s = .next ((s.err (.oe h o) 0 { status := 1 }).onQueue s)) ∧
  (∀ (h : Half) (o : Fin 8) (s : State),
    s.answers (.oe h o) →
    exec (.tileHeartbeatLoss h o) s = .next (((s.err (.oe h o) 9 { cost := 4, info := bytesOf 2 (64 * halfNo h + 8 * o.val) }).dropOe h o).onQueue s)) ∧
  (∀ (h : Half) (o : Fin 8) (s : State),
    s.answers (.laser h o) → s.getF (.laser h o) R.laser.TILE_BIAS_CEIL = 150 →
    exec (.biasCeilingRestore h o) s = .next ((s.setOe h o.val { s.oe h o.val with ceil := false }).onQueue s))

/-- Hand-overs and substitutions of lasers, message by message, and the sudden failure of a laser. Rules: 06 R193, 06 R194, 06 R195, 06 R196, 06 R197, 06 R198, 06 R209, 06 Table 6.9, 07 R236. -/
def Obligations.HandOvers : Prop :=
  (∀ (p : PortId) (n sp : Fin 18) (s : State),
    s.answers p.page → s.moveOf p n.val sp.val [.asked] →
    exec (.hoReady p n sp) s = .next ((((s.setMove p .dup).setF (laserPage p) R.laser.SPARE_STS_STEP 5).updPort (s.lead p) (fun x => { x with alignDue := true })).onQueue s)) ∧
  (∀ (p : PortId) (n sp : Fin 18) (k : BitVec 16) (s : State),
    s.answers p.page → s.moveOf p n.val sp.val [.dup, .dupAgain] →
    exec (.hoDone p n sp k) s = .next (State.onQueue (
    let t := foldOver (s.lanesOf p R.oport.LANE_TX_CH n.val) (fun i (s : State) => s.setF p.page (laneFld R.oport.LANE_TX_CH i) sp.val) s
    let tx := t.getF p.page R.oport.PORT_STS_CH_TX
    let t := t.setF p.page R.oport.PORT_STS_CH_TX ((if bit tx n.val then tx - 2 ^ n.val else tx) ||| 2 ^ sp.val)
    let t := ((t.addUse p n.val sp.val).setO p 3).setMove p .done
    (t.err p.page 13 { info := t.portInfo p n.val }).endHandOver p.half p.oe) s)) ∧
  (∀ (p : PortId) (n sp : Fin 18) (s : State),
    s.answers p.page → s.moveOf p n.val sp.val [.dup] →
    exec (.hoFail p n sp) s = .next ((((s.linkEvt p 8).setMove p .dupAgain).updPort (s.lead p) (fun x => { x with alignDue := true })).onQueue s)) ∧
  (∀ (p : PortId) (n sp : Fin 18) (s : State),
    s.answers p.page → s.moveOf p n.val sp.val [.dup] = false → s.moveOf p n.val sp.val [.dupAgain] →
    exec (.hoFail p n sp) s = .next (((((s.linkEvt p 8).sendCtl p 9 (bytesOf 1 0 ++ bytesOf 1 6 ++ bytesOf 1 8)).sendCtlFlit (s.lead p)).leaveMove p n.val).onQueue s)) ∧
  (∀ (p : PortId) (y : HandOver) (s : State),
    s.answers p.page → (s.oe p.half p.oe.val).ho = some y → y.moves.any (fun m => m.port = p.no && m.st ≠ .done && m.st ≠ .left) →
    exec (.handoverTimeout p) s = .next (((s.linkEvt p 8).leaveMove p y.n).onQueue s)) ∧
  (∀ (p : PortId) (ch : Fin 18) (s : State),
    s.answers p.page → s.linkUp (s.lead p) → bit (s.getF p.page R.oport.PORT_STS_CH_TX) ch.val → s.handingOver p.half p.oe ch.val (some p.no) = false →
    exec (.subReq p ch) s = .next (((s.startHandOver p.half p.oe ch.val (some p.no)).endHandOver p.half p.oe).onQueue s)) ∧
  (∀ (p : PortId) (n sp : Fin 18) (peaks : List Nat) (s : State),
    s.answers p.page → s.linkUp (s.lead p) = false →
    exec (.hoReq p n sp peaks) s = .next ((s.updPort p (fun x => { x with lostRx := sadd x.lostRx n.val })).onQueue s)) ∧
  (∀ (p : PortId) (n sp : Fin 18) (peaks : List Nat) (s : State),
    s.answers p.page → s.linkUp (s.lead p) → (s.port p).hoRx = some (n.val, sp.val) →
    exec (.hoReq p n sp peaks) s = .next ((s.sendCtl p 3 (bytesOf 1 0 ++ bytesOf 1 n.val ++ bytesOf 1 sp.val)).onQueue s)) ∧
  (∀ (p : PortId) (n sp : Fin 18) (peaks : List Nat) (s : State),
    s.answers p.page → s.linkUp (s.lead p) → (s.port p).hoRx ≠ some (n.val, sp.val) →
    exec (.hoReq p n sp peaks) s = .next (State.onQueue (
    if !s.linkUp (s.lead p) then s.updPort p (fun x => { x with lostRx := sadd x.lostRx n.val })
  else if (s.port p).hoRx = some (n.val, sp.val) then s.sendCtl p 3 (bytesOf 1 0 ++ bytesOf 1 n.val ++ bytesOf 1 sp.val)
  else
    let h := p.half
    let o := p.oe.val
    let key := ringKey (p.i.val % 8) false
    let cost := fun (r : Nat) => costOf (s.port p).cost r sp.val
    let taken := (List.range 18).map (s.rxRing p)
    let free := (List.range 24).filter (fun r => !taken.contains r && (cost r).isSome)
    let pick : Option (Nat × Nat) :=
      if s.isSet p.page R.oport.PORT_CFG_CLASS then
        (if s.badRing h o (key sp.val) then none else some (sp.val, (s.ring1 h o (key sp.val)).home))
      else (leastBy (fun r => (cost r).getD 0) free).map (fun r => (r, (cost r).getD 0))
    match pick with
    | none => s.cannotReceive p n.val
    | some (r, home) =>
      match (relockAt home peaks).1 with
      | none => s.cannotReceive p n.val
      | some w =>
        let s := (s.setF p.page (rxMap sp.val) r).lockRing h o (key r) w
        let s := s.updPort p (fun x => { x with hoRx := some (n.val, sp.val) })
        (s.sendCtl p 3 (bytesOf 1 0 ++ bytesOf 1 n.val ++ bytesOf 1 sp.val)).showRings h p.oe) s)) ∧
  (∀ (m : Master) (h : Half) (o : Fin 8) (value : Word) (s : State),
    s.reaches m → s.answers (.laser h o) → bit value.toNat 0 = false →
    exec (.spareGo m h o value) s = .next ((s.setF (.laser h o) R.laser.SPARE_CTL_CH (bits value.toNat 12 8)).onQueue s)) ∧
  (∀ (m : Master) (h : Half) (o : Fin 8) (value : Word) (s : State),
    let t := s.setF (.laser h o) R.laser.SPARE_CTL_CH (bits value.toNat 12 8)
    s.reaches m → s.answers (.laser h o) → bit value.toNat 0 → t.isSet (.laser h o) R.laser.SPARE_STS_BUSY = false → bits value.toNat 12 8 < 16 → t.laserSt h o (bits value.toNat 12 8) = 3 →
    exec (.spareGo m h o value) s = .next (((t.startHandOver h o (bits value.toNat 12 8) none).endHandOver h o).onQueue s)) ∧
  (∀ (m : Master) (h : Half) (o : Fin 8) (value : Word) (s : State),
    let t := s.setF (.laser h o) R.laser.SPARE_CTL_CH (bits value.toNat 12 8)
    s.reaches m → s.answers (.laser h o) → bit value.toNat 0 → t.isSet (.laser h o) R.laser.SPARE_STS_BUSY ∨ 16 ≤ bits value.toNat 12 8 ∨ t.laserSt h o (bits value.toNat 12 8) ≠ 3 →
    exec (.spareGo m h o value) s = .next ((t.err (.laser h o) 0 { status := 1 }).onQueue s)) ∧
  (∀ (h : Half) (o : Fin 8) (n : Fin 18) (s : State),
    s.answers (.laser h o) → s.laserSt h o n.val = 3 →
    exec (.laserSuddenFail h o n) s = .next (State.onQueue (
    let t := s.err (.laser h o) 11 { cost := 4, info := bytesOf 2 (64 * halfNo h + 8 * o.val) ++ bytesOf 1 0 ++ bytesOf 1 n.val }
    let ps := (oePorts h o).filter (fun p =>
      (t.linkUp (t.lead p) || t.lstate (t.lead p) = 3) && bit (t.getF p.page R.oport.PORT_STS_CH_TX) n.val)
    let r := t.takeSpares ps
    let t := foldOver r.2.1 (fun e (t : State) =>
      ((((t.addUse e.1 n.val e.2).openBranches h o [branchKey e.1 e.2]).updPort e.1 (fun x => { x with lostTx := sadd x.lostTx n.val })).setMove e.1
        .left).linkDown e.1 6) r.1
    let t := foldOver r.2.2 (fun p (t : State) => ((t.err (.laser h o) 13 { cost := 2, info := t.portInfo p n.val }).setMove p .left).loseChannel p n.val) t
    let t := t.retireLaser h o n.val
    match (t.oe h o.val).ho with
    | some y =>
      if y.n = n.val then
        (t.setOe h o.val { t.oe h o.val with ho := some { y with moves := y.moves.map (fun m => if m.st = .done then m else { m with st := .left }) } }).endHandOver h o
      else t
    | none => t) s))

/-- PWR_RPT, PWR_RPT_SEND and CONTROL_REQUEST_REPEAT complete on every port of a link that is UP: the state each leaves. Rules: 06 R181, 06 R191, 06 R192, 06 Table 6.7, 07 R236, 07 Table 7.6. -/
def Obligations.PowerReports : Prop :=
  (∀ (p : PortId) (g : Fin 3) (values : List (BitVec 16)) (biasHeld : BitVec 18) (s : State),
    s.answers p.page → s.linkUp (s.lead p) →
    exec (.pwrRpt p g values biasHeld) s = .next (State.onQueue (
    let vs := ((List.range 7).zip values).filter (fun e => 7 * g.val + e.1 < 18)
    let t := s.updPort p (fun x => vs.foldl (fun x (e : Nat × BitVec 16) => PortSt_report x (7 * g.val + e.1) e.2) x)
    foldOver (List.range 18) (fun n (t : State) => t.judge p biasHeld n) (t.showMargin p)) s)) ∧
  (∀ (p : PortId) (oma : List (BitVec 16)) (s : State),
    s.answers p.page → s.linkUp (s.lead p) →
    exec (.pwrRptSend p oma) s = .next (State.onQueue (
    let rx := s.getF p.page R.oport.PORT_RX_CH_RX
    let val := fun (c : Nat) => if c < 18 && bit rx c then nth 0x8000 oma c else (0x8000 : BitVec 16)
    let t := s.updPort p (fun x => { x with rxOma := (bitList 18 rx).foldl (fun m c => mput m c (val c)) x.rxOma })
    foldOver (List.range 3) (fun g (t : State) =>
      t.sendCtl p 1 (bytesOf 1 g ++ ((List.range 7).map (fun i => bytesOf 2 (val (7 * g + i)).toNat)).flatten)) t) s)) ∧
  (∀ (p : PortId) (s : State),
    s.answers p.page → s.linkUp (s.lead p) →
    exec (.controlRequestRepeat p) s = .next (State.onQueue (
    let t := s.repeatSleep (s.lead p)
    let t := match (t.oe p.half p.oe.val).ho with
      | some y => foldOver (y.moves.filter (fun m => m.port = p.no && m.st = .asked)) (fun m (t : State) => t.askMove m y.n) t
      | none => t
    foldOver (t.port p).lostRx (fun c (t : State) => t.askSub p c) t) s))

/-- Loss of light, probes, opening, SHUT and RESEARCH of an optical port. Rules: 06 R183, 06 R184, 06 R185, 06 R199, 06 R200, 06 R201, 06 Table 6.8, 01 R33. -/
def Obligations.EyeSafety : Prop :=
  (∀ (p : PortId) (s : State),
    s.answers p.page →
    exec (.lossOfLight p) s = .next (State.onQueue (
    let t := s.err p.page 8 { cost := 4, info := s.portInfo p 0 }
    if bit (t.getF (laserPage p) R.laser.BRANCH_CLOSED_FIBRE) (p.i.val % 8) then t
    else ((((t.err p.page 9 { info := t.portInfo p 0 }).addSat p.page R.oport.ES_CNT_COUNT 1).closePort p 1).setMove p .left).endHandOver p.half p.oe) s)) ∧
  (∀ (p : PortId) (s : State),
    s.mayProbe p →
    exec (.probe p) s = .next (((((s.setF p.page R.oport.BLK_STS_OSTATE 1).updPort p (fun x => { x with probing := true })).emit (.light p true)).emit (.light p false)).onQueue s)) ∧
  (∀ (p : PortId) (x : SearchObs) (s : State),
    s.mayProbe p → (s.port p).probing = false →
    exec (.lightDetect p x) s = .next (((((s.setF p.page R.oport.BLK_STS_OSTATE 1).updPort p (fun x => { x with probing := true })).emit (.light p true)).emit (.light p false)).onQueue s)) ∧
  (∀ (p : PortId) (x : SearchObs) (s : State),
    s.mayProbe p → (s.port p).probing →
    exec (.lightDetect p x) s = .next (State.onQueue (
    if (s.port p).probing then
    let k := p.i.val % 8
    let f := s.getF (laserPage p) R.laser.BRANCH_CLOSED_FIBRE
    let s := (s.setF (laserPage p) R.laser.BRANCH_CLOSED_FIBRE (f - 2 ^ k)).emit (.light p true)
    let s := s.openBranches p.half p.oe (s.ownBranches p)
    let s := ((s.updPort p (fun y => { y with probing := false })).search p x).setO p 2
    let s := s.updPort p (fun y => { y with retrain := false })
    if s.lstate p ≠ 0 then s
    else if s.isSet p.page R.oport.PORT_CFG_REACH && !s.isSet (.oe p.half p.oe) R.oe.BLK_CAP_FAR_REACH then s.linkEvt p 12
    else s.setL p 1
  else s.emitProbe p) s)) ∧
  (∀ (m : Master) (p : PortId) (s : State),
    s.reaches m → s.answers p.page →
    exec (.shut m p) s = .next (((((s.closePort p 8).setF p.page R.oport.BLK_CTL_SHUT 1).setMove p .left).endHandOver p.half p.oe).onQueue s)) ∧
  (∀ (m : Master) (p : PortId) (s : State),
    s.reaches m → s.answers p.page →
    exec (.unshut m p) s = .next ((s.setF p.page R.oport.BLK_CTL_SHUT 0).onQueue s)) ∧
  (∀ (m : Master) (p : PortId) (x : SearchObs) (s : State),
    s.reaches m → s.answers p.page → s.ostate p = 3 →
    exec (.research m p x) s = .next (State.onQueue (
    let t := (((s.linkDown p 8).search p x).setO p 2).updPort p (fun y => { y with retrain := false })
    if t.lstate (t.lead p) = 4 then t.leaveWaiting (t.lead p) else t) s)) ∧
  (∀ (m : Master) (p : PortId) (x : SearchObs) (s : State),
    s.reaches m → s.answers p.page → s.ostate p ≠ 3 →
    exec (.research m p x) s = .next ((s.err p.page 0 { status := 1 }).onQueue s))

/-- The power states of an OE: which state takes which request, what each transition does, and STATE_ERR elsewhere. Rules: 06 R202, 06 R203, 06 R204, 06 R205, 06 Table 6.10, 06 Table 6.11, 11 R341, 01 R33. -/
def Obligations.OePowerStates : Prop :=
  (∀ (m : Master) (h : Half) (o : Fin 8) (s : State),
    s.reaches m → s.answers (.oe h o) → s.pstate h o = 1 ∨ s.pstate h o = 2 ∨ s.pstate h o = 3 →
    exec (.oeReqOff m h o) s = .next ((s.lowerOe h o 0 0).onQueue s)) ∧
  (∀ (m : Master) (h : Half) (o : Fin 8) (s : State),
    s.reaches m → s.answers (.oe h o) → s.pstate h o = 0 ∨ 4 ≤ s.pstate h o →
    exec (.oeReqOff m h o) s = .next ((s.err (.oe h o) 0 { status := 1 }).onQueue s)) ∧
  (∀ (m : Master) (h : Half) (o : Fin 8) (s : State),
    s.reaches m → s.answers (.oe h o) → s.pstate h o = 2 ∨ s.pstate h o = 3 →
    exec (.oeReqDark m h o) s = .next (((s.darkOn ((oePorts h o).map (·.no))).lowerOe h o 1 1).onQueue s)) ∧
  (∀ (m : Master) (h : Half) (o : Fin 8) (s : State),
    s.reaches m → s.answers (.oe h o) → s.pstate h o ≤ 1 ∨ 4 ≤ s.pstate h o →
    exec (.oeReqDark m h o) s = .next ((s.err (.oe h o) 0 { status := 1 }).onQueue s)) ∧
  (∀ (m : Master) (h : Half) (o : Fin 8) (s : State),
    s.reaches m → s.answers (.oe h o) → s.pstate h o = 3 →
    exec (.oeReqDim m h o) s = .next ((s.askDim h o).onQueue s)) ∧
  (∀ (m : Master) (h : Half) (o : Fin 8) (s : State),
    s.reaches m → s.answers (.oe h o) → s.pstate h o ≠ 3 →
    exec (.oeReqDim m h o) s = .next ((s.err (.oe h o) 0 { status := 1 }).onQueue s)) ∧
  (∀ (m : Master) (h : Half) (o : Fin 8) (s : State),
    s.reaches m → s.answers (.oe h o) → s.pstate h o = 2 →
    exec (.oeReqActive m h o) s = .next ((s.wakeDim h o).onQueue s)) ∧
  (∀ (m : Master) (h : Half) (o : Fin 8) (s : State),
    s.reaches m → s.answers (.oe h o) → s.pstate h o ≤ 1 →
    exec (.oeReqActive m h o) s = .next (((s.allLasers h o 2).setF (.oe h o) R.oe.BLK_STS_PSTATE 4).onQueue s)) ∧
  (∀ (m : Master) (h : Half) (o : Fin 8) (s : State),
    s.reaches m → s.answers (.oe h o) → 3 ≤ s.pstate h o →
    exec (.oeReqActive m h o) s = .next ((s.err (.oe h o) 0 { status := 1 }).onQueue s)) ∧
  (∀ (h : Half) (o : Fin 8) (us : BitVec 24) (w : WakeObs) (s : State),
    s.answers (.oe h o) → s.pstate h o = 4 →
    exec (.oeWakeDone h o us w) s = .next (State.onQueue (
    let t := ((s.lightLasers h o).setFs (.oe h o) [(R.oe.BLK_STS_PSTATE, 3), (R.oe.WAKE_TIME_US, us.toNat)]).wakeDom h (28 + o.val)
    let t := if (s.oe h o.val).rings.isEmpty then t.modCalOe h o w.modCalBad else t
    if w.late then t.err (.oe h o) 8 { info := bytesOf 2 (64 * halfNo h + 8 * o.val) } else t) s)) ∧
  (∀ (h : Half) (o : Fin 8) (s : State),
    s.answers (.oe h o) → s.pstate h o = 2 →
    exec (.oeDimWake h (.flit o)) s = .next ((s.wakeDim h o).onQueue s)) ∧
  (∀ (h : Half) (o : Fin 8) (k : Fin 8) (s : State),
    s.answers (.oe h o) → s.pstate h o = 2 → bit (s.getF (.laser h o) R.laser.BRANCH_CLOSED_FIBRE) k.val = false →
    exec (.oeDimWake h (.pattern o k)) s = .next ((s.wakeDim h o).onQueue s)) ∧
  (∀ (h : Half) (o : Fin 8) (s : State),
    s.answers (.oe h o) → s.pstate h o = 3 →
    exec (.oeIdleDim h o) s = .next ((s.askDim h o).onQueue s)) ∧
  (∀ (h : Half) (o : Fin 8) (s : State),
    s.answers (.oe h o) → s.pstate h o = 2 ∨ s.pstate h o = 3 → (oePorts h o).all (fun p => s.lstate p ≠ 2 && s.lstate p ≠ 3) →
    exec (.oeIdleDark h o) s = .next ((s.lowerOe h o 1 1).onQueue s)) ∧
  (∀ (p : PortId) (s : State),
    s.answers (s.lead p).page → s.lstate (s.lead p) = 2 → (s.port (s.lead p)).asleep →
    exec (.sleepExchangeTimeout p) s = .next ((((s.linkEvt (s.lead p) 9).linkDown (s.lead p) 8).dimCheck (s.lead p).half (s.lead p).oe).onQueue s)) ∧
  (∀ (m : Master) (h : Half) (o : Fin 8) (s : State),
    s.reaches m → s.halfUp h → s.die (dieOe h o) = .up → s.isSet (.oe h o) R.hdr.BLK_STS_RESET_BUSY = false →
    exec (.oeReset m h o) s = .next ((s.resetOe h o).onQueue s)) ∧
  (∀ (m : Master) (h : Half) (o : Fin 8) (s : State),
    s.reaches m → s.halfUp h → s.die (dieOe h o) = .up → s.isSet (.oe h o) R.hdr.BLK_STS_RESET_BUSY →
    exec (.oeReset m h o) s = .next ((s.err (.oe h o) 0 { status := 1 }).onQueue s)) ∧
  (∀ (m : Master) (h : Half) (o : Fin 8) (s : State),
    s.reaches m → s.halfUp h → s.die (dieOe h o) = .fenced ∨ s.die (dieOe h o) = .lost →
    exec (.oeReset m h o) s = .next ((s.resetOe h o).onQueue s)) ∧
  (∀ (h : Half) (x : OeStart) (s : State),
    s.answers (.oe h x.oe) → s.pstate h x.oe = 5 →
    exec (.oeResetDone h x) s = .next (State.onQueue (
    let o := x.oe
  
    let s := (s.allLasers h o 0).setFs (.oe h o) [(R.oe.BLK_STS_PSTATE, 0), (R.hdr.BLK_STS_RESET_BUSY, 0)]
    let s := s.runOe h o (x.modBad.map (·.val)) x.modCalBad
    foldOver (.oe h o :: .laser h o :: (oePorts h o).map (·.page)) (fun p s => s.setReady p) s) s))

/-- What a sending slot of a link that is UP carries. Rules: 07 R211, 07 R212, 07 R214, 07 R233, 07 R234, 07 R236, 07 Table 7.1, 13 R412. -/
def Obligations.FlitSending : Prop :=
  (∀ (p : PortId) (s : State),
    let q := s.lead p
    s.answers q.page → s.linkUp q → (s.port q).alignDue ∨ 4095 ≤ (s.port q).alignGap →
    exec (.flitSend p) s = .next (((s.emitFlit q (s.hdrNow q 3 (s.txN q) 0 0 false) [] false).updPort q (fun x => { x with alignDue := false, ctlGap := x.ctlGap + 1 })).onQueue s)) ∧
  (∀ (p : PortId) (k : Nat) (s : State),
    let q := s.lead p
    s.answers q.page → s.linkUp q → (s.port q).alignDue = false → (s.port q).alignGap < 4095 → (s.port q).replay = some k →
    exec (.flitSend p) s = .next ((s.sendReplay q k).onQueue s)) ∧
  (∀ (p : PortId) (s : State),
    let q := s.lead p
    s.answers q.page → s.linkUp q → (s.port q).alignDue = false → (s.port q).alignGap < 4095 → (s.port q).replay = none →
    exec (.flitSend p) s = .next (State.onQueue (
    let x := s.port q
    let a := s.mayData q (!x.lastRsp)
    let b := s.mayData q x.lastRsp
    if !x.ctl.isEmpty && (!(a || b) || x.ctlGap ≥ 15) then s.sendCtlFlit q
    else if a then s.sendData q (!x.lastRsp)
    else if b then s.sendData q x.lastRsp
    else s.sendCtlFlit q) s)) ∧
  (∀ (p : PortId) (s : State),
    let q := s.lead p
    s.answers q.page → s.linkUp q → 0 < (s.port q).sinceAck →
    exec (.ackUpdateTimer p) s = .next ((s.updPort q (fun x => { x with ackOut := s.rxE q, sinceAck := 0 })).onQueue s)) ∧
  (∀ (p : PortId) (s : State),
    let q := s.lead p
    s.answers q.page → s.linkUp q → s.txA q ≠ s.txN q →
    exec (.replayTimeout p) s = .next ((s.startReplay q (s.txA q)).onQueue s)) ∧
  (∀ (p : PortId) (ue : Bool) (s : State),
    let q := s.lead p
    s.answers q.page → ue →
    exec (.spillRead p ue) s = .next ((s.linkDown q 0xB).onQueue s))

/-- What one received flit of a link that is UP leaves, by its kind, its CRC and its number; and REFRESH_LOST, DROP_RX and CRC_TX. Rules: 07 R212, 07 R213, 07 R225, 07 R227, 07 R229, 07 R230, 07 R231, 07 R232, 07 R237, 07 R239, 07 R244, 13 R413. -/
def Obligations.FlitReceiving : Prop :=
  (∀ (p : PortId) (flit : List Byte) (s : State),
    let q := s.lead p
    s.answers q.page → s.linkUp q → flitGood flit = false →
    exec (.dataFlitReceive p flit) s = .next ((s.takeHeader q false (hdrOf flit)).onQueue s)) ∧
  (∀ (p : PortId) (flit : List Byte) (s : State),
    let q := s.lead p
    s.answers q.page → s.linkUp q → flitGood flit → (s.port q).dropRx → (hdrOf flit).kind < 2 →
    exec (.dataFlitReceive p flit) s = .next (((s.updPort q (fun x => { x with dropRx := false })).takeHeader q false (hdrOf flit)).onQueue s)) ∧
  (∀ (p : PortId) (flit : List Byte) (s : State),
    let q := s.lead p
    s.answers q.page → s.linkUp q → flitGood flit → ((s.port q).dropRx && (hdrOf flit).kind < 2) = false → s.noRoom q (hdrOf flit) →
    exec (.dataFlitReceive p flit) s = .next (((s.linkEvt q 13).takeHeader q false (hdrOf flit)).onQueue s)) ∧
  (∀ (p : PortId) (flit : List Byte) (s : State),
    let q := s.lead p
    s.answers q.page → s.linkUp q → flitGood flit → 2 ≤ (hdrOf flit).kind →
    exec (.dataFlitReceive p flit) s = .next ((s.takeHeader q true (hdrOf flit)).onQueue s)) ∧
  (∀ (p : PortId) (flit : List Byte) (s : State),
    let q := s.lead p
    let x := hdrOf flit
    s.answers q.page → s.linkUp q → flitGood flit → x.kind < 2 → (s.port q).dropRx = false → s.noRoom q x = false → (s.takeHeader q true x).linkUp q →
    exec (.dataFlitReceive p flit) s = .next (State.onQueue (
    let t := s.takeHeader q true x
    let d := dist16 (t.rxE q) x.seq
    let inj := x.enc && t.armed .sec 11
    let t := if inj then t.disarm .sec else t
    if d ≥ 32768 then t.addSat q.page R.oport.DUP_CNT_COUNT 1
    else if d ≠ 0 then t.drawNak q
    else if !t.tagOk q x flit inj then ((t.addSat .sec R.sec.TAG_FAIL_CNT_COUNT 1).err .sec 11 { inj := inj }).drawNak q
    else if !plenOk x then (t.acceptFlit q (x.kind = 1) none).linkEvt q 4
    else t.acceptFlit q (x.kind = 1) (some x.plen)) s)) ∧
  (∀ (p : PortId) (lanes : List (List Nat)) (s : State),
    s.answers p.page → s.linkUp (s.lead p) →
    exec (.alignFlit p lanes) s = .next (State.onQueue (
    let l := s.lead p
  
    let n := s.lanesUp l
    let w := s.getF l.page R.oport.PORT_STS_WIDTH
    let flit := offLanes n 0 lanes
    let good := flitGood flit && (hdrOf flit).kind = 3
    let ms := s.bondOf l
    let s := foldOver ((List.range ms.length).zip ms) (fun e s =>
      (s.updPort e.2 (fun x => { x with unlock := (List.range w).filter (fun i => !laneInLock n flit (16 * e.1 + i)) })).moveAtAlign e.2 good) s
    let s := if good then s.updPort l (fun x => { x with waking := false }) else s
    s.takeHeader l good (hdrOf flit)) s)) ∧
  (∀ (p : PortId) (s : State),
    let q := s.lead p
    s.answers q.page → s.linkUp q →
    exec (.refreshLost p) s = .next (((s.updPort q (fun x => { x with stale := true })).linkEvt q 10).onQueue s)) ∧
  (∀ (m : Master) (p : PortId) (s : State),
    s.reaches m → s.answers p.page → s.isSet .sec R.sec.SEC_CTL_INJ_DIS = false →
    exec (.dropRx m p) s = .next ((s.updPort (s.lead p) (fun x => { x with dropRx := true })).onQueue s)) ∧
  (∀ (m : Master) (p : PortId) (s : State),
    s.reaches m → s.isSet .sec R.sec.SEC_CTL_INJ_DIS →
    exec (.dropRx m p) s = .next ((s).onQueue s)) ∧
  (∀ (m : Master) (p : PortId) (s : State),
    s.reaches m → s.answers p.page → s.isSet .sec R.sec.SEC_CTL_INJ_DIS = false →
    exec (.crcTx m p) s = .next ((s.updPort (s.lead p) (fun x => { x with crcTx := true })).onQueue s)) ∧
  (∀ (m : Master) (p : PortId) (s : State),
    s.reaches m → s.isSet .sec R.sec.SEC_CTL_INJ_DIS →
    exec (.crcTx m p) s = .next ((s).onQueue s))

/-- Link down, hold, training messages, failed trainings, sleep and wake. Rules: 07 R216, 07 R219, 07 R221, 07 R222, 07 R226, 07 R238, 07 R239, 07 R240, 07 R241, 07 R242, 07 Table 7.8, 07 Table 7.10. -/
def Obligations.LinkStates : Prop :=
  (∀ (p : PortId) (s : State),
    let q := s.lead p
    s.answers q.page → s.linkUp q → s.isSet q.page R.oport.LINK_STS_XOFF_REQ ∨ s.isSet q.page R.oport.LINK_STS_XOFF_RSP ∨ (s.port q).stale →
    exec (.xoffTimeout p) s = .next ((s.linkDown q 5).onQueue s)) ∧
  (∀ (p : PortId) (lane : Fin 16) (s : State),
    let q := s.lead p
    s.answers p.page → s.linkUp q → s.narrow q = false → s.laneCh p R.oport.LANE_RX_CH lane.val ≠ 0xFF →
    exec (.lockLossTimeout p lane) s = .next ((match (s.port p).hoRx with
    | some e => if s.laneCh p R.oport.LANE_RX_CH lane.val = e.1 then s.switchRx p e.1 e.2 else s.linkDown q 2
    | none => s.linkDown q 2).onQueue s)) ∧
  (∀ (p : PortId) (lane : Fin 16) (s : State),
    s.narrow (s.lead p) →
    exec (.lockLossTimeout p lane) s = .next ((s).onQueue s)) ∧
  (∀ (p : PortId) (s : State),
    s.answers p.page →
    exec (.partnerTrainingBlocks p) s = .next ((s.linkDown (s.lead p) 7).onQueue s)) ∧
  (∀ (p : PortId) (cause : BitVec 4) (width : Nat) (s : State),
    let q := s.lead p
    s.answers q.page → s.linkUp q →
    exec (.retrainReq p cause width) s = .next (((s.linkDown q cause.toNat).updPort q (fun x => { x with trnW := if [4, 8, 16].contains width then width else 0 })).onQueue s)) ∧
  (∀ (p : PortId) (s : State),
    let q := s.lead p
    s.answers q.page → s.isHeldLink q →
    exec (.holdExpire p) s = .next (((s.linkEvt q 3).holdFail q).onQueue s)) ∧
  (∀ (p : PortId) (x : TrnParam) (s : State),
    s.answers p.page → s.lstate p = 1 →
    exec (.trnParam p x) s = .next ((s.updPort p (fun y => { y with trn := some x })).onQueue s)) ∧
  (∀ (p : PortId) (x : TrnParam) (s : State),
    s.answers p.page → s.lstate p = 2 →
    exec (.trnParam p x) s = .next ((s.updPort p (fun y => { y with ptoken := x.token })).onQueue s)) ∧
  (∀ (p : PortId) (v : Word) (s : State),
    s.answers p.page → s.lstate p = 1 →
    exec (.trnEcho p v) s = .next ((s.trainMsg p 0x11 (bytesOf 1 0 ++ bytesOf 4 v.toNat)).onQueue s)) ∧
  (∀ (p : PortId) (w : Nat) (resume : Bool) (s : State),
    s.answers p.page → s.lstate p = 1 →
    exec (.trnDone p w resume) s = .next ((s.updPort p (fun y => { y with trnW := if [4, 8, 16].contains w then w else y.trnW, trnRes := some resume })).onQueue s)) ∧
  (∀ (p : PortId) (s : State),
    let q := s.lead p
    s.answers q.page → s.lstate q = 1 → (s.port q).fails = 0 →
    exec (.trainStepTimeout p) s = .next ((s.updPort q (fun x => { x with fails := 1 })).onQueue s)) ∧
  (∀ (p : PortId) (s : State),
    let q := s.lead p
    s.answers q.page → s.lstate q = 1 → (s.port q).fails ≠ 0 → (s.port q).resets < 3 →
    exec (.trainStepTimeout p) s = .next ((((s.updPort q (fun x => { x with fails := 0, resets := x.resets + 1, trn := none, trnW := 0, trnRes := none })).linkEvt q 1).retrainOptics (s.bondOf q)).onQueue s)) ∧
  (∀ (p : PortId) (s : State),
    let q := s.lead p
    s.answers q.page → s.lstate q = 1 → (s.port q).fails ≠ 0 → 3 ≤ (s.port q).resets →
    exec (.trainStepTimeout p) s = .next ((((s.setMembers q R.oport.LINK_STS_LSTATE 4).updPort q (fun x => { x with fails := 0, resets := 0 })).linkEvt q 6).onQueue s)) ∧
  (∀ (p : PortId) (s : State),
    let q := s.lead p
    s.answers q.page → s.lstate q = 4 →
    exec (.waitingExpiry p) s = .next (((((s.setMembers q R.oport.LINK_STS_LSTATE 1).updPort q (fun x => { x with fails := 0, resets := 1, trn := none, trnW := 0, trnRes := none })).linkEvt q 1).retrainOptics (s.bondOf q)).onQueue s)) ∧
  (∀ (p : PortId) (s : State),
    let q := s.lead p
    s.answers q.page → s.lstate q = 2 →
    exec (.sleepReq p) s = .next (((s.updPort q (fun x => { x with sleepFor := true })).sleepCheck q).onQueue s)) ∧
  (∀ (p : PortId) (s : State),
    let q := s.lead p
    s.answers q.page → s.lstate q = 2 → (s.port q).asleep →
    exec (.sleepAck p) s = .next (((s.updPort q (fun x => { x with sleepOk := true })).sleepCheck q).onQueue s)) ∧
  (∀ (p : PortId) (s : State),
    let q := s.lead p
    s.answers q.page → s.lstate q = 3 → s.pstate q.half q.oe ≠ 2 →
    exec (.linkWake p) s = .next (State.onQueue (
    let t := if (s.port q).txReq.isEmpty && (s.port q).txRsp.isEmpty then s else foldOver (s.bondOf q) (fun m s => s.emit (.wake m)) s
    let t := t.setMembers q R.oport.LINK_STS_LSTATE 2
    let t := foldOver (t.bondOf q) (fun m (t : State) =>
      if t.getF m.page R.oport.BLK_STS_OSTATE = 5 then t.setF m.page R.oport.BLK_STS_OSTATE 3 else t) t
    t.updPort q (fun x => { x with alignDue := true, waking := true })) s)) ∧
  (∀ (p : PortId) (s : State),
    let q := s.lead p
    s.answers q.page → s.lstate q = 2 → (s.port q).waking →
    exec (.sleepWakeTimeout p) s = .next (((s.linkEvt q 9).linkDown q 0xA).onQueue s))

/-- RD, WR, ATOM, MSG and an unknown opcode complete: what the device answers to each, for a request executed, repeated, held, refused or malformed. Rules: 08 R245, 08 R248, 08 R250, 08 R263, 08 R266, 08 R270, 08 R271, 08 Table 8.1, 08 Table 8.3, 08 Table 8.8. -/
def Obligations.FabricRequests : Prop :=
  (∀ (p : PortId) (m : ReqMsg) (q : Nat) (s : State),
    let y : ReqMsg := { m with opc := 1 }
    let t := s.takeMsg p (.req y)
    s.answers p.page → t.carries p → t.isOwn m.dfid.toNat → badReq y = false → t.partFor (some (t.lead p)) p.half y = some q → t.reqHeld (some (t.lead p)) p.half y = false → y.once = false ∨ t.rcRuns y →
    exec (.rd p m) s = .next (State.onQueue (
    let r := t.execReq p.half q y
    let u := if y.once then r.1.rcPut y true r.2.1 (r.2.2.take 8) else r.1
    (u.sendFree p.half y.sfid.toNat (.rsp (r.1.rspTo y r.2.1 false false r.2.2))).settle) s)) ∧
  (∀ (p : PortId) (m : ReqMsg) (s : State),
    let y : ReqMsg := { m with opc := 1 }
    let t := s.takeMsg p (.req y)
    s.answers p.page → t.carries p → t.isOwn m.dfid.toNat → badReq y →
    exec (.rd p m) s = .next (((t.sendFree p.half y.sfid.toNat (.rsp (t.rspTo y 2 false false []))).settle).onQueue s)) ∧
  (∀ (p : PortId) (m : ReqMsg) (s : State),
    let y : ReqMsg := { m with opc := 1 }
    let t := s.takeMsg p (.req y)
    s.answers p.page → t.carries p → t.isOwn m.dfid.toNat → badReq y = false → t.partFor (some (t.lead p)) p.half y = none →
    exec (.rd p m) s = .next (State.onQueue (
    let u := t.fabEvt p.half 10 y.sfid.toNat y.tag.toNat { status := 3, detail := 0x96 }
    (u.sendFree p.half y.sfid.toNat (.rsp (t.rspTo y 3 false false []))).settle) s)) ∧
  (∀ (p : PortId) (m : ReqMsg) (q : Nat) (x : Nat × RcEnt) (s : State),
    let y : ReqMsg := { m with opc := 1 }
    let t := s.takeMsg p (.req y)
    s.answers p.page → t.carries p → t.isOwn m.dfid.toNat → badReq y = false → t.partFor (some (t.lead p)) p.half y = some q → t.reqHeld (some (t.lead p)) p.half y = false → y.once → t.rcAhead y = some x → x.1 = 0 → x.2.done →
    exec (.rd p m) s = .next (State.onQueue (
    let u := t.addSat (.comb (t.reqHome y)) R.comb.DUP_CNT_COUNT 1
    let n := if y.opc = 1 && x.2.status = 0 then y.len.toNat else x.2.data.length
    let data := (x.2.data ++ (List.range (n - x.2.data.length)).map (fun i => Config.freeAt t.fresh i)).take n
    ((u.drawn 1).sendFree p.half y.sfid.toNat (.rsp (t.rspTo y x.2.status true false data))).settle) s)) ∧
  (∀ (p : PortId) (m : ReqMsg) (s : State),
    let y : ReqMsg := { m with opc := 1 }
    let t := s.takeMsg p (.req y)
    s.answers p.page → t.carries p → t.isOwn m.dfid.toNat → t.reqHeld (some (t.lead p)) p.half y →
    exec (.rd p m) s = .next (State.onQueue (
    let u := { t with mem := { t.mem with held := t.mem.held ++ [Held.fab p y] } }
    if y.once then u.rcPut y false 0 [] else u) s)) ∧
  (∀ (p : PortId) (m : ReqMsg) (q : Nat) (s : State),
    let y : ReqMsg := { m with opc := 2 }
    let t := s.takeMsg p (.req y)
    s.answers p.page → t.carries p → t.isOwn m.dfid.toNat → badReq y = false → t.partFor (some (t.lead p)) p.half y = some q → t.reqHeld (some (t.lead p)) p.half y = false → y.once = false ∨ t.rcRuns y →
    exec (.wr p m) s = .next (State.onQueue (
    let r := t.execReq p.half q y
    let u := if y.once then r.1.rcPut y true r.2.1 (r.2.2.take 8) else r.1
    (u.sendFree p.half y.sfid.toNat (.rsp (r.1.rspTo y r.2.1 false false r.2.2))).settle) s)) ∧
  (∀ (p : PortId) (m : ReqMsg) (s : State),
    let y : ReqMsg := { m with opc := 2 }
    let t := s.takeMsg p (.req y)
    s.answers p.page → t.carries p → t.isOwn m.dfid.toNat → badReq y →
    exec (.wr p m) s = .next (((t.sendFree p.half y.sfid.toNat (.rsp (t.rspTo y 2 false false []))).settle).onQueue s)) ∧
  (∀ (p : PortId) (m : ReqMsg) (s : State),
    let y : ReqMsg := { m with opc := 2 }
    let t := s.takeMsg p (.req y)
    s.answers p.page → t.carries p → t.isOwn m.dfid.toNat → badReq y = false → t.partFor (some (t.lead p)) p.half y = none →
    exec (.wr p m) s = .next (State.onQueue (
    let u := t.fabEvt p.half 10 y.sfid.toNat y.tag.toNat { status := 3, detail := 0x96 }
    (u.sendFree p.half y.sfid.toNat (.rsp (t.rspTo y 3 false false []))).settle) s)) ∧
  (∀ (p : PortId) (m : ReqMsg) (q : Nat) (x : Nat × RcEnt) (s : State),
    let y : ReqMsg := { m with opc := 2 }
    let t := s.takeMsg p (.req y)
    s.answers p.page → t.carries p → t.isOwn m.dfid.toNat → badReq y = false → t.partFor (some (t.lead p)) p.half y = some q → t.reqHeld (some (t.lead p)) p.half y = false → y.once → t.rcAhead y = some x → x.1 = 0 → x.2.done →
    exec (.wr p m) s = .next (State.onQueue (
    let u := t.addSat (.comb (t.reqHome y)) R.comb.DUP_CNT_COUNT 1
    let n := if y.opc = 1 && x.2.status = 0 then y.len.toNat else x.2.data.length
    let data := (x.2.data ++ (List.range (n - x.2.data.length)).map (fun i => Config.freeAt t.fresh i)).take n
    ((u.drawn 1).sendFree p.half y.sfid.toNat (.rsp (t.rspTo y x.2.status true false data))).settle) s)) ∧
  (∀ (p : PortId) (m : ReqMsg) (s : State),
    let y : ReqMsg := { m with opc := 2 }
    let t := s.takeMsg p (.req y)
    s.answers p.page → t.carries p → t.isOwn m.dfid.toNat → t.reqHeld (some (t.lead p)) p.half y →
    exec (.wr p m) s = .next (State.onQueue (
    let u := { t with mem := { t.mem with held := t.mem.held ++ [Held.fab p y] } }
    if y.once then u.rcPut y false 0 [] else u) s)) ∧
  (∀ (p : PortId) (m : ReqMsg) (q : Nat) (s : State),
    let y : ReqMsg := { m with opc := 3 }
    let t := s.takeMsg p (.req y)
    s.answers p.page → t.carries p → t.isOwn m.dfid.toNat → badReq y = false → t.partFor (some (t.lead p)) p.half y = some q → t.reqHeld (some (t.lead p)) p.half y = false → y.once = false ∨ t.rcRuns y →
    exec (.atom p m) s = .next (State.onQueue (
    let r := t.execReq p.half q y
    let u := if y.once then r.1.rcPut y true r.2.1 (r.2.2.take 8) else r.1
    (u.sendFree p.half y.sfid.toNat (.rsp (r.1.rspTo y r.2.1 false false r.2.2))).settle) s)) ∧
  (∀ (p : PortId) (m : ReqMsg) (s : State),
    let y : ReqMsg := { m with opc := 3 }
    let t := s.takeMsg p (.req y)
    s.answers p.page → t.carries p → t.isOwn m.dfid.toNat → badReq y →
    exec (.atom p m) s = .next (((t.sendFree p.half y.sfid.toNat (.rsp (t.rspTo y 2 false false []))).settle).onQueue s)) ∧
  (∀ (p : PortId) (m : ReqMsg) (s : State),
    let y : ReqMsg := { m with opc := 3 }
    let t := s.takeMsg p (.req y)
    s.answers p.page → t.carries p → t.isOwn m.dfid.toNat → badReq y = false → t.partFor (some (t.lead p)) p.half y = none →
    exec (.atom p m) s = .next (State.onQueue (
    let u := t.fabEvt p.half 10 y.sfid.toNat y.tag.toNat { status := 3, detail := 0x96 }
    (u.sendFree p.half y.sfid.toNat (.rsp (t.rspTo y 3 false false []))).settle) s)) ∧
  (∀ (p : PortId) (m : ReqMsg) (q : Nat) (x : Nat × RcEnt) (s : State),
    let y : ReqMsg := { m with opc := 3 }
    let t := s.takeMsg p (.req y)
    s.answers p.page → t.carries p → t.isOwn m.dfid.toNat → badReq y = false → t.partFor (some (t.lead p)) p.half y = some q → t.reqHeld (some (t.lead p)) p.half y = false → y.once → t.rcAhead y = some x → x.1 = 0 → x.2.done →
    exec (.atom p m) s = .next (State.onQueue (
    let u := t.addSat (.comb (t.reqHome y)) R.comb.DUP_CNT_COUNT 1
    let n := if y.opc = 1 && x.2.status = 0 then y.len.toNat else x.2.data.length
    let data := (x.2.data ++ (List.range (n - x.2.data.length)).map (fun i => Config.freeAt t.fresh i)).take n
    ((u.drawn 1).sendFree p.half y.sfid.toNat (.rsp (t.rspTo y x.2.status true false data))).settle) s)) ∧
  (∀ (p : PortId) (m : ReqMsg) (s : State),
    let y : ReqMsg := { m with opc := 3 }
    let t := s.takeMsg p (.req y)
    s.answers p.page → t.carries p → t.isOwn m.dfid.toNat → t.reqHeld (some (t.lead p)) p.half y →
    exec (.atom p m) s = .next (State.onQueue (
    let u := { t with mem := { t.mem with held := t.mem.held ++ [Held.fab p y] } }
    if y.once then u.rcPut y false 0 [] else u) s)) ∧
  (∀ (p : PortId) (m : ReqMsg) (q : Nat) (s : State),
    let y : ReqMsg := { m with opc := 4 }
    let t := s.takeMsg p (.req y)
    s.answers p.page → t.carries p → t.isOwn m.dfid.toNat → badReq y = false → t.partFor (some (t.lead p)) p.half y = some q → t.reqHeld (some (t.lead p)) p.half y = false → y.once = false ∨ t.rcRuns y →
    exec (.msg p m) s = .next (State.onQueue (
    let r := t.execReq p.half q y
    let u := if y.once then r.1.rcPut y true r.2.1 (r.2.2.take 8) else r.1
    (u.sendFree p.half y.sfid.toNat (.rsp (r.1.rspTo y r.2.1 false false r.2.2))).settle) s)) ∧
  (∀ (p : PortId) (m : ReqMsg) (s : State),
    let y : ReqMsg := { m with opc := 4 }
    let t := s.takeMsg p (.req y)
    s.answers p.page → t.carries p → t.isOwn m.dfid.toNat → badReq y →
    exec (.msg p m) s = .next (((t.sendFree p.half y.sfid.toNat (.rsp (t.rspTo y 2 false false []))).settle).onQueue s)) ∧
  (∀ (p : PortId) (m : ReqMsg) (s : State),
    let y : ReqMsg := { m with opc := 4 }
    let t := s.takeMsg p (.req y)
    s.answers p.page → t.carries p → t.isOwn m.dfid.toNat → badReq y = false → t.partFor (some (t.lead p)) p.half y = none →
    exec (.msg p m) s = .next (State.onQueue (
    let u := t.fabEvt p.half 10 y.sfid.toNat y.tag.toNat { status := 3, detail := 0x96 }
    (u.sendFree p.half y.sfid.toNat (.rsp (t.rspTo y 3 false false []))).settle) s)) ∧
  (∀ (p : PortId) (m : ReqMsg) (q : Nat) (x : Nat × RcEnt) (s : State),
    let y : ReqMsg := { m with opc := 4 }
    let t := s.takeMsg p (.req y)
    s.answers p.page → t.carries p → t.isOwn m.dfid.toNat → badReq y = false → t.partFor (some (t.lead p)) p.half y = some q → t.reqHeld (some (t.lead p)) p.half y = false → y.once → t.rcAhead y = some x → x.1 = 0 → x.2.done →
    exec (.msg p m) s = .next (State.onQueue (
    let u := t.addSat (.comb (t.reqHome y)) R.comb.DUP_CNT_COUNT 1
    let n := if y.opc = 1 && x.2.status = 0 then y.len.toNat else x.2.data.length
    let data := (x.2.data ++ (List.range (n - x.2.data.length)).map (fun i => Config.freeAt t.fresh i)).take n
    ((u.drawn 1).sendFree p.half y.sfid.toNat (.rsp (t.rspTo y x.2.status true false data))).settle) s)) ∧
  (∀ (p : PortId) (vcReq : Bool) (m : ReqMsg) (s : State),
    let t := s.takeMsg p (.req m)
    s.answers p.page → t.carries p → t.isOwn m.dfid.toNat → knownOpc m.opc.toNat = false → vcReq →
    exec (.unknownOpc p vcReq m) s = .next ((t.sendFree p.half m.sfid.toNat (.rsp (t.rspTo m 0xB false false []))).onQueue s)) ∧
  (∀ (p : PortId) (vcReq : Bool) (m : ReqMsg) (s : State),
    let t := s.takeMsg p (.rsp { (s.rspTo m 0 false false m.data) with opc := m.opc, dfid := m.dfid, sfid := m.sfid, hops := m.hops })
    s.answers p.page → t.carries p → t.isOwn m.dfid.toNat → knownOpc m.opc.toNat = false → vcReq = false →
    exec (.unknownOpc p vcReq m) s = .next ((t).onQueue s))

/-- Waggles: neighbours, sessions, refusals and DARK. Rules: 08 R252, 08 R254, 08 R255, 08 R256, 08 R257, 08 R258, 08 R260, 08 R274, 08 Table 8.5, 08 Table 8.7. -/
def Obligations.FabricSessions : Prop :=
  (∀ (p : PortId) (w : Waggle) (s : State),
    s.answers (s.lead p).page → s.linkUp (s.lead p) → s.isBypass (s.lead p) = false →
    exec (.hello p w) s = .next (State.onQueue (
    let l := s.lead p
    let t := (s.takeMsg l (s.waggleMsg 0 1 w)).updPort l (fun x => { x with hello := true })
    let t := { t with partners := t.partners.map (fun (e : Nat × PEntry) =>
      if e.2.fid = w.fid.toNat then e else (e.1, { e.2 with ports := e.2.ports.filter (· ≠ l.no) })) }
    let r := t.learn l.half w (some l)
    match r.2 with
    | none => (r.1.firstCand w.fid.toNat l.no).settle
    | some 3 => r.1.post l (r.1.waggleMsg w.fid.toNat 8 (r.1.ownWaggle 4 3 none))
    | some _ => r.1.settle) s)) ∧
  (∀ (p : PortId) (m : ReqMsg) (w : Waggle) (s : State),
    let t := s.takeMsg p (.req { m with opc := 8 })
    s.answers p.page → t.carries p → t.isOwn m.dfid.toNat →
    exec (.openMsg p m w) s = .next (State.onQueue (
    let r := t.learn p.half w none
    match r.2 with
    | none => (r.1.sendWaggle p.half 3 0 w.fid.toNat).settle
    | some why => (r.1.sendWaggle p.half 4 why w.fid.toNat).settle) s)) ∧
  (∀ (p : PortId) (m : ReqMsg) (w : Waggle) (s : State),
    let t := s.takeMsg p (.req { m with opc := 8 })
    s.answers p.page → t.carries p → t.isOwn m.dfid.toNat →
    exec (.accept p m w) s = .next ((if (t.entry w.fid.toNat).isSome then (t.learn p.half w none).1.settle else t).onQueue s)) ∧
  (∀ (p : PortId) (m : ReqMsg) (w : Waggle) (s : State),
    let t := s.takeMsg p (.req { m with opc := 8 })
    s.answers p.page → t.carries p → t.isOwn m.dfid.toNat →
    exec (.refuse p m w) s = .next (State.onQueue (
    let fid := w.fid.toNat
    match t.entry fid with
    | none => t
    | some e =>
      if !(e.2.st = ptOPENING || e.2.uid = w.uid.toNat) then t
      else if w.reason = 0xB then (t.setEntry e.1 { e.2 with st := ptINCOMPAT }).settle
      else if w.reason = 0xC then ((({ t with partners := merase t.partners e.1 }).endRequests fid 0xC 0x98).endColls fid 0xC 0x98).settle
      else
        let u := (t.setEntry e.1 { e.2 with st := ptCLASH, uid := w.uid.toNat, ports := [] }).fabEvt p.half 2 fid 0 { status := 3, detail := 0x9E }
        ((u.endRequests fid 3 0x9E).endColls fid 3 0x9E).settle) s)) ∧
  (∀ (p : PortId) (w : Waggle) (e : Nat × PEntry) (s : State),
    let t := s.takeMsg p (s.waggleMsg 0 1 w)
    s.answers p.page → t.entry w.fid.toNat = some e →
    exec (.dark p w) s = .next (((((t.setEntry e.1 { e.2 with st := ptDARK }).endRequests w.fid.toNat 4 0x93).endColls w.fid.toNat 4 0x93).settle).onQueue s)) ∧
  (∀ (p : PortId) (s : State),
    s.answers (s.lead p).page → s.linkUp (s.lead p) → (s.port (s.lead p)).hello = false → s.isBypass (s.lead p) = false →
    exec (.helloTimeout p) s = .next (((s.fabEvt (s.lead p).half 0 0 0 {}).sendHello (s.lead p)).onQueue s)) ∧
  (∀ (h : Half) (fid : BitVec 16) (e : Nat × PEntry) (s : State),
    s.entry fid.toNat = some e → e.2.st = ptOPENING →
    exec (.openRepeat h fid) s = .next ((s.sendWaggle h 2 0 fid.toNat).onQueue s))

/-- Responses, retries, lost paths, timeouts, and messages in transit. Rules: 08 R250, 08 R261, 08 R267, 08 R268, 08 R269, 08 R272, 08 R273, 08 Table 8.2, 08 Table 8.9. -/
def Obligations.FabricAnswers : Prop :=
  (∀ (p : PortId) (m : RspMsg) (r : FReq) (s : State),
    let y : RspMsg := { m with opc := 0x81 }
    let t := s.takeMsg p (.rsp y)
    s.answers p.page → t.carries p → t.isOwn m.dfid.toNat → m.rsvd = 0 → m.len.toNat = m.data.length → m.data.length ≤ 128 ∧ (m.status = 0 → m.data.length = r.msg.len.toNat) → t.matching y = some r → r.msg.opc ||| 0x80 = 0x81 → m.retry = false →
    exec (.rdData p m) s = .next (((t.reqDone m.tag.toNat m.status.toNat (if m.status.toNat = 0 then 0 else respDetail m.status.toNat) m.data).settle).onQueue s)) ∧
  (∀ (p : PortId) (m : RspMsg) (r : FReq) (s : State),
    let y : RspMsg := { m with opc := 0x82 }
    let t := s.takeMsg p (.rsp y)
    s.answers p.page → t.carries p → t.isOwn m.dfid.toNat → m.rsvd = 0 → m.len.toNat = m.data.length → m.data.length = 0 → t.matching y = some r → r.msg.opc ||| 0x80 = 0x82 → m.retry = false →
    exec (.wrAck p m) s = .next (((t.reqDone m.tag.toNat m.status.toNat (if m.status.toNat = 0 then 0 else respDetail m.status.toNat) m.data).settle).onQueue s)) ∧
  (∀ (p : PortId) (m : RspMsg) (r : FReq) (s : State),
    let y : RspMsg := { m with opc := 0x83 }
    let t := s.takeMsg p (.rsp y)
    s.answers p.page → t.carries p → t.isOwn m.dfid.toNat → m.rsvd = 0 → m.len.toNat = m.data.length → m.data.length = 8 ∨ (m.data.length = 0 ∧ m.status ≠ 0) → t.matching y = some r → r.msg.opc ||| 0x80 = 0x83 → m.retry = false →
    exec (.atomRsp p m) s = .next (((t.reqDone m.tag.toNat m.status.toNat (if m.status.toNat = 0 then 0 else respDetail m.status.toNat) m.data).settle).onQueue s)) ∧
  (∀ (p : PortId) (m : RspMsg) (r : FReq) (s : State),
    let y : RspMsg := { m with opc := 0x84 }
    let t := s.takeMsg p (.rsp y)
    s.answers p.page → t.carries p → t.isOwn m.dfid.toNat → m.rsvd = 0 → m.len.toNat = m.data.length → m.data.length = 0 → t.matching y = some r → r.msg.opc ||| 0x80 = 0x84 → m.retry = false →
    exec (.msgAck p m) s = .next (((t.reqDone m.tag.toNat m.status.toNat (if m.status.toNat = 0 then 0 else respDetail m.status.toNat) m.data).settle).onQueue s)) ∧
  (∀ (p : PortId) (m : RspMsg) (r : FReq) (s : State),
    let y : RspMsg := { m with opc := 0x82 }
    let t := s.takeMsg p (.rsp y)
    s.answers p.page → t.carries p → t.isOwn m.dfid.toNat → m.rsvd = 0 → m.len.toNat = 0 → m.data = [] → t.matching y = some r → r.msg.opc = 2 → m.retry →
    exec (.wrAck p m) s = .next ((t.updReq m.tag.toNat (fun r => { r with retry := true })).onQueue s)) ∧
  (∀ (p : PortId) (m : RspMsg) (s : State),
    let y : RspMsg := { m with opc := 0x82 }
    let t := s.takeMsg p (.rsp y)
    s.answers p.page → t.carries p → t.isOwn m.dfid.toNat → m.rsvd = 0 → m.len.toNat = 0 → m.data = [] → t.matching y = none →
    exec (.wrAck p m) s = .next ((t.fabEvt p.half 9 m.sfid.toNat m.tag.toNat {}).onQueue s)) ∧
  (∀ (p : PortId) (m : RspMsg) (r : FReq) (s : State),
    let y : RspMsg := { m with opc := 0x10 }
    let t := s.takeMsg p (.rsp y)
    s.answers p.page → t.carries p → t.isOwn m.dfid.toNat → t.matching y = some r →
    exec (.pathLost p m) s = .next (((t.resendOwn m.tag.toNat r.msg).settle).onQueue s)) ∧
  (∀ (p : PortId) (m : RspMsg) (s : State),
    let y : RspMsg := { m with opc := 0x10 }
    let t := s.takeMsg p (.rsp y)
    s.answers p.page → t.carries p → t.isOwn m.dfid.toNat → t.matching y = none →
    exec (.pathLost p m) s = .next ((t.fabEvt p.half 9 m.sfid.toNat m.tag.toNat {}).onQueue s)) ∧
  (∀ (tag : BitVec 15) (e : Nat × FReq) (s : State),
    s.reqs.find? (fun e => e.1 = tag.toNat) = some e →
    exec (.requestTimeout tag) s = .next (((if !s.isOwn e.2.msg.dfid.toNat && (s.route e.2.msg.dfid.toNat none (some e.2.part) false).isNone then s.reqDone tag.toNat 0xA 0x90 []
    else if e.2.touched then s.reqDone tag.toNat 4 0x92 []
    else s.reqDone tag.toNat 5 0x94 []).settle).onQueue s)) ∧
  (∀ (tag : BitVec 15) (late : Bool) (e : Nat × FReq) (s : State),
    s.reqs.find? (fun e => e.1 = tag.toNat) = some e → e.2.retry →
    exec (.retryResend tag late) s = .next ((if late then (s.reqDone tag.toNat 0xC 0x99 []).settle
    else if s.isOwn e.2.msg.dfid.toNat then
      ((s.updReq tag.toNat (fun r => { r with retry := false })).serveOwn (tagHalf tag.toNat) tag.toNat e.2.msg).settle
    else s.sendReq tag.toNat true false).onQueue s)) ∧
  (∀ (p : PortId) (m : FabMsg) (s : State),
    let t := s.takeMsg p m
    s.isOwn (dfidOf m) = false → s.answers p.page → t.fidOf ≠ none → t.carries p → t.isOwn (dfidOf m) = false →
    exec (.transitForward p m) s = .next ((t.forward p m).onQueue s)) ∧
  (∀ (h : Half) (sfid : BitVec 16) (session : BitVec 32) (tag : BitVec 15) (s : State),
    exec (.resultCacheExpire h sfid session tag) s = .next (({ s with rcache := s.rcache.filter (fun e =>       !(e.half = h && e.sfid = sfid.toNat && e.session = session.toNat && e.tag = tag.toNat && e.done)) }).onQueue s)) ∧
  (∀ (h : Half) (e : Nat × PortSt) (s : State),
    let old := fun (off : Nat) (l : List FabMsg) => (if off = 0 then l else l.drop 1).any s.isTransit
    s.ports.find? (fun e => e.1 / 64 = halfNo h && (old e.2.offReq e.2.txReq || old e.2.offRsp e.2.txRsp)) = some e →
    exec (.transitAgeExpire h) s = .next (State.onQueue (
    let drop := fun (off : Nat) (l : List FabMsg) =>
      if off = 0 then removeFirst s.isTransit l else l.take 1 ++ removeFirst s.isTransit (l.drop 1)
    let x := e.2
    let x' := if old x.offReq x.txReq then { x with txReq := drop x.offReq x.txReq } else { x with txRsp := drop x.offRsp x.txRsp }
    let t := { s with ports := s.ports.map (fun (k : Nat × PortSt) => if k.1 = e.1 then (k.1, x') else k) }
    (t.fabEvt h 5 0 0 {}).addSat (.comb h) R.comb.AGED_CNT_COUNT 1) s)) ∧
  (∀ (m : Master) (h : Half) (value : Word) (passed : List (BitVec 15)) (s : State),
    s.reaches m → s.answers (.comb h) → 1 ≤ bits value.toNat 13 0 → bits value.toNat 13 0 ≤ 10000 →
    exec (.fabTmo m h value passed) s = .next (((foldOver (passed.filter (fun t => tagHalf t.toNat = h)) (fun t (s : State) => s.expire t.toNat)
      (s.setF (.comb h) R.comb.FAB_TMO_MS (bits value.toNat 13 0))).settle).onQueue s)) ∧
  (∀ (m : Master) (h : Half) (value : Word) (passed : List (BitVec 15)) (s : State),
    s.reaches m → 1 ≤ bits value.toNat 13 0 → 10000 < bits value.toNat 13 0 →
    exec (.fabTmo m h value passed) s = .next ((s).onQueue s))

/-- Fabric contexts and command rings. Rules: 08 R264, 08 R265, 08 Table 8.9, 08 Table 8.10, 01 R33. -/
def Obligations.FabricRings : Prop :=
  (∀ (m : Master) (h : Half) (p : Fin 8) (value : Word) (s : State),
    s.reaches m → s.answers (.comb h) → bit value.toNat 0 = false →
    exec (.pfCtxLoad m h p value) s = .next ((s.setF (.comb h) (R.comb.PF_CTX_LO_ADDR.ix p.val) (bits value.toNat 31 6)).onQueue s)) ∧
  (∀ (m : Master) (h : Half) (p : Fin 8) (value : Word) (s : State),
    let t := s.setF (.comb h) (R.comb.PF_CTX_LO_ADDR.ix p.val) (bits value.toNat 31 6)
    s.reaches m → s.answers (.comb h) → bit value.toNat 0 → t.ctxBusy h p.val = false →
    exec (.pfCtxLoad m h p value) s = .next (State.onQueue (
    let a := t.getF (.comb h) (R.comb.PF_CTX_LO_ADDR.ix p.val) * 64 + t.getF (.comb h) (R.comb.PF_CTX_HI_ADDR.ix p.val) * 2 ^ 32
    let r := t.memRead h .dma 0 a 64
    let raw := natOf r.2.2
    let u := { r.1 with fctx := merase r.1.fctx (8 * halfNo h + p.val) }
    if r.2.1 ≠ 0 || !u.fctxOk h p.val raw then u.fabEvt h 13 0 0 { status := 2, parts := 2 ^ p.val }
    else u.setFctx h p.val { fctxInit with raw := raw }) s)) ∧
  (∀ (m : Master) (h : Half) (p : Fin 8) (value : Word) (s : State),
    let t := s.setF (.comb h) (R.comb.PF_CTX_LO_ADDR.ix p.val) (bits value.toNat 31 6)
    s.reaches m → s.answers (.comb h) → bit value.toNat 0 → t.ctxBusy h p.val →
    exec (.pfCtxLoad m h p value) s = .next ((t.err (.comb h) 0 { status := 1 }).onQueue s)) ∧
  (∀ (m : Master) (h : Half) (p : Fin 8) (value : Word) (hr : HostRead) (s : State),
    s.reaches m → s.answers (.comb h) → s.loaded h p.val = false →
    exec (.fcrDb m h p value hr) s = .next ((s.err (.comb h) 0 { status := 1 }).onQueue s)) ∧
  (∀ (m : Master) (h : Half) (p : Fin 8) (value : Word) (hr : HostRead) (s : State),
    s.reaches m → s.answers (.comb h) → s.loaded h p.val → 2 ^ bits (s.fctxOf h p.val).raw 131 128 ≤ bits value.toNat 15 0 →
    exec (.fcrDb m h p value hr) s = .next ((s.fabEvt h 13 0 0 { parts := 2 ^ p.val }).onQueue s)) ∧
  (∀ (m : Master) (h : Half) (p : Fin 8) (value : Word) (hr : HostRead) (s : State),
    s.reaches m → s.answers (.comb h) → s.loaded h p.val → bits value.toNat 15 0 < 2 ^ bits (s.fctxOf h p.val).raw 131 128 →
    exec (.fcrDb m h p value hr) s = .next (State.onQueue (
    let x := s.fctxOf h p.val
    let t := bits value.toNat 15 0
    let m := 2 ^ bits x.raw 131 128
    let r := s.readCmds h x.raw x.next ((t + m - x.next) % m) hr
    (r.1.setFctx h p.val { x with tail := t, next := (x.next + r.2.length) % m, todo := x.todo ++ r.2 }).settle) s))

/-- What the messages of a collective do at a member. Rules: 08 R275, 08 R277, 08 R278, 08 R279, 08 R280, 08 R281, 08 Table 8.14. -/
def Obligations.CollectiveMessages : Prop :=
  (∀ (p : PortId) (m : CollMsg) (c : CollSt) (s : State),
    let y : CollMsg := { m with opc := 0x20 }
    let t := s.takeMsg p (.coll y)
    s.answers p.page → t.carries p → t.isOwn m.dfid.toNat → m.rsvd = 0 → m.len.toNat = m.data.length → m.data ≠ [] → m.data.length ≤ 128 → c.accepts y → t.running y = some c →
    exec (.collData p m) s = .next ((t.takeSeg c y).onQueue s)) ∧
  (∀ (p : PortId) (m : CollMsg) (c : CollSt) (s : State),
    let y : CollMsg := { m with opc := 0x20 }
    let t := s.takeMsg p (.coll y)
    s.answers p.page → t.carries p → t.isOwn m.dfid.toNat → m.rsvd = 0 → m.len.toNat = m.data.length → m.data ≠ [] → m.data.length ≤ 128 → c.accepts y = false → t.running y = some c →
    exec (.collData p m) s = .next (((t.fabEvt p.half 11 m.sfid.toNat 0 { cost := 4, status := 2, detail := 0x9B }).failColl c 2 0x9B).onQueue s)) ∧
  (∀ (p : PortId) (m : CollMsg) (s : State),
    let y : CollMsg := { m with opc := 0x20 }
    let t := s.takeMsg p (.coll y)
    s.answers p.page → t.carries p → t.isOwn m.dfid.toNat → t.running y = none →
    exec (.collData p m) s = .next ((t).onQueue s)) ∧
  (∀ (p : PortId) (m : CollMsg) (c : CollSt) (s : State),
    let y : CollMsg := { m with opc := 0x21 }
    let t := s.takeMsg p (.coll y)
    s.answers p.page → t.carries p → t.isOwn m.dfid.toNat → m.rsvd = 0 → m.len = 0 → c.fids.contains m.sfid.toNat → t.running y = some c →
    exec (.collReady p m) s = .next (((t.updColl c (fun e => { e with ready := sadd e.ready m.sfid.toNat })).pumpColl c.half c.q c.slot).onQueue s)) ∧
  (∀ (p : PortId) (m : CollMsg) (s : State),
    let y : CollMsg := { m with opc := 0x21 }
    let t := s.takeMsg p (.coll y)
    s.answers p.page → t.carries p → t.isOwn m.dfid.toNat → m.rsvd = 0 → m.len = 0 → t.swarms.find? (fun e => e.1 = m.swarm.toNat) = none → t.readys.contains (m.swarm.toNat, m.cseq.toNat, m.sfid.toNat) = false → t.running y = none →
    exec (.collReady p m) s = .next (({ t with readys := t.readys ++ [(m.swarm.toNat, m.cseq.toNat, m.sfid.toNat)] }).onQueue s)) ∧
  (∀ (p : PortId) (m : CollMsg) (c : CollSt) (s : State),
    let y : CollMsg := { m with opc := 0x22 }
    let t := s.takeMsg p (.coll y)
    s.answers p.page → t.carries p → t.isOwn m.dfid.toNat → m.rsvd = 0 → m.len = 0 → c.fids.contains m.sfid.toNat → t.running y = some c →
    exec (.collAbort p m) s = .next (((t.dropColl c).updDesc c.half c.q c.slot (·.finish 4 0x9D c.bytes)).onQueue s)) ∧
  (∀ (p : PortId) (m : CollMsg) (s : State),
    let y : CollMsg := { m with opc := 0x22 }
    let t := s.takeMsg p (.coll y)
    s.answers p.page → t.carries p → t.isOwn m.dfid.toNat → m.rsvd = 0 → m.len = 0 → t.swarms.find? (fun e => e.1 = m.swarm.toNat) = none → t.aborted.contains (m.swarm.toNat, m.cseq.toNat) = false → t.running y = none →
    exec (.collAbort p m) s = .next (({ t with aborted := t.aborted ++ [(m.swarm.toNat, m.cseq.toNat)] }).onQueue s)) ∧
  (∀ (r : QRef) (slot : BitVec 16) (c : CollSt) (s : State),
    s.collAt r.half r.q.val slot.toNat = some c →
    exec (.collectiveTimeout r slot) s = .next ((if c.peers.any (fun f => (s.route f none (some c.part) false).isNone) then s.failColl c 0xA 0x90 else s.failColl c 5 0x94).onQueue s))

/-- Resets and power states of the PCIe functions. Rules: 09 R284, 09 R294, 09 R295, 09 R296, 09 Table 9.4, 01 R33. -/
def Obligations.FunctionResets : Prop :=
  (∀ (h : Half) (s : State),
    s.answers (.pcie h) →
    exec (.perst h) s = .next (State.onQueue (
    let t := (s.setPerst h true).linkLoss h
    let t := t.setHport h { t.hport h with wasUp := t.isSet (.pcie h) R.pcie.HOST_ROLE_CARRIES_OTHER }
    t.resetFn (t.portFn h)) s)) ∧
  (∀ (h : Half) (s : State),
    s.answers (.pcie h) = false →
    exec (.perst h) s = .next ((s.setPerst h true).onQueue s)) ∧
  (∀ (h : Half) (s : State),
    exec (.perstDeassert h) s = .next (({ s with pins := match h with       | .A => { s.pins with perstA := false }       | .B => { s.pins with perstB := false } }).onQueue s)) ∧
  (∀ (f : Fn) (s : State),
    let q : Page := .pcie (s.ownPort f)
    s.answers q → s.isSet q R.pcie.LINK_STS_DL_UP →
    exec (.hotReset f) s = .next (((s.linkLoss (s.ownPort f)).resetFn f).onQueue s)) ∧
  (∀ (f : Fn) (s : State),
    let q : Page := .pcie (s.ownPort f)
    s.answers q → s.isSet q R.pcie.LINK_STS_DL_UP →
    exec (.flr f) s = .next ((s.resetFn f).onQueue s)) ∧
  (∀ (f : Fn) (s : State),
    let q : Page := .pcie (s.ownPort f)
    s.answers q → s.isSet q R.pcie.LINK_STS_DL_UP →
    exec (.d3hotEntry f) s = .next ((s.setFnst f { s.fnst f with d3 := true }).onQueue s)) ∧
  (∀ (f : Fn) (s : State),
    let q : Page := .pcie (s.ownPort f)
    s.answers q → s.isSet q R.pcie.LINK_STS_DL_UP → (s.fnst f).d3 →
    exec (.d0Return f) s = .next ((((s.setFnst f { s.fnst f with d3 := false }).flushPort (s.ownPort f)).flushPba f).onQueue s)) ∧
  (∀ (f : Fn) (o : DoeObj) (s : State),
    let q : Page := .pcie (s.ownPort f)
    s.answers q → s.isSet q R.pcie.LINK_STS_DL_UP → (s.fnst f).doe = none →
    exec (.doeRequest f o) s = .next ((match o with
    | .discovery i => s.emit (.doe f (doeAnswer i))
    | .spdm b => if b.length ≤ 16384 then s.setFnst f { s.fnst f with doe := some b } else s
    | .other _ _ => s).onQueue s)) ∧
  (∀ (f : Fn) (s : State),
    let q : Page := .pcie (s.ownPort f)
    s.answers q → s.isSet q R.pcie.LINK_STS_DL_UP →
    exec (.doeAbort f) s = .next ((s.setFnst f { s.fnst f with doe := none }).onQueue s)) ∧
  (∀ (f : Fn) (w : CfgWrite) (s : State),
    let q : Page := .pcie (s.ownPort f)
    s.answers q → s.isSet q R.pcie.LINK_STS_DL_UP →
    exec (.configurationWrite f w) s = .next (State.onQueue (
    let x := s.fnst f
    match w with
    | .memorySpace on => s.setFnst f { x with mse := on }
    | .busMaster on => ((s.setFnst f { x with bme := on }).setF q R.pcie.HOST_ROLE_PRESENT (if on then 1 else 0)).flushPort (s.ownPort f)
    | .msixEnable on => (s.setFnst f { x with msixEn := on }).flushPba f
    | .relaxedOrdering on => s.setFnst f { x with roEn := on }
    | .bar2Resize n => if !x.mse && 28 ≤ n && n ≤ 41 then s.setF q R.pcie.BAR2_SIZE_LOG2 n else s
    | .maxPayload n => if [128, 256, 512].contains n then s.setFnst f { x with mps := n } else s
    | .identifiers => s.emit (.ids f (s.fnIds f))
    | .maxRead n => if [128, 256, 512, 1024, 2048, 4096].contains n then s.setFnst f { x with mrrs := n } else s) s))

/-- The data links, takeover and giveback, accesses through BAR2, and the answers to host reads. Rules: 09 R290, 09 R291, 09 R292, 09 R294, 09 R297, 09 R298, 09 R300, 09 R301, 09 Table 9.5, 01 R33. -/
def Obligations.HostLinksAndAccess : Prop :=
  (∀ (h : Half) (s : State),
    s.answers (.pcie h) → s.isSet (.pcie h) R.pcie.LINK_STS_DL_UP →
    exec (.dataLinkDown h) s = .next (((s.linkLoss h).err (.pcie h) 12 { cost := 0 }).onQueue s)) ∧
  (∀ (h : Half) (flit : Bool) (rate : BitVec 4) (width : BitVec 5) (s : State),
    s.answers (.pcie h) → s.portPerst h = false → s.isSet (.pcie h) R.pcie.LINK_STS_DL_UP = false →
    exec (.dataLinkUp h flit rate width) s = .next (State.onQueue (
    let t := s.setFs (.pcie h) [(R.pcie.LINK_STS_DL_UP, 1), (R.pcie.LINK_STS_FLIT, if flit then 1 else 0),
      (R.pcie.LINK_STS_RATE, rate.toNat), (R.pcie.LINK_STS_WIDTH, width.toNat), (R.pcie.LINK_STS_LTSSM, s.freeAhead 0)]
    let t := (t.drawn 1).setHport h { t.hport h with lost := false, wasUp := true }
    ({ t with lostQ := [] }).flushPort h) s)) ∧
  (∀ (h : Half) (s : State),
    s.answers (.pcie h) → s.portPerst h = false → s.isSet (.pcie h) R.pcie.LINK_STS_DL_UP = false → (s.hport h).wasUp →
    exec (.portLost h) s = .next ((s.hportLost h).onQueue s)) ∧
  (∀ (m : Master) (h : Half) (s : State),
    s.reaches m → s.answers (.pcie h) → s.isSet (.pcie h) R.pcie.LINK_STS_DL_UP → s.isSet (.pcie (otherHalf h)) R.pcie.HOST_ROLE_CARRIES_OTHER →
    exec (.giveback m h) s = .next ((((s.setF (.pcie (otherHalf h)) R.pcie.HOST_ROLE_CARRIES_OTHER 0).err (.pcie h) 13 {}).note 2 0).onQueue s)) ∧
  (∀ (m : Master) (h : Half) (s : State),
    s.reaches m → s.answers (.pcie h) → (s.isSet (.pcie h) R.pcie.LINK_STS_DL_UP && s.isSet (.pcie (otherHalf h)) R.pcie.HOST_ROLE_CARRIES_OTHER) = false →
    exec (.giveback m h) s = .next ((s.err (.pcie h) 0 { status := 1 }).onQueue s)) ∧
  (∀ (f : Fn) (offset len : Nat) (u : Upset) (s : State),
    s.cfgOpen f → s.memOpen f = false ∨ 2 ^ s.getF (.pcie (s.ownPort f)) R.pcie.BAR2_SIZE_LOG2 < offset + len ∨ 4096 < len →
    exec (.bar2Read f offset len u) s = .next ((s.emit (.bar2UR f)).onQueue s)) ∧
  (∀ (f : Fn) (offset len : Nat) (u : Upset) (s : State),
    s.cfgOpen f → s.memOpen f → offset + len ≤ 2 ^ s.getF (.pcie (s.ownPort f)) R.pcie.BAR2_SIZE_LOG2 → len ≤ 4096 → (linesOf (s.bar2Addr f offset) len).any (fun e => !s.mapped e.1) →
    exec (.bar2Read f offset len u) s = .next (((((s.setFnst f { s.fnst f with aer := (s.fnst f).aer + 1 }).err (.pcie (s.ownPort f)) 8 {})).emit (.bar2UR f)).onQueue s)) ∧
  (∀ (f : Fn) (offset len : Nat) (u : Upset) (s : State),
    s.cfgOpen f → s.memOpen f → offset + len ≤ 2 ^ s.getF (.pcie (s.ownPort f)) R.pcie.BAR2_SIZE_LOG2 → len ≤ 4096 → (linesOf (s.bar2Addr f offset) len).all (fun e => s.mapped e.1) →
    exec (.bar2Read f offset len u) s = .next (State.onQueue (
    let r := (linesOf (s.bar2Addr f offset) len).foldl (fun (acc : State × Bool × List Byte × Upset) e =>
      let r := acc.1.lineOp (s.ownPort f) .host false e.1 0 [] e.2 acc.2.2.2
      (r.1, acc.2.1 || r.2.1 ≠ 0, acc.2.2.1 ++ padTo e.2 r.2.2, .none)) (s, false, [], u)
    r.1.emit (.bar2Data f r.2.2.1 r.2.1)) s)) ∧
  (∀ (f : Fn) (offset : Nat) (data : List Byte) (poisoned : Bool) (s : State),
    s.memOpen f = false ∨ 2 ^ s.getF (.pcie (s.ownPort f)) R.pcie.BAR2_SIZE_LOG2 < offset + data.length →
    exec (.bar2Write f offset data poisoned) s = .next ((s).onQueue s)) ∧
  (∀ (f : Fn) (offset : Nat) (data : List Byte) (poisoned : Bool) (s : State),
    s.memOpen f → offset + data.length ≤ 2 ^ s.getF (.pcie (s.ownPort f)) R.pcie.BAR2_SIZE_LOG2 →
    exec (.bar2Write f offset data poisoned) s = .next (State.onQueue (
    let h := s.ownPort f
    let a := s.bar2Addr f offset
    let ls := linesOf a data.length
    let t := if ls.any (fun e => !s.mapped e.1) then s.bar2Bad f else s
    let t := foldOver (ls.filter (fun e => t.mapped e.1)) (fun e (t : State) =>
      if poisoned then t.poisonLine (e.1 / 128)
      else (t.lineOp h .host true e.1 0 ((data.drop (e.1 - a)).take e.2) e.2 .none).1) t
    if poisoned && !ls.isEmpty then t.err (.pcie h) 9 { cost := 4, status := 7, info := t.memInfo a } else t) s)) ∧
  (∀ (h : Half) (id : Nat) (b : List Byte) (s : State),
    s.portRead h id →
    exec (.hostCompletion h id (.sc b)) s = .next (State.onQueue (
    let n := (mget { half := h, q := 0, slot := 0, dsp := 0, dst := 0, len := 0 } s.hreads id).len
    let t := s.dropRead h id
    (t.set64 (.pcie h) R.pcie.DMA_RD_LO R.pcie.DMA_RD_HI (t.get64 (.pcie h) R.pcie.DMA_RD_LO R.pcie.DMA_RD_HI + b.length)).readAnswer id (if b.length = n then some b else none)) s)) ∧
  (∀ (h : Half) (id : Nat) (s : State),
    s.portRead h id →
    exec (.hostCompletion h id .ur) s = .next ((((s.dropRead h id).err (.pcie h) 10 { cost := 4, status := 7 }).readAnswer id none).onQueue s)) ∧
  (∀ (h : Half) (id : Nat) (s : State),
    s.portRead h id →
    exec (.hostCompletion h id .ca) s = .next ((((s.dropRead h id).err (.pcie h) 10 { cost := 4, status := 7 }).readAnswer id none).onQueue s)) ∧
  (∀ (h : Half) (id : Nat) (s : State),
    s.portRead h id →
    exec (.cplTimeout h id) s = .next ((((s.err (.pcie h) 11 { cost := 4, status := 7 }).dropRead h id).readAnswer id none).onQueue s)) ∧
  (∀ (f : Fn) (vec : Fin 2048) (s : State),
    s.memOpen f →
    exec (.msixUnmask f vec) s = .next (State.onQueue (
    let k := 4 * vec.val + 3
    (s.setFnst f { s.fnst f with msix := mset (if k % 4 = 3 then 1 else 0) (s.fnst f).msix k (putBits (msixWord (s.fnst f) vec.val 3) 0 0 0) }).flushPba f) s))

/-- Image updates, counters, the measurement log, and recovery over I3C. Rules: 13 R396, 13 R397, 13 R398, 13 R399, 13 R404, 13 Table 13.4, 13 Table 13.8, 09 R311. -/
def Obligations.UpdatesAndRecovery : Prop :=
  (∀ (i : Fin 32) (writeOk : Bool) (s : State),
    let j : Fin 48 := Fin.ofNat 48 i.val
    let b := s.inMsg j
    s.answers (mbxPage j) → s.isSet (mbxPage j) R.mbx.MBX_STS_IN_FULL → msgOp b = 0x60 → (s.waitingOut j).length < 8 → s.halted = false → i.val < 4 → msgRsvd b = 0 → msgLen b = 14 →
    exec (.fwUpdate i writeOk) s = .next (State.onQueue (
    let body := msgBody b
    let addr := natOf ((body.drop 2).take 8)
    let len := natOf ((body.drop 10).take 4)
    match regionOf (byteAt body 0) (byteAt body 1) with
    | none => s.fwReply j b 2 []
    | some r =>
      if len < 512 || len > regionSize r || !((linesOf addr len).all (fun e => s.mapped e.1)) then s.fwReply j b 2 []
      else
        let d := s.memRead s.leader .host 1 addr len
        if d.2.1 ≠ 0 then d.1.fwReply j b d.2.1 []
        else
          let x := parseImage d.2.2
          let c := d.1.updateCause r x
          if c ≠ 0 then (d.1.showCause r c).fwReply j b 2 (bytesOf 1 c)
          else (d.1.writeBoth r x writeOk).1.fwReply j b (d.1.writeBoth r x writeOk).2 (bytesOf 1 0)) s)) ∧
  (∀ (i : Fin 32) (s : State),
    let j : Fin 48 := Fin.ofNat 48 i.val
    let b := s.inMsg j
    s.answers (mbxPage j) → s.isSet (mbxPage j) R.mbx.MBX_STS_IN_FULL → msgOp b = 0x61 → (s.waitingOut j).length < 8 → s.halted = false → i.val < 4 → msgRsvd b = 0 → msgLen b = 2 →
    exec (.svnCommit i) s = .next (State.onQueue (
    let g := byteAt (msgBody b) 0
    let v := byteAt (msgBody b) 1
    let rs := groupRegions g
    let copies := rs.flatMap (fun r => [s.nv.prim, s.nv.mirr].filterMap (fun n => if s.copyCause n r = 0 then norImage n r else none))
    let run := rs.filterMap s.inForce
    if g > 3 then s.fwReply j b 2 []
    else if v ≤ s.svn g then s.fwReply j b 0 []
    else if v > 64 || (copies ++ run).any (fun x => decide (v > x.svn.toNat)) then s.fwReply j b 1 []
    else
      let revoke := run.foldl (fun m x => m ||| ((x.flags.toNat / 16) &&& (15 ^^^ 2 ^ x.key.toNat))) s.sec.revoke
      let t := { s with sec := { s.sec with svn := mset 0 s.sec.svn g v, revoke := revoke } }
      (t.setFs .sec [(R.sec.SVN_VALUE.ix g, v), (R.sec.SEC_STS_REVOKED, revoke)]).fwReply j b 0 []) s)) ∧
  (∀ (i : Fin 32) (s : State),
    let j : Fin 48 := Fin.ofNat 48 i.val
    let b := s.inMsg j
    s.answers (mbxPage j) → s.isSet (mbxPage j) R.mbx.MBX_STS_IN_FULL → msgOp b = 0x62 → (s.waitingOut j).length < 8 → s.halted = false → i.val < 4 → msgRsvd b = 0 → msgLen b = 2 →
    exec (.getMeasLog i) s = .next (State.onQueue (
    let l := (s.sec.log.drop (natOf ((msgBody b).take 2))).take 2
    s.fwReply j b 0 (bytesOf 1 l.length ++ l.flatten)) s)) ∧
  (∀ (r : Region) (offset : Nat) (data : List Byte) (s : State),
    s.reached .i3c → data ≠ [] → data.length ≤ 1024 → offset + data.length ≤ regionSize r →
    exec (.imgWrite .i3c r offset data) s = .next (State.onQueue (
    let old := match norImage s.nv.mirr r with
      | some x => imageBytes x
      | none => []
    let l := old ++ List.replicate (max 512 (offset + data.length) - old.length) 0xFF
    let new := l.take offset ++ data ++ l.drop (offset + data.length)
    ({ s with nv := { s.nv with mirr := putImage s.nv.mirr r (parseImage new) } }).mgmtReply .i3c 0x20 0 []) s)) ∧
  (∀ (r : Region) (offset : Nat) (data : List Byte) (f : Fn) (s : State),
    s.reached (.pcie f) →
    exec (.imgWrite (.pcie f) r offset data) s = .next ((s.mgmtReply (.pcie f) 0x20 3 []).onQueue s)) ∧
  (∀ (r : Region) (writeOk : Bool) (s : State),
    s.reached .i3c →
    exec (.imgCommit .i3c r writeOk) s = .next (State.onQueue (
    match norImage s.nv.mirr r with
    | none => (s.showCause r 1).mgmtReply .i3c 0x21 2 (bytesOf 1 1)
    | some x =>
      let c := s.imageCause r x
      if c ≠ 0 then (s.showCause r c).mgmtReply .i3c 0x21 2 (bytesOf 1 c)
      else if !writeOk then ({ s with nv := { s.nv with prim := dropImage s.nv.prim r } }).mgmtReply .i3c 0x21 7 (bytesOf 1 0)
      else
        let t := ({ s with nv := { s.nv with prim := putImage s.nv.prim r x } }).mgmtReply .i3c 0x21 0 (bytesOf 1 0)
        if t.sec.rom && r = .keeper then t.romStart else t) s)) ∧
  (∀ (r : Region) (writeOk : Bool) (f : Fn) (s : State),
    s.reached (.pcie f) →
    exec (.imgCommit (.pcie f) r writeOk) s = .next ((s.mgmtReply (.pcie f) 0x21 3 []).onQueue s))

/-- Debug tokens, the injection lock, and the test access port. Rules: 13 R405, 13 R406, 13 R407, 09 R304, 09 R311, 13 Table 13.8. -/
def Obligations.DebugAndTap : Prop :=
  (∀ (i : Fin 32) (s : State),
    let j : Fin 48 := Fin.ofNat 48 i.val
    let b := s.inMsg j
    s.answers (mbxPage j) → s.isSet (mbxPage j) R.mbx.MBX_STS_IN_FULL → msgOp b = 0x63 → (s.waitingOut j).length < 8 → s.halted = false → i.val < 4 → msgRsvd b = 0 → msgLen b = 0 →
    exec (.debugNonce i) s = .next ((({ s.drawn 1 with sec := { s.sec with nonce := some s.fresh } }).fwReply j b 0 (nonceBytes s.fresh)).onQueue s)) ∧
  (∀ (i : Fin 32) (s : State),
    let j : Fin 48 := Fin.ofNat 48 i.val
    let b := s.inMsg j
    s.answers (mbxPage j) → s.isSet (mbxPage j) R.mbx.MBX_STS_IN_FULL → msgOp b = 0x64 → (s.waitingOut j).length < 8 → s.halted = false → i.val < 4 → msgRsvd b = 0 → msgLen b = 158 →
    exec (.debugUnlock i) s = .next (State.onQueue (
    let t := msgBody b
    let mask := natOf ((t.drop 40).take 4)
    let nonceOk := match s.sec.nonce with
      | some n => (t.drop 8).take 32 = nonceBytes n
      | none => false
    let sigOk := (List.range 4).any (fun k => !bit s.sec.revoke k && Config.verify (Config.rootHash k) (t.take 44) ((t.drop 44).take 114))
    if Config.debugKill then s.fwReply j b 3 []
    else if mask ≥ 8 then s.fwReply j b 2 []
    else if !(natOf (t.take 8) = Config.uid.toNat && nonceOk && sigOk) then s.fwReply j b 3 []
    else ({ s with sec := { s.sec with token := some mask } }).fwReply j b 0 []) s)) ∧
  (∀ (m : Master) (s : State),
    s.reaches m → s.answers .sec →
    exec (.injDis m) s = .next ((s.setF .sec R.sec.SEC_CTL_INJ_DIS 1).onQueue s)) ∧
  (∀ (rising tms tdi : Bool) (s : State),
    s.pins.vAon →
    exec (.tckEdge rising tms tdi) s = .next (({ s with tap := if rising then tapRise s.tap tms tdi else tapFall s.tap }).onQueue s)) ∧
  (∀ (rising tms tdi : Bool) (s : State),
    s.pins.vAon = false →
    exec (.tckEdge rising tms tdi) s = .next ((s).onQueue s)) ∧
  (∀ (s : State),
    exec (.trstNAssert) s = .next (({ s with tap := { ctl := .reset, ir := 1, shift := [], tdo := none } }).onQueue s)) ∧
  (∀ (s : State),
    exec (.debugPortDisconnect) s = .next ((foldOver (s.lockedBy (masterId .debug)) (fun p (s : State) => s.dropLock p (masterId .debug)) s).onQueue s))

/-- The answer to each SPDM request, on a connection that has reached it. Rules: 13 R402, 13 R403, 13 R404, 13 Table 13.5, 09 R312. -/
def Obligations.Attestation : Prop :=
  (∀ (r : SpdmReq) (s : State),
    s.spdmHere r.transport →
    exec (.getVersion r) s = .next (((s.setStage r.transport 1).spdmSend r.transport (spdmHead 0x10 0x04 0 0 ++ [0, 2] ++ bytesOf 2 0x1200 ++ bytesOf 2 0x1300)).onQueue s)) ∧
  (∀ (r : SpdmReq) (s : State),
    s.spdmHere r.transport → r.version = 0x12 ∨ r.version = 0x13 → 1 ≤ s.spdmStage r.transport →
    exec (.getCapabilities r) s = .next (((s.setStage r.transport 2).spdmSend r.transport (spdmHead r.version.toNat 0x61 0 0 ++ bytesOf 4 0 ++ bytesOf 4 0x16)).onQueue s)) ∧
  (∀ (r : SpdmReq) (s : State),
    s.spdmHere r.transport → r.version = 0x12 ∨ r.version = 0x13 → 2 ≤ s.spdmStage r.transport → r.asymOk → r.hashOk →
    exec (.negotiateAlgorithms r) s = .next (((s.setStage r.transport 3).spdmSend r.transport (spdmHead r.version.toNat 0x63 0 0 ++ bytesOf 4 1 ++ bytesOf 4 0x200 ++ bytesOf 4 0x20)).onQueue s)) ∧
  (∀ (r : SpdmReq) (s : State),
    s.spdmHere r.transport → r.version = 0x12 ∨ r.version = 0x13 → 2 ≤ s.spdmStage r.transport → (r.asymOk && r.hashOk) = false →
    exec (.negotiateAlgorithms r) s = .next ((s.spdmError r 0x01).onQueue s)) ∧
  (∀ (r : SpdmReq) (s : State),
    s.spdmHere r.transport → r.version = 0x12 ∨ r.version = 0x13 → 3 ≤ s.spdmStage r.transport →
    exec (.getDigests r) s = .next ((if s.sec.puf && s.sec.cert then s.spdmSend r.transport (spdmHead r.version.toNat 0x01 0 1 ++ padTo 64 (Config.sha3 s.chain)) else s.spdmError r 0x05).onQueue s)) ∧
  (∀ (r : SpdmReq) (s : State),
    s.spdmHere r.transport → r.version = 0x12 ∨ r.version = 0x13 → 3 ≤ s.spdmStage r.transport →
    exec (.getCertificate r) s = .next (State.onQueue (
    if r.slot ≠ 0 || r.offset ≥ s.chain.length then s.spdmError r 0x01
    else if !(s.sec.puf && s.sec.cert) then s.spdmError r 0x05
    else
      let part := (s.chain.drop r.offset).take r.length
      s.spdmSend r.transport (spdmHead r.version.toNat 0x02 0 0 ++ bytesOf 2 part.length ++ bytesOf 2 (s.chain.length - r.offset - part.length) ++ part)) s)) ∧
  (∀ (r : SpdmReq) (s : State),
    s.spdmHere r.transport → r.version = 0x12 ∨ r.version = 0x13 → 3 ≤ s.spdmStage r.transport →
    exec (.challenge r) s = .next (State.onQueue (
    if r.slot ≠ 0 then s.spdmError r 0x01
    else if !(s.sec.puf && s.sec.cert) then s.spdmError r 0x05
    else
      let sum := if r.param = 0 then [] else padTo 64 (Config.sha3 ((List.range 8).flatMap (fun m => s.meas (m + 1))))
      let body := spdmHead r.version.toNat 0x03 0 1 ++ padTo 64 (Config.sha3 s.chain) ++ nonceBytes s.fresh ++ sum ++ bytesOf 2 0
      (s.drawn 1).spdmSend r.transport (body ++ padTo 114 (Config.sign 0 (r.nonce ++ body)))) s)) ∧
  (∀ (r : SpdmReq) (s : State),
    s.spdmHere r.transport → r.version = 0x12 ∨ r.version = 0x13 → 3 ≤ s.spdmStage r.transport →
    exec (.getMeasurements r) s = .next (State.onQueue (
    match s.measBlocks r.param.toNat with
    | none => s.spdmError r 0x01
    | some l =>
      if r.sign && !(s.sec.puf && s.sec.cert) then s.spdmError r 0x05
      else
        let data := l.flatten
        let body := spdmHead r.version.toNat 0x60 (if r.param = 0 then 9 else 0) 0 ++ bytesOf 1 l.length ++ bytesOf 3 data.length ++ data ++
          nonceBytes s.fresh ++ bytesOf 2 0
        (s.drawn 1).spdmSend r.transport (body ++ (if r.sign then padTo 114 (Config.sign 0 (r.nonce ++ body)) else []))) s)) ∧
  (∀ (r : SpdmReq) (s : State),
    s.spdmHere r.transport → r.version ≠ 0x12 → r.version ≠ 0x13 →
    exec (.challenge r) s = .next ((s.spdmError r 0x41).onQueue s)) ∧
  (∀ (r : SpdmReq) (s : State),
    s.spdmHere r.transport → r.version = 0x12 ∨ r.version = 0x13 → s.spdmStage r.transport < 3 →
    exec (.challenge r) s = .next ((s.spdmError r 0x04).onQueue s))

/-- Link keys: fragments, the switch to new keys, refusals, repeats, timeouts, and rekeying. Rules: 13 R409, 13 R410, 13 R411, 13 R412, 13 R413, 13 R414, 13 Table 13.7, 07 R236. -/
def Obligations.LinkKeys : Prop :=
  (∀ (p : PortId) (kind : BitVec 8) (i : BitVec 16) (whole : Option KxMsg) (t : State) (s : State),
    let q := s.lead p
    s.answers q.page → s.linkUp q → s.kxJoin q kind.toNat = some t →
    exec (.kxFrag p kind i whole) s = .next (State.onQueue (
    let k := (t.port q).kx
    let hit := decide (i.toNat = k.got)
    let u := if hit then t.updKx q (fun k => { k with got := k.got + 1 }) else t
    let u := u.sendCtl q 0x21 (bytesOf 1 0 ++ bytesOf 2 (u.port q).kx.got)
    match whole with
    | some m => if hit && (k.st = 1 || k.st = 6) then u.kxWhole q { m with kind := kind } else u
    | none => u) s)) ∧
  (∀ (p : PortId) (kind : BitVec 8) (i : BitVec 16) (whole : Option KxMsg) (s : State),
    let q := s.lead p
    s.answers q.page → s.linkUp q → s.kxJoin q kind.toNat = none →
    exec (.kxFrag p kind i whole) s = .next ((if kind = 0 then s.sendCtl q 0x23 (bytesOf 1 0 ++ bytesOf 1 5) else s).onQueue s)) ∧
  (∀ (p : PortId) (n : BitVec 16) (s : State),
    let q := s.lead p
    s.answers q.page → [1, 2, 6, 7].contains (s.port q).kx.st → (s.port q).kx.acked < n.toNat → n.toNat ≤ ((s.port q).kx.msg.length + 11) / 12 →
    exec (.kxAck p n) s = .next ((s.updKx q (fun k => { k with acked := n.toNat })).onQueue s)) ∧
  (∀ (p : PortId) (c : BitVec 64) (s : State),
    let q := s.lead p
    s.answers q.page → [1, 2, 6, 7].contains (s.port q).kx.st →
    exec (.kxSwitch p c) s = .next (((s.updKx q (fun k => { k with gotSw := true, cRx := c.toNat })).kxFinish q).onQueue s)) ∧
  (∀ (p : PortId) (reason : BitVec 8) (s : State),
    let q := s.lead p
    s.answers q.page → [1, 2, 6, 7].contains (s.port q).kx.st →
    exec (.kxAbort p reason) s = .next ((s.kxRefused q).onQueue s)) ∧
  (∀ (p : PortId) (s : State),
    let q := s.lead p
    s.answers q.page → [1, 2, 6, 7].contains (s.port q).kx.st →
    exec (.kxResendTimer p) s = .next (State.onQueue (
    let k := (s.port q).kx
    let t := if k.acked < (k.msg.length + 11) / 12 then s.kxFrags q (if k.st ≤ 2 then 0 else 1) else s
    if k.sentSw && !k.gotSw then t.sendSwitch q else t) s)) ∧
  (∀ (p : PortId) (s : State),
    let q := s.lead p
    s.answers q.page → (s.port q).kx.st = 1 ∨ (s.port q).kx.st = 2 →
    exec (.kxTimeout p) s = .next (((s.drawn 1).kxRefuse q (s.freeAhead 0 % 256)).onQueue s)) ∧
  (∀ (p : PortId) (s : State),
    let q := s.lead p
    s.answers q.page → s.linkUp q → (s.port q).kx.st = 4 →
    exec (.kxRetry p) s = .next ((s.kxStart q 0).onQueue s)) ∧
  (∀ (p : PortId) (s : State),
    let q := s.lead p
    s.answers q.page → s.linkUp q → (s.port q).kx.st = 8 →
    exec (.kxRetry p) s = .next ((s.kxStart q 1).onQueue s)) ∧
  (∀ (p : PortId) (s : State),
    let q := s.lead p
    s.answers q.page → s.linkUp q → (s.port q).kx.st = 3 →
    exec (.rekey p) s = .next ((s.kxStart q 1).onQueue s)) ∧
  (∀ (p : PortId) (s : State),
    let q := s.lead p
    s.answers q.page → s.linkUp q → kxStall (s.port q).kx →
    exec (.kxSwitchTimeout p) s = .next ((s.linkDown q 8).onQueue s))

/-- A step runs the command at the front of the queue. Rules: 00 R1, 00 R8. -/
def Obligations.StepTakesFrontCommand : Prop :=
  (∀ (c : Instr) (t : List Instr) (s : State), s.pending = c :: t → step s = exec c { s with pending := t }) ∧
  (∀ s : State, s.pending = [] → step s = .next s)

/-- Every queue of well-formed commands runs to its end: no command stops the block. Rules: 00 R8, 04 R113. -/
def Obligations.QueueIsDrained : Prop :=
  (∀ s : State, queueWf s → ∃ t, step s = .next t ∧ t.pending = s.pending.tail ∧ queueWf t) ∧
  (∀ s : State, queueWf s → ∃ t, Host.Core.run Sys2Proof.core s.pending.length s = .next t ∧ t.pending = [])

/-- Pages that no block occupies, and pages that cannot answer. Rules: 01 R29, 01 R30. -/
def Obligations.UnansweredPages : Prop :=
  (∀ (m : Master) (a : Nat) (wide : Bool) (v : BitVec 64) (s : State), pageOf a = none → a < 0x800000 ∨ 0x808100 ≤ a →
    s.readBar m a = 0 ∧ exec (.registerWrite m a wide v) s = .next s) ∧
  (∀ (m : Master) (p : Page) (o : Nat) (wide : Bool) (v : BitVec 64) (s : State), o < 0x1000 →
    s.die (dieOf p) ≠ .up ∨ (∃ h, pageHalf p = some h ∧ s.die (dieComb h) ≠ .up) →
    s.readBar m (pageBase p + o) = 0xFFFFFFFF ∧ exec (.registerWrite m (pageBase p + o) wide v) s = .next s) ∧
  (∀ (p : Page) (s : State), s.die (dieOf p) = .up → (∀ h, pageHalf p = some h → s.die (dieComb h) = .up) →
    s.readBar .cc (pageBase p) = BitVec.ofNat 32 (blkId p))

/-- What an ACK value releases. Rules: 07 R231. -/
def Obligations.Acknowledgements : Prop :=
  (∀ (p : PortId) (a : Nat) (s : State), a < 65536 → 1 ≤ dist16 (s.txA p) a → dist16 (s.txA p) a ≤ dist16 (s.txA p) (s.txN p) →
    ((s.takeAck p a).port p).flits = (s.port p).flits.filter (fun f => !decide (dist16 (s.txA p) f.seq < dist16 (s.txA p) a)) ∧
    (s.takeAck p a).txA p = a ∧ (s.takeAck p a).txN p = s.txN p) ∧
  (∀ (p : PortId) (s : State), s.takeAck p (s.txA p) = s) ∧
  (∀ (p : PortId) (a : Nat) (s : State), a < 65536 → dist16 (s.txA p) (s.txN p) < dist16 (s.txA p) a →
    (s.takeAck p a).getF p.page R.oport.LINK_EVT_ACK_BAD = 1 ∧ (s.takeAck p a).port p = s.port p ∧
    (s.takeAck p a).txA p = s.txA p ∧ (s.takeAck p a).txN p = s.txN p)

/-- Fields of registers: what a write stores, what it leaves, and the reset of a block. Rules: 00 R8, 00 R9, 01 R33, 01 R34. -/
def Obligations.RegisterFields : Prop :=
  (∀ (s : State) (p : Page) (f : Fld) (n : Nat), f.lo ≤ f.hi → f.hi < 32 → (s.setF p f n).getF p f = n % 2 ^ (f.hi + 1 - f.lo)) ∧
  (∀ (s : State) (p q : Page) (f g : Fld) (n : Nat), f.hi < 32 → g.hi < 32 → fldAddr p f ≠ fldAddr q g ∨ f.hi < g.lo ∨ g.hi < f.lo →
    (s.setF p f n).getF q g = s.getF q g) ∧
  (∀ (s : State) (p : Page) (f : Fld) (n : Nat), f.lo ≤ f.hi → f.hi < 32 →
    (s.addSat p f n).getF p f = min (s.getF p f + n) (2 ^ f.width - 1)) ∧
  (∀ (s : State) (p : Page) (o : Nat), o < 0x1000 →
    (s.resetBlockRegs p).reg (pageBase p + o) = if 0x100 ≤ o then resetValue (pageBase p + o) else s.reg (pageBase p + o)) ∧
  (∀ (s : State) (p q : Page) (o : Nat), p ≠ q → o < 0x1000 → (s.resetBlockRegs p).reg (pageBase q + o) = s.reg (pageBase q + o))

/-- What a store of bytes leaves in device memory, little-endian. Rules: 00 R7, 04 R113. -/
def Obligations.DeviceMemoryBytes : Prop :=
  (∀ (s : State) (a : Nat) (b : List Byte), (s.wr a b).rd a b.length = b) ∧
  (∀ (s : State) (a j n : Nat) (b : List Byte), j + n ≤ a ∨ a + b.length ≤ j → (s.wr a b).rd j n = s.rd j n) ∧
  (∀ (s : State) (a n v : Nat), natOf ((s.wr a (bytesOf n v)).rd a n) = v % 2 ^ (8 * n)) ∧
  (∀ (s : State) (a n v : Nat), 0 < n → ((s.wr a (bytesOf n v)).rd a 1) = [BitVec.ofNat 8 v]) ∧
  (∀ (s : State) (a : Nat) (b : List Byte), { s.wr a b with mem := s.mem } = s ∧ (s.wr a b).mem = { s.mem with bytes := (s.wr a b).mem.bytes })

/-- A flit carries its header whole, and its CRC tells a corrupted one. Rules: 07 R211, 07 R212, 07 R228, 00 R7. -/
def Obligations.FlitHeaders : Prop :=
  (∀ (x : FlitHdr) (pay : List Byte) (bad : Bool), x.seq < 2 ^ 16 → x.ack < 2 ^ 16 → x.kind < 4 → x.plen < 2 ^ 8 → x.nmsg < 2 ^ 4 →
    (flitBytes x pay bad).length = 256 ∧ hdrOf (flitBytes x pay bad) = x ∧ ((flitBytes x pay bad).drop 12).take 240 = padTo 240 pay ∧
    flitGood (flitBytes x pay bad) = !bad)

/-- A value of a floating-point format converts to that format exactly. Rules: 02 R44, 02 R58, 02 Table 2.3, 02 Table 2.6. -/
def Obligations.ExactConversions : Prop :=
  (∀ (k c : Nat) (f : FpFmt) (mode : RMode) (o : OMode), fpOf k = some f → c < 2 ^ (f.eb + f.mb + 1) → decodeFp f c ≠ .nan →
    toFp f mode o (decodeFp f c) = (c, 0)) ∧
  (∀ (k n : Nat) (f : FpFmt) (mode : RMode) (o : OMode), fpOf k = some f → f.nanCode = some n → toFp f mode o .nan = (n, flNanOut))

/-- A debug port without page access changes nothing. Rules: 13 R405, 13 R406, 09 R302. -/
def Obligations.DebugMasterIsolation : Prop :=
  (∀ (c : Instr) (m : Master) (s : State), c.wf → c.master = some m → s.reaches m = false → exec c s = .next s) ∧
  (∀ (m : Master) (s : State), s.reaches m = false → m = .debug ∧ (s.sec.mask = none ∨ ∃ k, s.sec.mask = some k ∧ bit k 1 = false))

/-- How a request of many bytes splits at line boundaries. Rules: 04 R113, 02 R67. -/
def Obligations.LineSplitting : Prop :=
  (∀ a n : Nat, ((linesOf a n).map (fun e => e.2)).sum = n) ∧
  (∀ a n : Nat, ∀ e ∈ linesOf a n, 0 < e.2 ∧ e.1 % 128 + e.2 ≤ 128 ∧ a ≤ e.1 ∧ e.1 + e.2 ≤ a + n ∧ (e.1 = a ∨ e.1 % 128 = 0)) ∧
  (∀ a n i : Nat, i + 1 < (linesOf a n).length →
    (nth (0, 0) (linesOf a n) (i + 1)).1 = (nth (0, 0) (linesOf a n) i).1 + (nth (0, 0) (linesOf a n) i).2) ∧
  (∀ a n : Nat, 0 < n → (nth (0, 0) (linesOf a n) 0).1 = a)

/-- The tags a half may allocate. Rules: 08 R267. -/
def Obligations.TagsOfAHalf : Prop :=
  (∀ (s : State) (h : Half) (t : Nat), s.freeTag h = some t →
    mhas s.reqs t = false ∧ 16384 * halfNo h ≤ t ∧ t < 16384 * halfNo h + 16384 ∧ ∀ u, 16384 * halfNo h ≤ u → u < t → mhas s.reqs u = true) ∧
  (∀ (s : State) (h : Half), s.freeTag h = none ↔ ∀ t, 16384 * halfNo h ≤ t → t < 16384 * halfNo h + 16384 → mhas s.reqs t = true)

/-- The state at reset. Rules: 01 R33, 03 R93, 04 R129, 09 R288, 11 Table 11.8. -/
def Obligations.ResetState : Prop :=
  State.reset.pending = [] ∧ State.reset.out = [] ∧ (∀ a : Nat, State.reset.reg a = resetValue a) ∧ (∀ a n : Nat, State.reset.rd a n = List.replicate n 0) ∧
  (∀ i : Nat, State.reset.sem i = 0) ∧ (∀ p : Page, State.reset.getF p R.hdr.LOCK_OWNER = 0) ∧ (∀ d : Nat, State.reset.die d = .off) ∧
  State.reset.mem.wf ∧ regsWf State.reset ∧ queueWf State.reset ∧
  State.reset.getF (.pcie .A) R.pcie.BAR2_SIZE_LOG2 = 36
end

