-- ==== Sys2Proof/Laws/Cell.lean ====
section
/-! SUPPORT. What the issue of a cell's instruction comes to, once. -/

namespace Sys2Proof.Laws

open Sys2Proof.Machine

/-- An instruction that issues now acts on the fetched state. -/
theorem issue_runs {op : Nat} {s : State} {h : Half} {c : Fin 288} {e : HwEvent} {act : Iss → State → State}
    (hi : issues op s h c e = true) (hk : knownOps.contains op = true) :
    issue op h c e act s = act (issOf s h c e) (fetched s h c) := by
  simp only [issues, Bool.and_eq_true, decide_eq_true_eq] at hi
  obtain ⟨⟨⟨⟨⟨⟨⟨⟨⟨⟨⟨⟨⟨h1, h2⟩, h3⟩, h4⟩, h5⟩, h6⟩, h7⟩, h7b⟩, h8⟩, h9⟩, h10⟩, h11⟩, h12⟩, h13⟩ := hi
  obtain ⟨k, hctx⟩ := Option.isSome_iff_exists.mp h1
  have hend := Option.isNone_iff_eq_none.mp h2
  have hwait := Option.isNone_iff_eq_none.mp h3
  have hkc : kctxOf s h c = k := by simp [kctxOf, hctx]
  unfold issue
  simp only [issOf, fetchOf, fetched, hkc] at h6 h7 h7b h8 h10 h11 h12 h13 ⊢
  rw [Bool.not_eq_true'] at h7b
  simp only [hctx, hend, hwait, h4, h5, h7, h7b, h8, h9, h10, h11, hk, Bool.not_true, Bool.and_self, decide_true, ne_eq, not_true,
    Bool.false_eq_true, if_false, Bool.or_self, decide_false]
  have h6' : ¬ (s.cell h c.val).pc > k.ninst := by omega
  simp only [h6', if_false]
  rw [Bool.or_eq_true, Bool.or_eq_true, Bool.not_eq_true'] at h12
  have h14 : (!isScalar op && bit (natOf (s.memRead h .cell 0 (k.prog + 16 * (s.cell h c.val).pc) 16).2.2) 105 &&
      !bit (s.getF (cellPage h c.val) R.cell.TOKENS_DONE)
        (bits (natOf (s.memRead h .cell 0 (k.prog + 16 * (s.cell h c.val).pc) 16).2.2) 104 101)) = false := by
    rcases h12 with (h | h) | h <;> simp [h]
  simp only [h14, Bool.false_eq_true, if_false]
  rcases hu : unitOf op (natOf (s.memRead h .cell 0 (k.prog + 16 * (s.cell h c.val).pc) 16).2.2) with _ | u
  · simp
  · have h15 : ¬ 8 ≤ (unitQ (s.cell h c.val) u).length := by simp only [hu, decide_eq_true_eq] at h13; omega
    simp [h15]

end Sys2Proof.Laws
end

