-- ==== Sys2Proof/Laws/Maps.lean ====
section
/-! SUPPORT. Finite maps: what a read gives after a change, and that changes keep the canonical form. -/

namespace Sys2Proof.Laws

open Sys2Proof.Machine

/-- Every key of the map lies above k. -/
def Above {β : Type} (k : Nat) (m : List (Nat × β)) : Prop := ∀ e ∈ m, k < e.1

theorem keysRise_cons {β : Type} (a : Nat) (v : β) (m : List (Nat × β)) :
    keysRise ((a, v) :: m) = true ↔ Above a m ∧ keysRise m = true := by
  induction m generalizing a v with
  | nil => simp [keysRise, Above]
  | cons e t ih =>
    obtain ⟨b, w⟩ := e
    simp only [keysRise, Bool.and_eq_true, decide_eq_true_eq]
    constructor
    · rintro ⟨hab, hr⟩
      refine ⟨?_, hr⟩
      rintro e he
      rcases List.mem_cons.mp he with rfl | he
      · exact hab
      · exact Nat.lt_trans hab (((ih b w).mp hr).1 e he)
    · rintro ⟨ha, hr⟩
      exact ⟨ha (b, w) (List.mem_cons_self ..), hr⟩

/-- A read below every key gives the value of an unlisted key. -/
theorem mget_above {β : Type} (d : β) (m : List (Nat × β)) (k : Nat) (h : Above k m) : mget d m k = d := by
  induction m with
  | nil => rfl
  | cons e t ih =>
    have hk := h e (List.mem_cons_self ..)
    simp only [mget, show e.1 ≠ k by omega, if_false]
    exact ih (fun e he => h e (List.mem_cons_of_mem _ he))

@[simp] theorem mget_mput_self {β : Type} (d : β) (m : List (Nat × β)) (k : Nat) (v : β) : mget d (mput m k v) k = v := by
  induction m with
  | nil => simp [mput, mget]
  | cons e t ih =>
    obtain ⟨a, w⟩ := e
    simp only [mput]
    split
    · simp [mget]
    · split <;> simp [mget, *]

theorem mget_mput_of_ne {β : Type} (d : β) (m : List (Nat × β)) (k j : Nat) (v : β) (h : j ≠ k) :
    mget d (mput m k v) j = mget d m j := by
  induction m with
  | nil => simp [mput, mget, h.symm]
  | cons e t ih =>
    obtain ⟨a, w⟩ := e
    simp only [mput]
    split
    · simp [mget, h.symm]
    · split
      · subst a; simp [mget, h.symm]
      · simp only [mget, ih]

@[simp] theorem mget_merase_self {β : Type} (d : β) (m : List (Nat × β)) (k : Nat) : mget d (merase m k) k = d := by
  induction m with
  | nil => rfl
  | cons e t ih =>
    unfold merase at ih ⊢
    by_cases h : e.1 = k
    · simpa [List.filter, h] using ih
    · simp [List.filter, h, mget]
      simpa using ih

theorem mget_merase_of_ne {β : Type} (d : β) (m : List (Nat × β)) (k j : Nat) (h : j ≠ k) :
    mget d (merase m k) j = mget d m j := by
  induction m with
  | nil => rfl
  | cons e t ih =>
    unfold merase at ih ⊢
    by_cases he : e.1 = k
    · simpa [List.filter, he, mget, h.symm] using ih
    · simp only [ne_eq, decide_not] at ih
      simp [List.filter, he, mget, ih]

@[simp] theorem mget_mset_self {β : Type} [DecidableEq β] (d : β) (m : List (Nat × β)) (k : Nat) (v : β) :
    mget d (mset d m k v) k = v := by
  unfold mset
  split <;> simp [*]

theorem mget_mset_of_ne {β : Type} [DecidableEq β] (d c : β) (m : List (Nat × β)) (k j : Nat) (v : β) (h : j ≠ k) :
    mget d (mset c m k v) j = mget d m j := by
  unfold mset
  split
  · exact mget_merase_of_ne d m k j h
  · exact mget_mput_of_ne d m k j v h

theorem mem_mput {β : Type} {m : List (Nat × β)} {k : Nat} {v : β} {e : Nat × β} (h : e ∈ mput m k v) : e = (k, v) ∨ e ∈ m := by
  induction m with
  | nil => simpa [mput] using h
  | cons x t ih =>
    obtain ⟨a, w⟩ := x
    simp only [mput] at h
    split at h
    · simpa using h
    · split at h
      · rcases List.mem_cons.mp h with h | h <;> simp [h]
      · rcases List.mem_cons.mp h with h | h
        · simp [h]
        · rcases ih h with h | h <;> simp [h]

theorem keysRise_mput {β : Type} (m : List (Nat × β)) (k : Nat) (v : β) (h : keysRise m = true) : keysRise (mput m k v) = true := by
  induction m with
  | nil => rfl
  | cons x t ih =>
    obtain ⟨a, w⟩ := x
    have hx := (keysRise_cons a w t).mp h
    simp only [mput]
    split
    · rename_i hka
      refine (keysRise_cons ..).mpr ⟨?_, h⟩
      intro e he
      rcases List.mem_cons.mp he with rfl | he
      · exact hka
      · exact Nat.lt_trans hka (hx.1 e he)
    · split
      · subst a; exact (keysRise_cons ..).mpr hx
      · refine (keysRise_cons ..).mpr ⟨?_, ih hx.2⟩
        intro e he
        rcases mem_mput he with rfl | he
        · show a < k; omega
        · exact hx.1 e he

theorem keysRise_filter {β : Type} (m : List (Nat × β)) (p : Nat × β → Bool) (h : keysRise m = true) : keysRise (m.filter p) = true := by
  induction m with
  | nil => rfl
  | cons x t ih =>
    obtain ⟨a, w⟩ := x
    have hx := (keysRise_cons a w t).mp h
    rw [List.filter_cons]
    split
    · exact (keysRise_cons ..).mpr ⟨fun e he => hx.1 e (List.mem_filter.mp he).1, ih hx.2⟩
    · exact ih hx.2

theorem keysRise_mset {β : Type} [DecidableEq β] (d : β) (m : List (Nat × β)) (k : Nat) (v : β) (h : keysRise m = true) :
    keysRise (mset d m k v) = true := by
  unfold mset merase
  split
  · exact keysRise_filter m _ h
  · exact keysRise_mput m k v h

/-- No entry equals what an unlisted key reads as: kept by a write. -/
theorem mem_mset {β : Type} [DecidableEq β] {d : β} {m : List (Nat × β)} {k : Nat} {v : β} {e : Nat × β} (h : e ∈ mset d m k v) :
    (e = (k, v) ∧ v ≠ d) ∨ e ∈ m := by
  unfold mset merase at h
  split at h
  · exact .inr (List.mem_filter.mp h).1
  · rename_i hv
    rcases mem_mput h with h | h
    · exact .inl ⟨h, hv⟩
    · exact .inr h

theorem mhas_mput {β : Type} (m : List (Nat × β)) (k j : Nat) (v : β) : mhas (mput m k v) j = (mhas m j || decide (k = j)) := by
  induction m with
  | nil => simp [mput, mhas]
  | cons x t ih =>
    obtain ⟨a, w⟩ := x
    simp only [mput]
    by_cases hkj : k = j
    · subst hkj
      split
      · simp [mhas]
      · split <;> simp [mhas, *]
    · split
      · simp [mhas, hkj]
      · split
        · subst a; simp [mhas, hkj]
        · simp only [mhas, ih]; split <;> simp

/-- What each step keeps, a fold keeps. -/
theorem foldOver_keeps {α σ : Type} (P : σ → Prop) (f : α → σ → σ) (l : List α) (s : σ) (hs : P s) (hf : ∀ x s, P s → P (f x s)) :
    P (foldOver l f s) := by
  unfold foldOver
  induction l generalizing s with
  | nil => exact hs
  | cons x t ih => exact ih _ (hf x s hs)

end Sys2Proof.Laws
end

