-- ==== Sys2Proof/Laws/Memory.lean ====
section
/-! SUPPORT. Memory: reads after a write, and that every operation on the bytes keeps the canonical form. -/

namespace Sys2Proof.Laws

open Sys2Proof.Machine

theorem mem_wf_iff (m : Mem) :
    m.wf = true ↔ keysRise m.bytes = true ∧ ∀ e ∈ m.bytes, mhas m.undef (undefKey e.1) = true ∨ e.2 ≠ 0 := by
  simp [Mem.wf, List.all_eq_true, imp_iff_not_or]

theorem wr_undef (m : Mem) (a : Nat) (v : Byte) : (m.wr a v).undef = m.undef := by
  unfold Mem.wr; split <;> rfl

/-- What an unlisted address reads as does not depend on what is listed. -/
theorem memBg_wr (m : Mem) (a j : Nat) (v : Byte) : memBg (m.wr a v) j = memBg m j := by
  simp [memBg, wr_undef]

/-- A byte reads as it was written. -/
theorem rd_wr_self (m : Mem) (a : Nat) (v : Byte) : (m.wr a v).rd a = v := by
  unfold Mem.rd
  rw [memBg_wr]
  unfold Mem.wr
  split
  · simp
  · rename_i h
    have : memBg m a = 0 := by simp [memBg, h]
    simp [this]

/-- A write leaves every other byte alone. -/
theorem rd_wr_of_ne (m : Mem) (a j : Nat) (v : Byte) (h : j ≠ a) : (m.wr a v).rd j = m.rd j := by
  unfold Mem.rd
  rw [memBg_wr]
  unfold Mem.wr
  split
  · exact mget_mput_of_ne _ _ _ _ _ h
  · exact mget_mset_of_ne _ _ _ _ _ _ h

/-- Storing a byte keeps the canonical form. -/
theorem wr_wf (m : Mem) (a : Nat) (v : Byte) (h : m.wf = true) : (m.wr a v).wf = true := by
  obtain ⟨hr, hz⟩ := (mem_wf_iff m).mp h
  refine (mem_wf_iff _).mpr ?_
  rw [wr_undef]
  unfold Mem.wr
  split
  · rename_i hu
    refine ⟨keysRise_mput _ _ _ hr, fun e he => ?_⟩
    rcases mem_mput he with rfl | he
    · exact .inl hu
    · exact hz e he
  · refine ⟨keysRise_mset _ _ _ _ hr, fun e he => ?_⟩
    rcases mem_mset he with ⟨rfl, hv⟩ | he
    · exact .inr hv
    · exact hz e he

/-- Storing a string of bytes keeps the canonical form. -/
theorem wrN_wf (m : Mem) (a : Nat) (b : List Byte) (h : m.wf = true) : (m.wrN a b).wf = true := by
  induction b generalizing m a with
  | nil => exact h
  | cons v t ih => exact ih _ _ (wr_wf m a v h)

theorem state_wr_wf (s : State) (a : Nat) (b : List Byte) (h : s.mem.wf = true) : (s.wr a b).mem.wf = true :=
  wrN_wf s.mem a b h

/-- A row that becomes undefined keeps the canonical form. -/
theorem undefRow_wf (s : State) (k : Nat) (h : s.mem.wf = true) : (s.undefRow k).mem.wf = true := by
  obtain ⟨hr, hz⟩ := (mem_wf_iff _).mp h
  refine (mem_wf_iff _).mpr ⟨keysRise_filter _ _ hr, fun e he => ?_⟩
  rcases hz e (List.mem_filter.mp he).1 with h | h
  · left; simp [State.undefRow, mhas_mput, h]
  · exact .inr h

theorem mhas_foldl_mput (l : List Nat) (u : List (Nat × Nat)) (v j : Nat) (h : mhas u j = true) :
    mhas (l.foldl (fun u k => mput u k v) u) j = true := by
  induction l generalizing u with
  | nil => exact h
  | cons k t ih => exact ih _ (by simp [mhas_mput, h])

/-- The loss of a half's memory keeps the canonical form. -/
theorem clearMem_wf (s : State) (h : Half) (hs : s.mem.wf = true) : (s.clearMem h).mem.wf = true := by
  obtain ⟨hr, hz⟩ := (mem_wf_iff _).mp hs
  have : (s.clearMem h).mem.bytes = s.mem.bytes.filter (fun e => regionHalf e.1 ≠ some h) ∧
      (s.clearMem h).mem.undef = (undefKeys h).foldl (fun u k => mput u k s.fresh) s.mem.undef := by
    cases h <;> constructor <;> simp only [State.clearMem, State.setCache, State.drawn]
  refine (mem_wf_iff _).mpr ?_
  rw [this.1, this.2]
  refine ⟨keysRise_filter _ _ hr, fun e he => ?_⟩
  rcases hz e (List.mem_filter.mp he).1 with h | h
  · exact .inl (mhas_foldl_mput _ _ _ _ h)
  · exact .inr h

end Sys2Proof.Laws
end

