-- ==== Sys2Proof/Laws/Pages.lean ====
section
/-! SUPPORT. The map of BAR0: a page's offsets lead back to the page, and two pages do not meet. -/

namespace Sys2Proof.Laws

open Sys2Proof.Machine

/-- The page of an offset depends on its 4 KiB unit alone. -/
theorem pageOf_unit (a : Nat) : pageOf a = pageOf (a / 0x1000 * 0x1000) := by
  unfold pageOf
  rw [Nat.mul_div_cancel _ (by decide)]

theorem pageOf_base (p : Page) : pageOf (pageBase p) = some p := by
  cases p with
  | keeper | ck | sec | gTherm | gPwr | gClk | gCal => decide
  | mbx i => revert i; decide +kernel
  | ctrlch h | comb h | fwall h | seq h | pcie h | therm h | pwr h | clk h | cal h => cases h <;> decide
  | noc h i | hbmc h i | ddrc h i | hinge h i | oe h i | laser h i | ucie h i | oport h i | cell h i =>
    cases h <;> revert i <;> decide +kernel

theorem halfBase_eq (h : Half) : halfBase h = 0x01000000 ∨ halfBase h = 0x08000000 := by cases h <;> simp [halfBase]

theorem pageBase_unit (p : Page) : pageBase p % 0x1000 = 0 := by
  cases p with
  | keeper | ck | sec | gTherm | gPwr | gClk | gCal => rfl
  | mbx i => simp only [pageBase]; omega
  | ctrlch h | comb h | fwall h | seq h | pcie h | therm h | pwr h | clk h | cal h => have := halfBase_eq h; simp only [pageBase]; omega
  | noc h i | hbmc h i | ddrc h i | hinge h i | oe h i | laser h i | ucie h i | oport h i | cell h i =>
    have := halfBase_eq h; simp only [pageBase]; omega

/-- An offset within a page leads back to the page. -/
theorem pageOf_pageBase (p : Page) (o : Nat) (ho : o < 0x1000) : pageOf (pageBase p + o) = some p := by
  have h := pageBase_unit p
  rw [pageOf_unit, show (pageBase p + o) / 0x1000 * 0x1000 = pageBase p by omega, pageOf_base]

theorem pageBase_mod (p : Page) (o : Nat) (ho : o < 0x1000) : (pageBase p + o) % 0x1000 = o := by
  have h := pageBase_unit p
  omega

/-- Offsets of two pages differ. -/
theorem pageBase_ne (p q : Page) (i j : Nat) (hi : i < 0x1000) (hj : j < 0x1000) (h : p ≠ q) : pageBase p + i ≠ pageBase q + j := by
  intro e
  have := pageOf_pageBase p i hi
  rw [e, pageOf_pageBase q j hj] at this
  exact h (Option.some.inj this).symm

/-- No page lies in the MSI-X structures (09 R289). -/
theorem pageBase_msix (p : Page) : pageBase p < 0x800000 ∨ 0x808100 ≤ pageBase p := by
  cases p with
  | keeper | ck | sec | gTherm | gPwr | gClk | gCal => simp only [pageBase]; omega
  | mbx i => simp only [pageBase]; omega
  | ctrlch h | comb h | fwall h | seq h | pcie h | therm h | pwr h | clk h | cal h => have := halfBase_eq h; simp only [pageBase]; omega
  | noc h i | hbmc h i | ddrc h i | hinge h i | oe h i | laser h i | ucie h i | oport h i | cell h i =>
    have := halfBase_eq h; simp only [pageBase]; omega

end Sys2Proof.Laws
end

