-- ==== Sys2Proof/Laws/Regs.lean ====
section
/-! SUPPORT. Registers: reads after a write, and that every operation on the list of registers keeps its canonical form. -/

namespace Sys2Proof.Laws

open Sys2Proof.Machine

theorem regs_wf_iff (s : State) : regsWf s = true ↔ keysRise s.regs = true ∧ ∀ e ∈ s.regs, e.2 ≠ resetValue e.1 := by
  simp [regsWf, List.all_eq_true]

/-- A register reads as it was written. -/
@[simp] theorem reg_setReg_self (s : State) (a : Nat) (v : Word) : (s.setReg a v).reg a = v := by
  simp [State.reg, State.setReg]

/-- A write leaves every other register alone. -/
theorem reg_setReg_of_ne (s : State) (a j : Nat) (v : Word) (h : j ≠ a) : (s.setReg a v).reg j = s.reg j :=
  mget_mset_of_ne _ _ _ _ _ _ h

/-- Storing a register keeps the canonical form. -/
theorem setReg_wf (s : State) (a : Nat) (v : Word) (h : regsWf s = true) : regsWf (s.setReg a v) = true := by
  obtain ⟨hr, hz⟩ := (regs_wf_iff s).mp h
  refine (regs_wf_iff _).mpr ⟨keysRise_mset _ _ _ _ hr, fun e he => ?_⟩
  rcases mem_mset he with ⟨rfl, hv⟩ | he
  · exact hv
  · exact hz e he

theorem setF_wf (s : State) (p : Page) (f : Fld) (n : Nat) (h : regsWf s = true) : regsWf (s.setF p f n) = true :=
  setReg_wf _ _ _ h

theorem setFs_wf (s : State) (p : Page) (l : List (Fld × Nat)) (h : regsWf s = true) : regsWf (s.setFs p l) = true := by
  unfold State.setFs
  induction l generalizing s with
  | nil => exact h
  | cons e t ih => exact ih _ (setF_wf s p e.1 e.2 h)

/-- Taking registers off the list keeps the canonical form. -/
theorem filter_regs_wf (s : State) (q : Nat × Word → Bool) (h : regsWf s = true) :
    regsWf { s with regs := s.regs.filter q } = true := by
  obtain ⟨hr, hz⟩ := (regs_wf_iff s).mp h
  exact (regs_wf_iff _).mpr ⟨keysRise_filter _ _ hr, fun e he => hz e (List.mem_filter.mp he).1⟩

theorem resetPage_wf (s : State) (p : Page) (h : regsWf s = true) : regsWf (s.resetPage p) = true :=
  filter_regs_wf s _ h

theorem resetBlockRegs_wf (s : State) (p : Page) (h : regsWf s = true) : regsWf (s.resetBlockRegs p) = true :=
  filter_regs_wf s _ h

end Sys2Proof.Laws
end

