-- ==== Sys2Proof/Laws/State.lean ====
section
/-! SUPPORT. What each named update leaves alone, field by field, and what it writes. -/

namespace Sys2Proof.Machine

variable (s : State)

/-! `State.setReg` -/

@[simp] theorem State.setReg_latch (a : Nat) (v : Word) : (s.setReg a v).latch = s.latch := rfl
@[simp] theorem State.setReg_pins (a : Nat) (v : Word) : (s.setReg a v).pins = s.pins := rfl
@[simp] theorem State.setReg_dies (a : Nat) (v : Word) : (s.setReg a v).dies = s.dies := rfl
@[simp] theorem State.setReg_mem (a : Nat) (v : Word) : (s.setReg a v).mem = s.mem := rfl
@[simp] theorem State.setReg_cells (a : Nat) (v : Word) : (s.setReg a v).cells = s.cells := rfl
@[simp] theorem State.setReg_swaps (a : Nat) (v : Word) : (s.setReg a v).swaps = s.swaps := rfl
@[simp] theorem State.setReg_queues (a : Nat) (v : Word) : (s.setReg a v).queues = s.queues := rfl
@[simp] theorem State.setReg_rsvA (a : Nat) (v : Word) : (s.setReg a v).rsvA = s.rsvA := rfl
@[simp] theorem State.setReg_rsvB (a : Nat) (v : Word) : (s.setReg a v).rsvB = s.rsvB := rfl
@[simp] theorem State.setReg_sems (a : Nat) (v : Word) : (s.setReg a v).sems = s.sems := rfl
@[simp] theorem State.setReg_dlinks (a : Nat) (v : Word) : (s.setReg a v).dlinks = s.dlinks := rfl
@[simp] theorem State.setReg_parts (a : Nat) (v : Word) : (s.setReg a v).parts = s.parts := rfl
@[simp] theorem State.setReg_arbs (a : Nat) (v : Word) : (s.setReg a v).arbs = s.arbs := rfl
@[simp] theorem State.setReg_throttled (a : Nat) (v : Word) : (s.setReg a v).throttled = s.throttled := rfl
@[simp] theorem State.setReg_volts (a : Nat) (v : Word) : (s.setReg a v).volts = s.volts := rfl
@[simp] theorem State.setReg_fwWins (a : Nat) (v : Word) : (s.setReg a v).fwWins = s.fwWins := rfl
@[simp] theorem State.setReg_oes (a : Nat) (v : Word) : (s.setReg a v).oes = s.oes := rfl
@[simp] theorem State.setReg_ports (a : Nat) (v : Word) : (s.setReg a v).ports = s.ports := rfl
@[simp] theorem State.setReg_reqs (a : Nat) (v : Word) : (s.setReg a v).reqs = s.reqs := rfl
@[simp] theorem State.setReg_epochs (a : Nat) (v : Word) : (s.setReg a v).epochs = s.epochs := rfl
@[simp] theorem State.setReg_partners (a : Nat) (v : Word) : (s.setReg a v).partners = s.partners := rfl
@[simp] theorem State.setReg_transit (a : Nat) (v : Word) : (s.setReg a v).transit = s.transit := rfl
@[simp] theorem State.setReg_rcache (a : Nat) (v : Word) : (s.setReg a v).rcache = s.rcache := rfl
@[simp] theorem State.setReg_fctx (a : Nat) (v : Word) : (s.setReg a v).fctx = s.fctx := rfl
@[simp] theorem State.setReg_rcopies (a : Nat) (v : Word) : (s.setReg a v).rcopies = s.rcopies := rfl
@[simp] theorem State.setReg_colls (a : Nat) (v : Word) : (s.setReg a v).colls = s.colls := rfl
@[simp] theorem State.setReg_swarms (a : Nat) (v : Word) : (s.setReg a v).swarms = s.swarms := rfl
@[simp] theorem State.setReg_readys (a : Nat) (v : Word) : (s.setReg a v).readys = s.readys := rfl
@[simp] theorem State.setReg_aborted (a : Nat) (v : Word) : (s.setReg a v).aborted = s.aborted := rfl
@[simp] theorem State.setReg_session (a : Nat) (v : Word) : (s.setReg a v).session = s.session := rfl
@[simp] theorem State.setReg_reduced (a : Nat) (v : Word) : (s.setReg a v).reduced = s.reduced := rfl
@[simp] theorem State.setReg_bonds (a : Nat) (v : Word) : (s.setReg a v).bonds = s.bonds := rfl
@[simp] theorem State.setReg_portA (a : Nat) (v : Word) : (s.setReg a v).portA = s.portA := rfl
@[simp] theorem State.setReg_portB (a : Nat) (v : Word) : (s.setReg a v).portB = s.portB := rfl
@[simp] theorem State.setReg_hreads (a : Nat) (v : Word) : (s.setReg a v).hreads = s.hreads := rfl
@[simp] theorem State.setReg_hid (a : Nat) (v : Word) : (s.setReg a v).hid = s.hid := rfl
@[simp] theorem State.setReg_lostQ (a : Nat) (v : Word) : (s.setReg a v).lostQ = s.lostQ := rfl
@[simp] theorem State.setReg_fwq (a : Nat) (v : Word) : (s.setReg a v).fwq = s.fwq := rfl
@[simp] theorem State.setReg_noteSeq (a : Nat) (v : Word) : (s.setReg a v).noteSeq = s.noteSeq := rfl
@[simp] theorem State.setReg_cc (a : Nat) (v : Word) : (s.setReg a v).cc = s.cc := rfl
@[simp] theorem State.setReg_evq (a : Nat) (v : Word) : (s.setReg a v).evq = s.evq := rfl
@[simp] theorem State.setReg_i3c (a : Nat) (v : Word) : (s.setReg a v).i3c = s.i3c := rfl
@[simp] theorem State.setReg_telem (a : Nat) (v : Word) : (s.setReg a v).telem = s.telem := rfl
@[simp] theorem State.setReg_dimmIn (a : Nat) (v : Word) : (s.setReg a v).dimmIn = s.dimmIn := rfl
@[simp] theorem State.setReg_dimmNext (a : Nat) (v : Word) : (s.setReg a v).dimmNext = s.dimmNext := rfl
@[simp] theorem State.setReg_spdOut (a : Nat) (v : Word) : (s.setReg a v).spdOut = s.spdOut := rfl
@[simp] theorem State.setReg_sens (a : Nat) (v : Word) : (s.setReg a v).sens = s.sens := rfl
@[simp] theorem State.setReg_excl (a : Nat) (v : Word) : (s.setReg a v).excl = s.excl := rfl
@[simp] theorem State.setReg_watch (a : Nat) (v : Word) : (s.setReg a v).watch = s.watch := rfl
@[simp] theorem State.setReg_ticks (a : Nat) (v : Word) : (s.setReg a v).ticks = s.ticks := rfl
@[simp] theorem State.setReg_cdclk (a : Nat) (v : Word) : (s.setReg a v).cdclk = s.cdclk := rfl
@[simp] theorem State.setReg_ppr (a : Nat) (v : Word) : (s.setReg a v).ppr = s.ppr := rfl
@[simp] theorem State.setReg_capHbm (a : Nat) (v : Word) : (s.setReg a v).capHbm = s.capHbm := rfl
@[simp] theorem State.setReg_capHeld (a : Nat) (v : Word) : (s.setReg a v).capHeld = s.capHeld := rfl
@[simp] theorem State.setReg_lostWhy (a : Nat) (v : Word) : (s.setReg a v).lostWhy = s.lostWhy := rfl
@[simp] theorem State.setReg_cdHit (a : Nat) (v : Word) : (s.setReg a v).cdHit = s.cdHit := rfl
@[simp] theorem State.setReg_cals (a : Nat) (v : Word) : (s.setReg a v).cals = s.cals := rfl
@[simp] theorem State.setReg_cfg (a : Nat) (v : Word) : (s.setReg a v).cfg = s.cfg := rfl
@[simp] theorem State.setReg_sec (a : Nat) (v : Word) : (s.setReg a v).sec = s.sec := rfl
@[simp] theorem State.setReg_tap (a : Nat) (v : Word) : (s.setReg a v).tap = s.tap := rfl
@[simp] theorem State.setReg_spdm (a : Nat) (v : Word) : (s.setReg a v).spdm = s.spdm := rfl
@[simp] theorem State.setReg_fn0 (a : Nat) (v : Word) : (s.setReg a v).fn0 = s.fn0 := rfl
@[simp] theorem State.setReg_fn1 (a : Nat) (v : Word) : (s.setReg a v).fn1 = s.fn1 := rfl
@[simp] theorem State.setReg_ringA (a : Nat) (v : Word) : (s.setReg a v).ringA = s.ringA := rfl
@[simp] theorem State.setReg_ringB (a : Nat) (v : Word) : (s.setReg a v).ringB = s.ringB := rfl
@[simp] theorem State.setReg_coal (a : Nat) (v : Word) : (s.setReg a v).coal = s.coal := rfl
@[simp] theorem State.setReg_nv (a : Nat) (v : Word) : (s.setReg a v).nv = s.nv := rfl
@[simp] theorem State.setReg_out (a : Nat) (v : Word) : (s.setReg a v).out = s.out := rfl
@[simp] theorem State.setReg_fresh (a : Nat) (v : Word) : (s.setReg a v).fresh = s.fresh := rfl
@[simp] theorem State.setReg_pending (a : Nat) (v : Word) : (s.setReg a v).pending = s.pending := rfl

/-! `State.setF` -/

@[simp] theorem State.setF_latch (p : Page) (f : Fld) (n : Nat) : (s.setF p f n).latch = s.latch := rfl
@[simp] theorem State.setF_pins (p : Page) (f : Fld) (n : Nat) : (s.setF p f n).pins = s.pins := rfl
@[simp] theorem State.setF_dies (p : Page) (f : Fld) (n : Nat) : (s.setF p f n).dies = s.dies := rfl
@[simp] theorem State.setF_mem (p : Page) (f : Fld) (n : Nat) : (s.setF p f n).mem = s.mem := rfl
@[simp] theorem State.setF_cells (p : Page) (f : Fld) (n : Nat) : (s.setF p f n).cells = s.cells := rfl
@[simp] theorem State.setF_swaps (p : Page) (f : Fld) (n : Nat) : (s.setF p f n).swaps = s.swaps := rfl
@[simp] theorem State.setF_queues (p : Page) (f : Fld) (n : Nat) : (s.setF p f n).queues = s.queues := rfl
@[simp] theorem State.setF_rsvA (p : Page) (f : Fld) (n : Nat) : (s.setF p f n).rsvA = s.rsvA := rfl
@[simp] theorem State.setF_rsvB (p : Page) (f : Fld) (n : Nat) : (s.setF p f n).rsvB = s.rsvB := rfl
@[simp] theorem State.setF_sems (p : Page) (f : Fld) (n : Nat) : (s.setF p f n).sems = s.sems := rfl
@[simp] theorem State.setF_dlinks (p : Page) (f : Fld) (n : Nat) : (s.setF p f n).dlinks = s.dlinks := rfl
@[simp] theorem State.setF_parts (p : Page) (f : Fld) (n : Nat) : (s.setF p f n).parts = s.parts := rfl
@[simp] theorem State.setF_arbs (p : Page) (f : Fld) (n : Nat) : (s.setF p f n).arbs = s.arbs := rfl
@[simp] theorem State.setF_throttled (p : Page) (f : Fld) (n : Nat) : (s.setF p f n).throttled = s.throttled := rfl
@[simp] theorem State.setF_volts (p : Page) (f : Fld) (n : Nat) : (s.setF p f n).volts = s.volts := rfl
@[simp] theorem State.setF_fwWins (p : Page) (f : Fld) (n : Nat) : (s.setF p f n).fwWins = s.fwWins := rfl
@[simp] theorem State.setF_oes (p : Page) (f : Fld) (n : Nat) : (s.setF p f n).oes = s.oes := rfl
@[simp] theorem State.setF_ports (p : Page) (f : Fld) (n : Nat) : (s.setF p f n).ports = s.ports := rfl
@[simp] theorem State.setF_reqs (p : Page) (f : Fld) (n : Nat) : (s.setF p f n).reqs = s.reqs := rfl
@[simp] theorem State.setF_epochs (p : Page) (f : Fld) (n : Nat) : (s.setF p f n).epochs = s.epochs := rfl
@[simp] theorem State.setF_partners (p : Page) (f : Fld) (n : Nat) : (s.setF p f n).partners = s.partners := rfl
@[simp] theorem State.setF_transit (p : Page) (f : Fld) (n : Nat) : (s.setF p f n).transit = s.transit := rfl
@[simp] theorem State.setF_rcache (p : Page) (f : Fld) (n : Nat) : (s.setF p f n).rcache = s.rcache := rfl
@[simp] theorem State.setF_fctx (p : Page) (f : Fld) (n : Nat) : (s.setF p f n).fctx = s.fctx := rfl
@[simp] theorem State.setF_rcopies (p : Page) (f : Fld) (n : Nat) : (s.setF p f n).rcopies = s.rcopies := rfl
@[simp] theorem State.setF_colls (p : Page) (f : Fld) (n : Nat) : (s.setF p f n).colls = s.colls := rfl
@[simp] theorem State.setF_swarms (p : Page) (f : Fld) (n : Nat) : (s.setF p f n).swarms = s.swarms := rfl
@[simp] theorem State.setF_readys (p : Page) (f : Fld) (n : Nat) : (s.setF p f n).readys = s.readys := rfl
@[simp] theorem State.setF_aborted (p : Page) (f : Fld) (n : Nat) : (s.setF p f n).aborted = s.aborted := rfl
@[simp] theorem State.setF_session (p : Page) (f : Fld) (n : Nat) : (s.setF p f n).session = s.session := rfl
@[simp] theorem State.setF_reduced (p : Page) (f : Fld) (n : Nat) : (s.setF p f n).reduced = s.reduced := rfl
@[simp] theorem State.setF_bonds (p : Page) (f : Fld) (n : Nat) : (s.setF p f n).bonds = s.bonds := rfl
@[simp] theorem State.setF_portA (p : Page) (f : Fld) (n : Nat) : (s.setF p f n).portA = s.portA := rfl
@[simp] theorem State.setF_portB (p : Page) (f : Fld) (n : Nat) : (s.setF p f n).portB = s.portB := rfl
@[simp] theorem State.setF_hreads (p : Page) (f : Fld) (n : Nat) : (s.setF p f n).hreads = s.hreads := rfl
@[simp] theorem State.setF_hid (p : Page) (f : Fld) (n : Nat) : (s.setF p f n).hid = s.hid := rfl
@[simp] theorem State.setF_lostQ (p : Page) (f : Fld) (n : Nat) : (s.setF p f n).lostQ = s.lostQ := rfl
@[simp] theorem State.setF_fwq (p : Page) (f : Fld) (n : Nat) : (s.setF p f n).fwq = s.fwq := rfl
@[simp] theorem State.setF_noteSeq (p : Page) (f : Fld) (n : Nat) : (s.setF p f n).noteSeq = s.noteSeq := rfl
@[simp] theorem State.setF_cc (p : Page) (f : Fld) (n : Nat) : (s.setF p f n).cc = s.cc := rfl
@[simp] theorem State.setF_evq (p : Page) (f : Fld) (n : Nat) : (s.setF p f n).evq = s.evq := rfl
@[simp] theorem State.setF_i3c (p : Page) (f : Fld) (n : Nat) : (s.setF p f n).i3c = s.i3c := rfl
@[simp] theorem State.setF_telem (p : Page) (f : Fld) (n : Nat) : (s.setF p f n).telem = s.telem := rfl
@[simp] theorem State.setF_dimmIn (p : Page) (f : Fld) (n : Nat) : (s.setF p f n).dimmIn = s.dimmIn := rfl
@[simp] theorem State.setF_dimmNext (p : Page) (f : Fld) (n : Nat) : (s.setF p f n).dimmNext = s.dimmNext := rfl
@[simp] theorem State.setF_spdOut (p : Page) (f : Fld) (n : Nat) : (s.setF p f n).spdOut = s.spdOut := rfl
@[simp] theorem State.setF_sens (p : Page) (f : Fld) (n : Nat) : (s.setF p f n).sens = s.sens := rfl
@[simp] theorem State.setF_excl (p : Page) (f : Fld) (n : Nat) : (s.setF p f n).excl = s.excl := rfl
@[simp] theorem State.setF_watch (p : Page) (f : Fld) (n : Nat) : (s.setF p f n).watch = s.watch := rfl
@[simp] theorem State.setF_ticks (p : Page) (f : Fld) (n : Nat) : (s.setF p f n).ticks = s.ticks := rfl
@[simp] theorem State.setF_cdclk (p : Page) (f : Fld) (n : Nat) : (s.setF p f n).cdclk = s.cdclk := rfl
@[simp] theorem State.setF_ppr (p : Page) (f : Fld) (n : Nat) : (s.setF p f n).ppr = s.ppr := rfl
@[simp] theorem State.setF_capHbm (p : Page) (f : Fld) (n : Nat) : (s.setF p f n).capHbm = s.capHbm := rfl
@[simp] theorem State.setF_capHeld (p : Page) (f : Fld) (n : Nat) : (s.setF p f n).capHeld = s.capHeld := rfl
@[simp] theorem State.setF_lostWhy (p : Page) (f : Fld) (n : Nat) : (s.setF p f n).lostWhy = s.lostWhy := rfl
@[simp] theorem State.setF_cdHit (p : Page) (f : Fld) (n : Nat) : (s.setF p f n).cdHit = s.cdHit := rfl
@[simp] theorem State.setF_cals (p : Page) (f : Fld) (n : Nat) : (s.setF p f n).cals = s.cals := rfl
@[simp] theorem State.setF_cfg (p : Page) (f : Fld) (n : Nat) : (s.setF p f n).cfg = s.cfg := rfl
@[simp] theorem State.setF_sec (p : Page) (f : Fld) (n : Nat) : (s.setF p f n).sec = s.sec := rfl
@[simp] theorem State.setF_tap (p : Page) (f : Fld) (n : Nat) : (s.setF p f n).tap = s.tap := rfl
@[simp] theorem State.setF_spdm (p : Page) (f : Fld) (n : Nat) : (s.setF p f n).spdm = s.spdm := rfl
@[simp] theorem State.setF_fn0 (p : Page) (f : Fld) (n : Nat) : (s.setF p f n).fn0 = s.fn0 := rfl
@[simp] theorem State.setF_fn1 (p : Page) (f : Fld) (n : Nat) : (s.setF p f n).fn1 = s.fn1 := rfl
@[simp] theorem State.setF_ringA (p : Page) (f : Fld) (n : Nat) : (s.setF p f n).ringA = s.ringA := rfl
@[simp] theorem State.setF_ringB (p : Page) (f : Fld) (n : Nat) : (s.setF p f n).ringB = s.ringB := rfl
@[simp] theorem State.setF_coal (p : Page) (f : Fld) (n : Nat) : (s.setF p f n).coal = s.coal := rfl
@[simp] theorem State.setF_nv (p : Page) (f : Fld) (n : Nat) : (s.setF p f n).nv = s.nv := rfl
@[simp] theorem State.setF_out (p : Page) (f : Fld) (n : Nat) : (s.setF p f n).out = s.out := rfl
@[simp] theorem State.setF_fresh (p : Page) (f : Fld) (n : Nat) : (s.setF p f n).fresh = s.fresh := rfl
@[simp] theorem State.setF_pending (p : Page) (f : Fld) (n : Nat) : (s.setF p f n).pending = s.pending := rfl

/-! `State.drawn` -/

@[simp] theorem State.drawn_regs (n : Nat) : (s.drawn n).regs = s.regs := rfl
@[simp] theorem State.drawn_latch (n : Nat) : (s.drawn n).latch = s.latch := rfl
@[simp] theorem State.drawn_pins (n : Nat) : (s.drawn n).pins = s.pins := rfl
@[simp] theorem State.drawn_dies (n : Nat) : (s.drawn n).dies = s.dies := rfl
@[simp] theorem State.drawn_mem (n : Nat) : (s.drawn n).mem = s.mem := rfl
@[simp] theorem State.drawn_cells (n : Nat) : (s.drawn n).cells = s.cells := rfl
@[simp] theorem State.drawn_swaps (n : Nat) : (s.drawn n).swaps = s.swaps := rfl
@[simp] theorem State.drawn_queues (n : Nat) : (s.drawn n).queues = s.queues := rfl
@[simp] theorem State.drawn_rsvA (n : Nat) : (s.drawn n).rsvA = s.rsvA := rfl
@[simp] theorem State.drawn_rsvB (n : Nat) : (s.drawn n).rsvB = s.rsvB := rfl
@[simp] theorem State.drawn_sems (n : Nat) : (s.drawn n).sems = s.sems := rfl
@[simp] theorem State.drawn_dlinks (n : Nat) : (s.drawn n).dlinks = s.dlinks := rfl
@[simp] theorem State.drawn_parts (n : Nat) : (s.drawn n).parts = s.parts := rfl
@[simp] theorem State.drawn_arbs (n : Nat) : (s.drawn n).arbs = s.arbs := rfl
@[simp] theorem State.drawn_throttled (n : Nat) : (s.drawn n).throttled = s.throttled := rfl
@[simp] theorem State.drawn_volts (n : Nat) : (s.drawn n).volts = s.volts := rfl
@[simp] theorem State.drawn_fwWins (n : Nat) : (s.drawn n).fwWins = s.fwWins := rfl
@[simp] theorem State.drawn_oes (n : Nat) : (s.drawn n).oes = s.oes := rfl
@[simp] theorem State.drawn_ports (n : Nat) : (s.drawn n).ports = s.ports := rfl
@[simp] theorem State.drawn_reqs (n : Nat) : (s.drawn n).reqs = s.reqs := rfl
@[simp] theorem State.drawn_epochs (n : Nat) : (s.drawn n).epochs = s.epochs := rfl
@[simp] theorem State.drawn_partners (n : Nat) : (s.drawn n).partners = s.partners := rfl
@[simp] theorem State.drawn_transit (n : Nat) : (s.drawn n).transit = s.transit := rfl
@[simp] theorem State.drawn_rcache (n : Nat) : (s.drawn n).rcache = s.rcache := rfl
@[simp] theorem State.drawn_fctx (n : Nat) : (s.drawn n).fctx = s.fctx := rfl
@[simp] theorem State.drawn_rcopies (n : Nat) : (s.drawn n).rcopies = s.rcopies := rfl
@[simp] theorem State.drawn_colls (n : Nat) : (s.drawn n).colls = s.colls := rfl
@[simp] theorem State.drawn_swarms (n : Nat) : (s.drawn n).swarms = s.swarms := rfl
@[simp] theorem State.drawn_readys (n : Nat) : (s.drawn n).readys = s.readys := rfl
@[simp] theorem State.drawn_aborted (n : Nat) : (s.drawn n).aborted = s.aborted := rfl
@[simp] theorem State.drawn_session (n : Nat) : (s.drawn n).session = s.session := rfl
@[simp] theorem State.drawn_reduced (n : Nat) : (s.drawn n).reduced = s.reduced := rfl
@[simp] theorem State.drawn_bonds (n : Nat) : (s.drawn n).bonds = s.bonds := rfl
@[simp] theorem State.drawn_portA (n : Nat) : (s.drawn n).portA = s.portA := rfl
@[simp] theorem State.drawn_portB (n : Nat) : (s.drawn n).portB = s.portB := rfl
@[simp] theorem State.drawn_hreads (n : Nat) : (s.drawn n).hreads = s.hreads := rfl
@[simp] theorem State.drawn_hid (n : Nat) : (s.drawn n).hid = s.hid := rfl
@[simp] theorem State.drawn_lostQ (n : Nat) : (s.drawn n).lostQ = s.lostQ := rfl
@[simp] theorem State.drawn_fwq (n : Nat) : (s.drawn n).fwq = s.fwq := rfl
@[simp] theorem State.drawn_noteSeq (n : Nat) : (s.drawn n).noteSeq = s.noteSeq := rfl
@[simp] theorem State.drawn_cc (n : Nat) : (s.drawn n).cc = s.cc := rfl
@[simp] theorem State.drawn_evq (n : Nat) : (s.drawn n).evq = s.evq := rfl
@[simp] theorem State.drawn_i3c (n : Nat) : (s.drawn n).i3c = s.i3c := rfl
@[simp] theorem State.drawn_telem (n : Nat) : (s.drawn n).telem = s.telem := rfl
@[simp] theorem State.drawn_dimmIn (n : Nat) : (s.drawn n).dimmIn = s.dimmIn := rfl
@[simp] theorem State.drawn_dimmNext (n : Nat) : (s.drawn n).dimmNext = s.dimmNext := rfl
@[simp] theorem State.drawn_spdOut (n : Nat) : (s.drawn n).spdOut = s.spdOut := rfl
@[simp] theorem State.drawn_sens (n : Nat) : (s.drawn n).sens = s.sens := rfl
@[simp] theorem State.drawn_excl (n : Nat) : (s.drawn n).excl = s.excl := rfl
@[simp] theorem State.drawn_watch (n : Nat) : (s.drawn n).watch = s.watch := rfl
@[simp] theorem State.drawn_ticks (n : Nat) : (s.drawn n).ticks = s.ticks := rfl
@[simp] theorem State.drawn_cdclk (n : Nat) : (s.drawn n).cdclk = s.cdclk := rfl
@[simp] theorem State.drawn_ppr (n : Nat) : (s.drawn n).ppr = s.ppr := rfl
@[simp] theorem State.drawn_capHbm (n : Nat) : (s.drawn n).capHbm = s.capHbm := rfl
@[simp] theorem State.drawn_capHeld (n : Nat) : (s.drawn n).capHeld = s.capHeld := rfl
@[simp] theorem State.drawn_lostWhy (n : Nat) : (s.drawn n).lostWhy = s.lostWhy := rfl
@[simp] theorem State.drawn_cdHit (n : Nat) : (s.drawn n).cdHit = s.cdHit := rfl
@[simp] theorem State.drawn_cals (n : Nat) : (s.drawn n).cals = s.cals := rfl
@[simp] theorem State.drawn_cfg (n : Nat) : (s.drawn n).cfg = s.cfg := rfl
@[simp] theorem State.drawn_sec (n : Nat) : (s.drawn n).sec = s.sec := rfl
@[simp] theorem State.drawn_tap (n : Nat) : (s.drawn n).tap = s.tap := rfl
@[simp] theorem State.drawn_spdm (n : Nat) : (s.drawn n).spdm = s.spdm := rfl
@[simp] theorem State.drawn_fn0 (n : Nat) : (s.drawn n).fn0 = s.fn0 := rfl
@[simp] theorem State.drawn_fn1 (n : Nat) : (s.drawn n).fn1 = s.fn1 := rfl
@[simp] theorem State.drawn_ringA (n : Nat) : (s.drawn n).ringA = s.ringA := rfl
@[simp] theorem State.drawn_ringB (n : Nat) : (s.drawn n).ringB = s.ringB := rfl
@[simp] theorem State.drawn_coal (n : Nat) : (s.drawn n).coal = s.coal := rfl
@[simp] theorem State.drawn_nv (n : Nat) : (s.drawn n).nv = s.nv := rfl
@[simp] theorem State.drawn_out (n : Nat) : (s.drawn n).out = s.out := rfl
@[simp] theorem State.drawn_pending (n : Nat) : (s.drawn n).pending = s.pending := rfl

/-! `State.emit` -/

@[simp] theorem State.emit_regs (o : Out) : (s.emit o).regs = s.regs := rfl
@[simp] theorem State.emit_latch (o : Out) : (s.emit o).latch = s.latch := rfl
@[simp] theorem State.emit_pins (o : Out) : (s.emit o).pins = s.pins := rfl
@[simp] theorem State.emit_dies (o : Out) : (s.emit o).dies = s.dies := rfl
@[simp] theorem State.emit_mem (o : Out) : (s.emit o).mem = s.mem := rfl
@[simp] theorem State.emit_cells (o : Out) : (s.emit o).cells = s.cells := rfl
@[simp] theorem State.emit_swaps (o : Out) : (s.emit o).swaps = s.swaps := rfl
@[simp] theorem State.emit_queues (o : Out) : (s.emit o).queues = s.queues := rfl
@[simp] theorem State.emit_rsvA (o : Out) : (s.emit o).rsvA = s.rsvA := rfl
@[simp] theorem State.emit_rsvB (o : Out) : (s.emit o).rsvB = s.rsvB := rfl
@[simp] theorem State.emit_sems (o : Out) : (s.emit o).sems = s.sems := rfl
@[simp] theorem State.emit_dlinks (o : Out) : (s.emit o).dlinks = s.dlinks := rfl
@[simp] theorem State.emit_parts (o : Out) : (s.emit o).parts = s.parts := rfl
@[simp] theorem State.emit_arbs (o : Out) : (s.emit o).arbs = s.arbs := rfl
@[simp] theorem State.emit_throttled (o : Out) : (s.emit o).throttled = s.throttled := rfl
@[simp] theorem State.emit_volts (o : Out) : (s.emit o).volts = s.volts := rfl
@[simp] theorem State.emit_fwWins (o : Out) : (s.emit o).fwWins = s.fwWins := rfl
@[simp] theorem State.emit_oes (o : Out) : (s.emit o).oes = s.oes := rfl
@[simp] theorem State.emit_ports (o : Out) : (s.emit o).ports = s.ports := rfl
@[simp] theorem State.emit_reqs (o : Out) : (s.emit o).reqs = s.reqs := rfl
@[simp] theorem State.emit_epochs (o : Out) : (s.emit o).epochs = s.epochs := rfl
@[simp] theorem State.emit_partners (o : Out) : (s.emit o).partners = s.partners := rfl
@[simp] theorem State.emit_transit (o : Out) : (s.emit o).transit = s.transit := rfl
@[simp] theorem State.emit_rcache (o : Out) : (s.emit o).rcache = s.rcache := rfl
@[simp] theorem State.emit_fctx (o : Out) : (s.emit o).fctx = s.fctx := rfl
@[simp] theorem State.emit_rcopies (o : Out) : (s.emit o).rcopies = s.rcopies := rfl
@[simp] theorem State.emit_colls (o : Out) : (s.emit o).colls = s.colls := rfl
@[simp] theorem State.emit_swarms (o : Out) : (s.emit o).swarms = s.swarms := rfl
@[simp] theorem State.emit_readys (o : Out) : (s.emit o).readys = s.readys := rfl
@[simp] theorem State.emit_aborted (o : Out) : (s.emit o).aborted = s.aborted := rfl
@[simp] theorem State.emit_session (o : Out) : (s.emit o).session = s.session := rfl
@[simp] theorem State.emit_reduced (o : Out) : (s.emit o).reduced = s.reduced := rfl
@[simp] theorem State.emit_bonds (o : Out) : (s.emit o).bonds = s.bonds := rfl
@[simp] theorem State.emit_portA (o : Out) : (s.emit o).portA = s.portA := rfl
@[simp] theorem State.emit_portB (o : Out) : (s.emit o).portB = s.portB := rfl
@[simp] theorem State.emit_hreads (o : Out) : (s.emit o).hreads = s.hreads := rfl
@[simp] theorem State.emit_hid (o : Out) : (s.emit o).hid = s.hid := rfl
@[simp] theorem State.emit_lostQ (o : Out) : (s.emit o).lostQ = s.lostQ := rfl
@[simp] theorem State.emit_fwq (o : Out) : (s.emit o).fwq = s.fwq := rfl
@[simp] theorem State.emit_noteSeq (o : Out) : (s.emit o).noteSeq = s.noteSeq := rfl
@[simp] theorem State.emit_cc (o : Out) : (s.emit o).cc = s.cc := rfl
@[simp] theorem State.emit_evq (o : Out) : (s.emit o).evq = s.evq := rfl
@[simp] theorem State.emit_i3c (o : Out) : (s.emit o).i3c = s.i3c := rfl
@[simp] theorem State.emit_telem (o : Out) : (s.emit o).telem = s.telem := rfl
@[simp] theorem State.emit_dimmIn (o : Out) : (s.emit o).dimmIn = s.dimmIn := rfl
@[simp] theorem State.emit_dimmNext (o : Out) : (s.emit o).dimmNext = s.dimmNext := rfl
@[simp] theorem State.emit_spdOut (o : Out) : (s.emit o).spdOut = s.spdOut := rfl
@[simp] theorem State.emit_sens (o : Out) : (s.emit o).sens = s.sens := rfl
@[simp] theorem State.emit_excl (o : Out) : (s.emit o).excl = s.excl := rfl
@[simp] theorem State.emit_watch (o : Out) : (s.emit o).watch = s.watch := rfl
@[simp] theorem State.emit_ticks (o : Out) : (s.emit o).ticks = s.ticks := rfl
@[simp] theorem State.emit_cdclk (o : Out) : (s.emit o).cdclk = s.cdclk := rfl
@[simp] theorem State.emit_ppr (o : Out) : (s.emit o).ppr = s.ppr := rfl
@[simp] theorem State.emit_capHbm (o : Out) : (s.emit o).capHbm = s.capHbm := rfl
@[simp] theorem State.emit_capHeld (o : Out) : (s.emit o).capHeld = s.capHeld := rfl
@[simp] theorem State.emit_lostWhy (o : Out) : (s.emit o).lostWhy = s.lostWhy := rfl
@[simp] theorem State.emit_cdHit (o : Out) : (s.emit o).cdHit = s.cdHit := rfl
@[simp] theorem State.emit_cals (o : Out) : (s.emit o).cals = s.cals := rfl
@[simp] theorem State.emit_cfg (o : Out) : (s.emit o).cfg = s.cfg := rfl
@[simp] theorem State.emit_sec (o : Out) : (s.emit o).sec = s.sec := rfl
@[simp] theorem State.emit_tap (o : Out) : (s.emit o).tap = s.tap := rfl
@[simp] theorem State.emit_spdm (o : Out) : (s.emit o).spdm = s.spdm := rfl
@[simp] theorem State.emit_fn0 (o : Out) : (s.emit o).fn0 = s.fn0 := rfl
@[simp] theorem State.emit_fn1 (o : Out) : (s.emit o).fn1 = s.fn1 := rfl
@[simp] theorem State.emit_ringA (o : Out) : (s.emit o).ringA = s.ringA := rfl
@[simp] theorem State.emit_ringB (o : Out) : (s.emit o).ringB = s.ringB := rfl
@[simp] theorem State.emit_coal (o : Out) : (s.emit o).coal = s.coal := rfl
@[simp] theorem State.emit_nv (o : Out) : (s.emit o).nv = s.nv := rfl
@[simp] theorem State.emit_fresh (o : Out) : (s.emit o).fresh = s.fresh := rfl
@[simp] theorem State.emit_pending (o : Out) : (s.emit o).pending = s.pending := rfl

/-! `State.setDie` -/

@[simp] theorem State.setDie_regs (d : Nat) (x : DieSt) : (s.setDie d x).regs = s.regs := rfl
@[simp] theorem State.setDie_latch (d : Nat) (x : DieSt) : (s.setDie d x).latch = s.latch := rfl
@[simp] theorem State.setDie_pins (d : Nat) (x : DieSt) : (s.setDie d x).pins = s.pins := rfl
@[simp] theorem State.setDie_mem (d : Nat) (x : DieSt) : (s.setDie d x).mem = s.mem := rfl
@[simp] theorem State.setDie_cells (d : Nat) (x : DieSt) : (s.setDie d x).cells = s.cells := rfl
@[simp] theorem State.setDie_swaps (d : Nat) (x : DieSt) : (s.setDie d x).swaps = s.swaps := rfl
@[simp] theorem State.setDie_queues (d : Nat) (x : DieSt) : (s.setDie d x).queues = s.queues := rfl
@[simp] theorem State.setDie_rsvA (d : Nat) (x : DieSt) : (s.setDie d x).rsvA = s.rsvA := rfl
@[simp] theorem State.setDie_rsvB (d : Nat) (x : DieSt) : (s.setDie d x).rsvB = s.rsvB := rfl
@[simp] theorem State.setDie_sems (d : Nat) (x : DieSt) : (s.setDie d x).sems = s.sems := rfl
@[simp] theorem State.setDie_dlinks (d : Nat) (x : DieSt) : (s.setDie d x).dlinks = s.dlinks := rfl
@[simp] theorem State.setDie_parts (d : Nat) (x : DieSt) : (s.setDie d x).parts = s.parts := rfl
@[simp] theorem State.setDie_arbs (d : Nat) (x : DieSt) : (s.setDie d x).arbs = s.arbs := rfl
@[simp] theorem State.setDie_throttled (d : Nat) (x : DieSt) : (s.setDie d x).throttled = s.throttled := rfl
@[simp] theorem State.setDie_volts (d : Nat) (x : DieSt) : (s.setDie d x).volts = s.volts := rfl
@[simp] theorem State.setDie_fwWins (d : Nat) (x : DieSt) : (s.setDie d x).fwWins = s.fwWins := rfl
@[simp] theorem State.setDie_oes (d : Nat) (x : DieSt) : (s.setDie d x).oes = s.oes := rfl
@[simp] theorem State.setDie_ports (d : Nat) (x : DieSt) : (s.setDie d x).ports = s.ports := rfl
@[simp] theorem State.setDie_reqs (d : Nat) (x : DieSt) : (s.setDie d x).reqs = s.reqs := rfl
@[simp] theorem State.setDie_epochs (d : Nat) (x : DieSt) : (s.setDie d x).epochs = s.epochs := rfl
@[simp] theorem State.setDie_partners (d : Nat) (x : DieSt) : (s.setDie d x).partners = s.partners := rfl
@[simp] theorem State.setDie_transit (d : Nat) (x : DieSt) : (s.setDie d x).transit = s.transit := rfl
@[simp] theorem State.setDie_rcache (d : Nat) (x : DieSt) : (s.setDie d x).rcache = s.rcache := rfl
@[simp] theorem State.setDie_fctx (d : Nat) (x : DieSt) : (s.setDie d x).fctx = s.fctx := rfl
@[simp] theorem State.setDie_rcopies (d : Nat) (x : DieSt) : (s.setDie d x).rcopies = s.rcopies := rfl
@[simp] theorem State.setDie_colls (d : Nat) (x : DieSt) : (s.setDie d x).colls = s.colls := rfl
@[simp] theorem State.setDie_swarms (d : Nat) (x : DieSt) : (s.setDie d x).swarms = s.swarms := rfl
@[simp] theorem State.setDie_readys (d : Nat) (x : DieSt) : (s.setDie d x).readys = s.readys := rfl
@[simp] theorem State.setDie_aborted (d : Nat) (x : DieSt) : (s.setDie d x).aborted = s.aborted := rfl
@[simp] theorem State.setDie_session (d : Nat) (x : DieSt) : (s.setDie d x).session = s.session := rfl
@[simp] theorem State.setDie_reduced (d : Nat) (x : DieSt) : (s.setDie d x).reduced = s.reduced := rfl
@[simp] theorem State.setDie_bonds (d : Nat) (x : DieSt) : (s.setDie d x).bonds = s.bonds := rfl
@[simp] theorem State.setDie_portA (d : Nat) (x : DieSt) : (s.setDie d x).portA = s.portA := rfl
@[simp] theorem State.setDie_portB (d : Nat) (x : DieSt) : (s.setDie d x).portB = s.portB := rfl
@[simp] theorem State.setDie_hreads (d : Nat) (x : DieSt) : (s.setDie d x).hreads = s.hreads := rfl
@[simp] theorem State.setDie_hid (d : Nat) (x : DieSt) : (s.setDie d x).hid = s.hid := rfl
@[simp] theorem State.setDie_lostQ (d : Nat) (x : DieSt) : (s.setDie d x).lostQ = s.lostQ := rfl
@[simp] theorem State.setDie_fwq (d : Nat) (x : DieSt) : (s.setDie d x).fwq = s.fwq := rfl
@[simp] theorem State.setDie_noteSeq (d : Nat) (x : DieSt) : (s.setDie d x).noteSeq = s.noteSeq := rfl
@[simp] theorem State.setDie_cc (d : Nat) (x : DieSt) : (s.setDie d x).cc = s.cc := rfl
@[simp] theorem State.setDie_evq (d : Nat) (x : DieSt) : (s.setDie d x).evq = s.evq := rfl
@[simp] theorem State.setDie_i3c (d : Nat) (x : DieSt) : (s.setDie d x).i3c = s.i3c := rfl
@[simp] theorem State.setDie_telem (d : Nat) (x : DieSt) : (s.setDie d x).telem = s.telem := rfl
@[simp] theorem State.setDie_dimmIn (d : Nat) (x : DieSt) : (s.setDie d x).dimmIn = s.dimmIn := rfl
@[simp] theorem State.setDie_dimmNext (d : Nat) (x : DieSt) : (s.setDie d x).dimmNext = s.dimmNext := rfl
@[simp] theorem State.setDie_spdOut (d : Nat) (x : DieSt) : (s.setDie d x).spdOut = s.spdOut := rfl
@[simp] theorem State.setDie_sens (d : Nat) (x : DieSt) : (s.setDie d x).sens = s.sens := rfl
@[simp] theorem State.setDie_excl (d : Nat) (x : DieSt) : (s.setDie d x).excl = s.excl := rfl
@[simp] theorem State.setDie_watch (d : Nat) (x : DieSt) : (s.setDie d x).watch = s.watch := rfl
@[simp] theorem State.setDie_ticks (d : Nat) (x : DieSt) : (s.setDie d x).ticks = s.ticks := rfl
@[simp] theorem State.setDie_cdclk (d : Nat) (x : DieSt) : (s.setDie d x).cdclk = s.cdclk := rfl
@[simp] theorem State.setDie_ppr (d : Nat) (x : DieSt) : (s.setDie d x).ppr = s.ppr := rfl
@[simp] theorem State.setDie_capHbm (d : Nat) (x : DieSt) : (s.setDie d x).capHbm = s.capHbm := rfl
@[simp] theorem State.setDie_capHeld (d : Nat) (x : DieSt) : (s.setDie d x).capHeld = s.capHeld := rfl
@[simp] theorem State.setDie_lostWhy (d : Nat) (x : DieSt) : (s.setDie d x).lostWhy = s.lostWhy := rfl
@[simp] theorem State.setDie_cdHit (d : Nat) (x : DieSt) : (s.setDie d x).cdHit = s.cdHit := rfl
@[simp] theorem State.setDie_cals (d : Nat) (x : DieSt) : (s.setDie d x).cals = s.cals := rfl
@[simp] theorem State.setDie_cfg (d : Nat) (x : DieSt) : (s.setDie d x).cfg = s.cfg := rfl
@[simp] theorem State.setDie_sec (d : Nat) (x : DieSt) : (s.setDie d x).sec = s.sec := rfl
@[simp] theorem State.setDie_tap (d : Nat) (x : DieSt) : (s.setDie d x).tap = s.tap := rfl
@[simp] theorem State.setDie_spdm (d : Nat) (x : DieSt) : (s.setDie d x).spdm = s.spdm := rfl
@[simp] theorem State.setDie_fn0 (d : Nat) (x : DieSt) : (s.setDie d x).fn0 = s.fn0 := rfl
@[simp] theorem State.setDie_fn1 (d : Nat) (x : DieSt) : (s.setDie d x).fn1 = s.fn1 := rfl
@[simp] theorem State.setDie_ringA (d : Nat) (x : DieSt) : (s.setDie d x).ringA = s.ringA := rfl
@[simp] theorem State.setDie_ringB (d : Nat) (x : DieSt) : (s.setDie d x).ringB = s.ringB := rfl
@[simp] theorem State.setDie_coal (d : Nat) (x : DieSt) : (s.setDie d x).coal = s.coal := rfl
@[simp] theorem State.setDie_nv (d : Nat) (x : DieSt) : (s.setDie d x).nv = s.nv := rfl
@[simp] theorem State.setDie_out (d : Nat) (x : DieSt) : (s.setDie d x).out = s.out := rfl
@[simp] theorem State.setDie_fresh (d : Nat) (x : DieSt) : (s.setDie d x).fresh = s.fresh := rfl
@[simp] theorem State.setDie_pending (d : Nat) (x : DieSt) : (s.setDie d x).pending = s.pending := rfl

/-! `State.setHport` -/

@[simp] theorem State.setHport_regs (h : Half) (x : HPort) : (s.setHport h x).regs = s.regs := by cases h <;> rfl
@[simp] theorem State.setHport_latch (h : Half) (x : HPort) : (s.setHport h x).latch = s.latch := by cases h <;> rfl
@[simp] theorem State.setHport_pins (h : Half) (x : HPort) : (s.setHport h x).pins = s.pins := by cases h <;> rfl
@[simp] theorem State.setHport_dies (h : Half) (x : HPort) : (s.setHport h x).dies = s.dies := by cases h <;> rfl
@[simp] theorem State.setHport_mem (h : Half) (x : HPort) : (s.setHport h x).mem = s.mem := by cases h <;> rfl
@[simp] theorem State.setHport_cells (h : Half) (x : HPort) : (s.setHport h x).cells = s.cells := by cases h <;> rfl
@[simp] theorem State.setHport_swaps (h : Half) (x : HPort) : (s.setHport h x).swaps = s.swaps := by cases h <;> rfl
@[simp] theorem State.setHport_queues (h : Half) (x : HPort) : (s.setHport h x).queues = s.queues := by cases h <;> rfl
@[simp] theorem State.setHport_rsvA (h : Half) (x : HPort) : (s.setHport h x).rsvA = s.rsvA := by cases h <;> rfl
@[simp] theorem State.setHport_rsvB (h : Half) (x : HPort) : (s.setHport h x).rsvB = s.rsvB := by cases h <;> rfl
@[simp] theorem State.setHport_sems (h : Half) (x : HPort) : (s.setHport h x).sems = s.sems := by cases h <;> rfl
@[simp] theorem State.setHport_dlinks (h : Half) (x : HPort) : (s.setHport h x).dlinks = s.dlinks := by cases h <;> rfl
@[simp] theorem State.setHport_parts (h : Half) (x : HPort) : (s.setHport h x).parts = s.parts := by cases h <;> rfl
@[simp] theorem State.setHport_arbs (h : Half) (x : HPort) : (s.setHport h x).arbs = s.arbs := by cases h <;> rfl
@[simp] theorem State.setHport_throttled (h : Half) (x : HPort) : (s.setHport h x).throttled = s.throttled := by cases h <;> rfl
@[simp] theorem State.setHport_volts (h : Half) (x : HPort) : (s.setHport h x).volts = s.volts := by cases h <;> rfl
@[simp] theorem State.setHport_fwWins (h : Half) (x : HPort) : (s.setHport h x).fwWins = s.fwWins := by cases h <;> rfl
@[simp] theorem State.setHport_oes (h : Half) (x : HPort) : (s.setHport h x).oes = s.oes := by cases h <;> rfl
@[simp] theorem State.setHport_ports (h : Half) (x : HPort) : (s.setHport h x).ports = s.ports := by cases h <;> rfl
@[simp] theorem State.setHport_reqs (h : Half) (x : HPort) : (s.setHport h x).reqs = s.reqs := by cases h <;> rfl
@[simp] theorem State.setHport_epochs (h : Half) (x : HPort) : (s.setHport h x).epochs = s.epochs := by cases h <;> rfl
@[simp] theorem State.setHport_partners (h : Half) (x : HPort) : (s.setHport h x).partners = s.partners := by cases h <;> rfl
@[simp] theorem State.setHport_transit (h : Half) (x : HPort) : (s.setHport h x).transit = s.transit := by cases h <;> rfl
@[simp] theorem State.setHport_rcache (h : Half) (x : HPort) : (s.setHport h x).rcache = s.rcache := by cases h <;> rfl
@[simp] theorem State.setHport_fctx (h : Half) (x : HPort) : (s.setHport h x).fctx = s.fctx := by cases h <;> rfl
@[simp] theorem State.setHport_rcopies (h : Half) (x : HPort) : (s.setHport h x).rcopies = s.rcopies := by cases h <;> rfl
@[simp] theorem State.setHport_colls (h : Half) (x : HPort) : (s.setHport h x).colls = s.colls := by cases h <;> rfl
@[simp] theorem State.setHport_swarms (h : Half) (x : HPort) : (s.setHport h x).swarms = s.swarms := by cases h <;> rfl
@[simp] theorem State.setHport_readys (h : Half) (x : HPort) : (s.setHport h x).readys = s.readys := by cases h <;> rfl
@[simp] theorem State.setHport_aborted (h : Half) (x : HPort) : (s.setHport h x).aborted = s.aborted := by cases h <;> rfl
@[simp] theorem State.setHport_session (h : Half) (x : HPort) : (s.setHport h x).session = s.session := by cases h <;> rfl
@[simp] theorem State.setHport_reduced (h : Half) (x : HPort) : (s.setHport h x).reduced = s.reduced := by cases h <;> rfl
@[simp] theorem State.setHport_bonds (h : Half) (x : HPort) : (s.setHport h x).bonds = s.bonds := by cases h <;> rfl
@[simp] theorem State.setHport_hreads (h : Half) (x : HPort) : (s.setHport h x).hreads = s.hreads := by cases h <;> rfl
@[simp] theorem State.setHport_hid (h : Half) (x : HPort) : (s.setHport h x).hid = s.hid := by cases h <;> rfl
@[simp] theorem State.setHport_lostQ (h : Half) (x : HPort) : (s.setHport h x).lostQ = s.lostQ := by cases h <;> rfl
@[simp] theorem State.setHport_fwq (h : Half) (x : HPort) : (s.setHport h x).fwq = s.fwq := by cases h <;> rfl
@[simp] theorem State.setHport_noteSeq (h : Half) (x : HPort) : (s.setHport h x).noteSeq = s.noteSeq := by cases h <;> rfl
@[simp] theorem State.setHport_cc (h : Half) (x : HPort) : (s.setHport h x).cc = s.cc := by cases h <;> rfl
@[simp] theorem State.setHport_evq (h : Half) (x : HPort) : (s.setHport h x).evq = s.evq := by cases h <;> rfl
@[simp] theorem State.setHport_i3c (h : Half) (x : HPort) : (s.setHport h x).i3c = s.i3c := by cases h <;> rfl
@[simp] theorem State.setHport_telem (h : Half) (x : HPort) : (s.setHport h x).telem = s.telem := by cases h <;> rfl
@[simp] theorem State.setHport_dimmIn (h : Half) (x : HPort) : (s.setHport h x).dimmIn = s.dimmIn := by cases h <;> rfl
@[simp] theorem State.setHport_dimmNext (h : Half) (x : HPort) : (s.setHport h x).dimmNext = s.dimmNext := by cases h <;> rfl
@[simp] theorem State.setHport_spdOut (h : Half) (x : HPort) : (s.setHport h x).spdOut = s.spdOut := by cases h <;> rfl
@[simp] theorem State.setHport_sens (h : Half) (x : HPort) : (s.setHport h x).sens = s.sens := by cases h <;> rfl
@[simp] theorem State.setHport_excl (h : Half) (x : HPort) : (s.setHport h x).excl = s.excl := by cases h <;> rfl
@[simp] theorem State.setHport_watch (h : Half) (x : HPort) : (s.setHport h x).watch = s.watch := by cases h <;> rfl
@[simp] theorem State.setHport_ticks (h : Half) (x : HPort) : (s.setHport h x).ticks = s.ticks := by cases h <;> rfl
@[simp] theorem State.setHport_cdclk (h : Half) (x : HPort) : (s.setHport h x).cdclk = s.cdclk := by cases h <;> rfl
@[simp] theorem State.setHport_ppr (h : Half) (x : HPort) : (s.setHport h x).ppr = s.ppr := by cases h <;> rfl
@[simp] theorem State.setHport_capHbm (h : Half) (x : HPort) : (s.setHport h x).capHbm = s.capHbm := by cases h <;> rfl
@[simp] theorem State.setHport_capHeld (h : Half) (x : HPort) : (s.setHport h x).capHeld = s.capHeld := by cases h <;> rfl
@[simp] theorem State.setHport_lostWhy (h : Half) (x : HPort) : (s.setHport h x).lostWhy = s.lostWhy := by cases h <;> rfl
@[simp] theorem State.setHport_cdHit (h : Half) (x : HPort) : (s.setHport h x).cdHit = s.cdHit := by cases h <;> rfl
@[simp] theorem State.setHport_cals (h : Half) (x : HPort) : (s.setHport h x).cals = s.cals := by cases h <;> rfl
@[simp] theorem State.setHport_cfg (h : Half) (x : HPort) : (s.setHport h x).cfg = s.cfg := by cases h <;> rfl
@[simp] theorem State.setHport_sec (h : Half) (x : HPort) : (s.setHport h x).sec = s.sec := by cases h <;> rfl
@[simp] theorem State.setHport_tap (h : Half) (x : HPort) : (s.setHport h x).tap = s.tap := by cases h <;> rfl
@[simp] theorem State.setHport_spdm (h : Half) (x : HPort) : (s.setHport h x).spdm = s.spdm := by cases h <;> rfl
@[simp] theorem State.setHport_fn0 (h : Half) (x : HPort) : (s.setHport h x).fn0 = s.fn0 := by cases h <;> rfl
@[simp] theorem State.setHport_fn1 (h : Half) (x : HPort) : (s.setHport h x).fn1 = s.fn1 := by cases h <;> rfl
@[simp] theorem State.setHport_ringA (h : Half) (x : HPort) : (s.setHport h x).ringA = s.ringA := by cases h <;> rfl
@[simp] theorem State.setHport_ringB (h : Half) (x : HPort) : (s.setHport h x).ringB = s.ringB := by cases h <;> rfl
@[simp] theorem State.setHport_coal (h : Half) (x : HPort) : (s.setHport h x).coal = s.coal := by cases h <;> rfl
@[simp] theorem State.setHport_nv (h : Half) (x : HPort) : (s.setHport h x).nv = s.nv := by cases h <;> rfl
@[simp] theorem State.setHport_out (h : Half) (x : HPort) : (s.setHport h x).out = s.out := by cases h <;> rfl
@[simp] theorem State.setHport_fresh (h : Half) (x : HPort) : (s.setHport h x).fresh = s.fresh := by cases h <;> rfl
@[simp] theorem State.setHport_pending (h : Half) (x : HPort) : (s.setHport h x).pending = s.pending := by cases h <;> rfl

/-! `State.setFnst` -/

@[simp] theorem State.setFnst_regs (f : Fn) (x : FnSt) : (s.setFnst f x).regs = s.regs := by cases f <;> rfl
@[simp] theorem State.setFnst_latch (f : Fn) (x : FnSt) : (s.setFnst f x).latch = s.latch := by cases f <;> rfl
@[simp] theorem State.setFnst_pins (f : Fn) (x : FnSt) : (s.setFnst f x).pins = s.pins := by cases f <;> rfl
@[simp] theorem State.setFnst_dies (f : Fn) (x : FnSt) : (s.setFnst f x).dies = s.dies := by cases f <;> rfl
@[simp] theorem State.setFnst_mem (f : Fn) (x : FnSt) : (s.setFnst f x).mem = s.mem := by cases f <;> rfl
@[simp] theorem State.setFnst_cells (f : Fn) (x : FnSt) : (s.setFnst f x).cells = s.cells := by cases f <;> rfl
@[simp] theorem State.setFnst_swaps (f : Fn) (x : FnSt) : (s.setFnst f x).swaps = s.swaps := by cases f <;> rfl
@[simp] theorem State.setFnst_queues (f : Fn) (x : FnSt) : (s.setFnst f x).queues = s.queues := by cases f <;> rfl
@[simp] theorem State.setFnst_rsvA (f : Fn) (x : FnSt) : (s.setFnst f x).rsvA = s.rsvA := by cases f <;> rfl
@[simp] theorem State.setFnst_rsvB (f : Fn) (x : FnSt) : (s.setFnst f x).rsvB = s.rsvB := by cases f <;> rfl
@[simp] theorem State.setFnst_sems (f : Fn) (x : FnSt) : (s.setFnst f x).sems = s.sems := by cases f <;> rfl
@[simp] theorem State.setFnst_dlinks (f : Fn) (x : FnSt) : (s.setFnst f x).dlinks = s.dlinks := by cases f <;> rfl
@[simp] theorem State.setFnst_parts (f : Fn) (x : FnSt) : (s.setFnst f x).parts = s.parts := by cases f <;> rfl
@[simp] theorem State.setFnst_arbs (f : Fn) (x : FnSt) : (s.setFnst f x).arbs = s.arbs := by cases f <;> rfl
@[simp] theorem State.setFnst_throttled (f : Fn) (x : FnSt) : (s.setFnst f x).throttled = s.throttled := by cases f <;> rfl
@[simp] theorem State.setFnst_volts (f : Fn) (x : FnSt) : (s.setFnst f x).volts = s.volts := by cases f <;> rfl
@[simp] theorem State.setFnst_fwWins (f : Fn) (x : FnSt) : (s.setFnst f x).fwWins = s.fwWins := by cases f <;> rfl
@[simp] theorem State.setFnst_oes (f : Fn) (x : FnSt) : (s.setFnst f x).oes = s.oes := by cases f <;> rfl
@[simp] theorem State.setFnst_ports (f : Fn) (x : FnSt) : (s.setFnst f x).ports = s.ports := by cases f <;> rfl
@[simp] theorem State.setFnst_reqs (f : Fn) (x : FnSt) : (s.setFnst f x).reqs = s.reqs := by cases f <;> rfl
@[simp] theorem State.setFnst_epochs (f : Fn) (x : FnSt) : (s.setFnst f x).epochs = s.epochs := by cases f <;> rfl
@[simp] theorem State.setFnst_partners (f : Fn) (x : FnSt) : (s.setFnst f x).partners = s.partners := by cases f <;> rfl
@[simp] theorem State.setFnst_transit (f : Fn) (x : FnSt) : (s.setFnst f x).transit = s.transit := by cases f <;> rfl
@[simp] theorem State.setFnst_rcache (f : Fn) (x : FnSt) : (s.setFnst f x).rcache = s.rcache := by cases f <;> rfl
@[simp] theorem State.setFnst_fctx (f : Fn) (x : FnSt) : (s.setFnst f x).fctx = s.fctx := by cases f <;> rfl
@[simp] theorem State.setFnst_rcopies (f : Fn) (x : FnSt) : (s.setFnst f x).rcopies = s.rcopies := by cases f <;> rfl
@[simp] theorem State.setFnst_colls (f : Fn) (x : FnSt) : (s.setFnst f x).colls = s.colls := by cases f <;> rfl
@[simp] theorem State.setFnst_swarms (f : Fn) (x : FnSt) : (s.setFnst f x).swarms = s.swarms := by cases f <;> rfl
@[simp] theorem State.setFnst_readys (f : Fn) (x : FnSt) : (s.setFnst f x).readys = s.readys := by cases f <;> rfl
@[simp] theorem State.setFnst_aborted (f : Fn) (x : FnSt) : (s.setFnst f x).aborted = s.aborted := by cases f <;> rfl
@[simp] theorem State.setFnst_session (f : Fn) (x : FnSt) : (s.setFnst f x).session = s.session := by cases f <;> rfl
@[simp] theorem State.setFnst_reduced (f : Fn) (x : FnSt) : (s.setFnst f x).reduced = s.reduced := by cases f <;> rfl
@[simp] theorem State.setFnst_bonds (f : Fn) (x : FnSt) : (s.setFnst f x).bonds = s.bonds := by cases f <;> rfl
@[simp] theorem State.setFnst_portA (f : Fn) (x : FnSt) : (s.setFnst f x).portA = s.portA := by cases f <;> rfl
@[simp] theorem State.setFnst_portB (f : Fn) (x : FnSt) : (s.setFnst f x).portB = s.portB := by cases f <;> rfl
@[simp] theorem State.setFnst_hreads (f : Fn) (x : FnSt) : (s.setFnst f x).hreads = s.hreads := by cases f <;> rfl
@[simp] theorem State.setFnst_hid (f : Fn) (x : FnSt) : (s.setFnst f x).hid = s.hid := by cases f <;> rfl
@[simp] theorem State.setFnst_lostQ (f : Fn) (x : FnSt) : (s.setFnst f x).lostQ = s.lostQ := by cases f <;> rfl
@[simp] theorem State.setFnst_fwq (f : Fn) (x : FnSt) : (s.setFnst f x).fwq = s.fwq := by cases f <;> rfl
@[simp] theorem State.setFnst_noteSeq (f : Fn) (x : FnSt) : (s.setFnst f x).noteSeq = s.noteSeq := by cases f <;> rfl
@[simp] theorem State.setFnst_cc (f : Fn) (x : FnSt) : (s.setFnst f x).cc = s.cc := by cases f <;> rfl
@[simp] theorem State.setFnst_evq (f : Fn) (x : FnSt) : (s.setFnst f x).evq = s.evq := by cases f <;> rfl
@[simp] theorem State.setFnst_i3c (f : Fn) (x : FnSt) : (s.setFnst f x).i3c = s.i3c := by cases f <;> rfl
@[simp] theorem State.setFnst_telem (f : Fn) (x : FnSt) : (s.setFnst f x).telem = s.telem := by cases f <;> rfl
@[simp] theorem State.setFnst_dimmIn (f : Fn) (x : FnSt) : (s.setFnst f x).dimmIn = s.dimmIn := by cases f <;> rfl
@[simp] theorem State.setFnst_dimmNext (f : Fn) (x : FnSt) : (s.setFnst f x).dimmNext = s.dimmNext := by cases f <;> rfl
@[simp] theorem State.setFnst_spdOut (f : Fn) (x : FnSt) : (s.setFnst f x).spdOut = s.spdOut := by cases f <;> rfl
@[simp] theorem State.setFnst_sens (f : Fn) (x : FnSt) : (s.setFnst f x).sens = s.sens := by cases f <;> rfl
@[simp] theorem State.setFnst_excl (f : Fn) (x : FnSt) : (s.setFnst f x).excl = s.excl := by cases f <;> rfl
@[simp] theorem State.setFnst_watch (f : Fn) (x : FnSt) : (s.setFnst f x).watch = s.watch := by cases f <;> rfl
@[simp] theorem State.setFnst_ticks (f : Fn) (x : FnSt) : (s.setFnst f x).ticks = s.ticks := by cases f <;> rfl
@[simp] theorem State.setFnst_cdclk (f : Fn) (x : FnSt) : (s.setFnst f x).cdclk = s.cdclk := by cases f <;> rfl
@[simp] theorem State.setFnst_ppr (f : Fn) (x : FnSt) : (s.setFnst f x).ppr = s.ppr := by cases f <;> rfl
@[simp] theorem State.setFnst_capHbm (f : Fn) (x : FnSt) : (s.setFnst f x).capHbm = s.capHbm := by cases f <;> rfl
@[simp] theorem State.setFnst_capHeld (f : Fn) (x : FnSt) : (s.setFnst f x).capHeld = s.capHeld := by cases f <;> rfl
@[simp] theorem State.setFnst_lostWhy (f : Fn) (x : FnSt) : (s.setFnst f x).lostWhy = s.lostWhy := by cases f <;> rfl
@[simp] theorem State.setFnst_cdHit (f : Fn) (x : FnSt) : (s.setFnst f x).cdHit = s.cdHit := by cases f <;> rfl
@[simp] theorem State.setFnst_cals (f : Fn) (x : FnSt) : (s.setFnst f x).cals = s.cals := by cases f <;> rfl
@[simp] theorem State.setFnst_cfg (f : Fn) (x : FnSt) : (s.setFnst f x).cfg = s.cfg := by cases f <;> rfl
@[simp] theorem State.setFnst_sec (f : Fn) (x : FnSt) : (s.setFnst f x).sec = s.sec := by cases f <;> rfl
@[simp] theorem State.setFnst_tap (f : Fn) (x : FnSt) : (s.setFnst f x).tap = s.tap := by cases f <;> rfl
@[simp] theorem State.setFnst_spdm (f : Fn) (x : FnSt) : (s.setFnst f x).spdm = s.spdm := by cases f <;> rfl
@[simp] theorem State.setFnst_ringA (f : Fn) (x : FnSt) : (s.setFnst f x).ringA = s.ringA := by cases f <;> rfl
@[simp] theorem State.setFnst_ringB (f : Fn) (x : FnSt) : (s.setFnst f x).ringB = s.ringB := by cases f <;> rfl
@[simp] theorem State.setFnst_coal (f : Fn) (x : FnSt) : (s.setFnst f x).coal = s.coal := by cases f <;> rfl
@[simp] theorem State.setFnst_nv (f : Fn) (x : FnSt) : (s.setFnst f x).nv = s.nv := by cases f <;> rfl
@[simp] theorem State.setFnst_out (f : Fn) (x : FnSt) : (s.setFnst f x).out = s.out := by cases f <;> rfl
@[simp] theorem State.setFnst_fresh (f : Fn) (x : FnSt) : (s.setFnst f x).fresh = s.fresh := by cases f <;> rfl
@[simp] theorem State.setFnst_pending (f : Fn) (x : FnSt) : (s.setFnst f x).pending = s.pending := by cases f <;> rfl

/-! `State.setRing` -/

@[simp] theorem State.setRing_regs (h : Half) (x : ErrRing) : (s.setRing h x).regs = s.regs := by cases h <;> rfl
@[simp] theorem State.setRing_latch (h : Half) (x : ErrRing) : (s.setRing h x).latch = s.latch := by cases h <;> rfl
@[simp] theorem State.setRing_pins (h : Half) (x : ErrRing) : (s.setRing h x).pins = s.pins := by cases h <;> rfl
@[simp] theorem State.setRing_dies (h : Half) (x : ErrRing) : (s.setRing h x).dies = s.dies := by cases h <;> rfl
@[simp] theorem State.setRing_mem (h : Half) (x : ErrRing) : (s.setRing h x).mem = s.mem := by cases h <;> rfl
@[simp] theorem State.setRing_cells (h : Half) (x : ErrRing) : (s.setRing h x).cells = s.cells := by cases h <;> rfl
@[simp] theorem State.setRing_swaps (h : Half) (x : ErrRing) : (s.setRing h x).swaps = s.swaps := by cases h <;> rfl
@[simp] theorem State.setRing_queues (h : Half) (x : ErrRing) : (s.setRing h x).queues = s.queues := by cases h <;> rfl
@[simp] theorem State.setRing_rsvA (h : Half) (x : ErrRing) : (s.setRing h x).rsvA = s.rsvA := by cases h <;> rfl
@[simp] theorem State.setRing_rsvB (h : Half) (x : ErrRing) : (s.setRing h x).rsvB = s.rsvB := by cases h <;> rfl
@[simp] theorem State.setRing_sems (h : Half) (x : ErrRing) : (s.setRing h x).sems = s.sems := by cases h <;> rfl
@[simp] theorem State.setRing_dlinks (h : Half) (x : ErrRing) : (s.setRing h x).dlinks = s.dlinks := by cases h <;> rfl
@[simp] theorem State.setRing_parts (h : Half) (x : ErrRing) : (s.setRing h x).parts = s.parts := by cases h <;> rfl
@[simp] theorem State.setRing_arbs (h : Half) (x : ErrRing) : (s.setRing h x).arbs = s.arbs := by cases h <;> rfl
@[simp] theorem State.setRing_throttled (h : Half) (x : ErrRing) : (s.setRing h x).throttled = s.throttled := by cases h <;> rfl
@[simp] theorem State.setRing_volts (h : Half) (x : ErrRing) : (s.setRing h x).volts = s.volts := by cases h <;> rfl
@[simp] theorem State.setRing_fwWins (h : Half) (x : ErrRing) : (s.setRing h x).fwWins = s.fwWins := by cases h <;> rfl
@[simp] theorem State.setRing_oes (h : Half) (x : ErrRing) : (s.setRing h x).oes = s.oes := by cases h <;> rfl
@[simp] theorem State.setRing_ports (h : Half) (x : ErrRing) : (s.setRing h x).ports = s.ports := by cases h <;> rfl
@[simp] theorem State.setRing_reqs (h : Half) (x : ErrRing) : (s.setRing h x).reqs = s.reqs := by cases h <;> rfl
@[simp] theorem State.setRing_epochs (h : Half) (x : ErrRing) : (s.setRing h x).epochs = s.epochs := by cases h <;> rfl
@[simp] theorem State.setRing_partners (h : Half) (x : ErrRing) : (s.setRing h x).partners = s.partners := by cases h <;> rfl
@[simp] theorem State.setRing_transit (h : Half) (x : ErrRing) : (s.setRing h x).transit = s.transit := by cases h <;> rfl
@[simp] theorem State.setRing_rcache (h : Half) (x : ErrRing) : (s.setRing h x).rcache = s.rcache := by cases h <;> rfl
@[simp] theorem State.setRing_fctx (h : Half) (x : ErrRing) : (s.setRing h x).fctx = s.fctx := by cases h <;> rfl
@[simp] theorem State.setRing_rcopies (h : Half) (x : ErrRing) : (s.setRing h x).rcopies = s.rcopies := by cases h <;> rfl
@[simp] theorem State.setRing_colls (h : Half) (x : ErrRing) : (s.setRing h x).colls = s.colls := by cases h <;> rfl
@[simp] theorem State.setRing_swarms (h : Half) (x : ErrRing) : (s.setRing h x).swarms = s.swarms := by cases h <;> rfl
@[simp] theorem State.setRing_readys (h : Half) (x : ErrRing) : (s.setRing h x).readys = s.readys := by cases h <;> rfl
@[simp] theorem State.setRing_aborted (h : Half) (x : ErrRing) : (s.setRing h x).aborted = s.aborted := by cases h <;> rfl
@[simp] theorem State.setRing_session (h : Half) (x : ErrRing) : (s.setRing h x).session = s.session := by cases h <;> rfl
@[simp] theorem State.setRing_reduced (h : Half) (x : ErrRing) : (s.setRing h x).reduced = s.reduced := by cases h <;> rfl
@[simp] theorem State.setRing_bonds (h : Half) (x : ErrRing) : (s.setRing h x).bonds = s.bonds := by cases h <;> rfl
@[simp] theorem State.setRing_portA (h : Half) (x : ErrRing) : (s.setRing h x).portA = s.portA := by cases h <;> rfl
@[simp] theorem State.setRing_portB (h : Half) (x : ErrRing) : (s.setRing h x).portB = s.portB := by cases h <;> rfl
@[simp] theorem State.setRing_hreads (h : Half) (x : ErrRing) : (s.setRing h x).hreads = s.hreads := by cases h <;> rfl
@[simp] theorem State.setRing_hid (h : Half) (x : ErrRing) : (s.setRing h x).hid = s.hid := by cases h <;> rfl
@[simp] theorem State.setRing_lostQ (h : Half) (x : ErrRing) : (s.setRing h x).lostQ = s.lostQ := by cases h <;> rfl
@[simp] theorem State.setRing_fwq (h : Half) (x : ErrRing) : (s.setRing h x).fwq = s.fwq := by cases h <;> rfl
@[simp] theorem State.setRing_noteSeq (h : Half) (x : ErrRing) : (s.setRing h x).noteSeq = s.noteSeq := by cases h <;> rfl
@[simp] theorem State.setRing_cc (h : Half) (x : ErrRing) : (s.setRing h x).cc = s.cc := by cases h <;> rfl
@[simp] theorem State.setRing_evq (h : Half) (x : ErrRing) : (s.setRing h x).evq = s.evq := by cases h <;> rfl
@[simp] theorem State.setRing_i3c (h : Half) (x : ErrRing) : (s.setRing h x).i3c = s.i3c := by cases h <;> rfl
@[simp] theorem State.setRing_telem (h : Half) (x : ErrRing) : (s.setRing h x).telem = s.telem := by cases h <;> rfl
@[simp] theorem State.setRing_dimmIn (h : Half) (x : ErrRing) : (s.setRing h x).dimmIn = s.dimmIn := by cases h <;> rfl
@[simp] theorem State.setRing_dimmNext (h : Half) (x : ErrRing) : (s.setRing h x).dimmNext = s.dimmNext := by cases h <;> rfl
@[simp] theorem State.setRing_spdOut (h : Half) (x : ErrRing) : (s.setRing h x).spdOut = s.spdOut := by cases h <;> rfl
@[simp] theorem State.setRing_sens (h : Half) (x : ErrRing) : (s.setRing h x).sens = s.sens := by cases h <;> rfl
@[simp] theorem State.setRing_excl (h : Half) (x : ErrRing) : (s.setRing h x).excl = s.excl := by cases h <;> rfl
@[simp] theorem State.setRing_watch (h : Half) (x : ErrRing) : (s.setRing h x).watch = s.watch := by cases h <;> rfl
@[simp] theorem State.setRing_ticks (h : Half) (x : ErrRing) : (s.setRing h x).ticks = s.ticks := by cases h <;> rfl
@[simp] theorem State.setRing_cdclk (h : Half) (x : ErrRing) : (s.setRing h x).cdclk = s.cdclk := by cases h <;> rfl
@[simp] theorem State.setRing_ppr (h : Half) (x : ErrRing) : (s.setRing h x).ppr = s.ppr := by cases h <;> rfl
@[simp] theorem State.setRing_capHbm (h : Half) (x : ErrRing) : (s.setRing h x).capHbm = s.capHbm := by cases h <;> rfl
@[simp] theorem State.setRing_capHeld (h : Half) (x : ErrRing) : (s.setRing h x).capHeld = s.capHeld := by cases h <;> rfl
@[simp] theorem State.setRing_lostWhy (h : Half) (x : ErrRing) : (s.setRing h x).lostWhy = s.lostWhy := by cases h <;> rfl
@[simp] theorem State.setRing_cdHit (h : Half) (x : ErrRing) : (s.setRing h x).cdHit = s.cdHit := by cases h <;> rfl
@[simp] theorem State.setRing_cals (h : Half) (x : ErrRing) : (s.setRing h x).cals = s.cals := by cases h <;> rfl
@[simp] theorem State.setRing_cfg (h : Half) (x : ErrRing) : (s.setRing h x).cfg = s.cfg := by cases h <;> rfl
@[simp] theorem State.setRing_sec (h : Half) (x : ErrRing) : (s.setRing h x).sec = s.sec := by cases h <;> rfl
@[simp] theorem State.setRing_tap (h : Half) (x : ErrRing) : (s.setRing h x).tap = s.tap := by cases h <;> rfl
@[simp] theorem State.setRing_spdm (h : Half) (x : ErrRing) : (s.setRing h x).spdm = s.spdm := by cases h <;> rfl
@[simp] theorem State.setRing_fn0 (h : Half) (x : ErrRing) : (s.setRing h x).fn0 = s.fn0 := by cases h <;> rfl
@[simp] theorem State.setRing_fn1 (h : Half) (x : ErrRing) : (s.setRing h x).fn1 = s.fn1 := by cases h <;> rfl
@[simp] theorem State.setRing_coal (h : Half) (x : ErrRing) : (s.setRing h x).coal = s.coal := by cases h <;> rfl
@[simp] theorem State.setRing_nv (h : Half) (x : ErrRing) : (s.setRing h x).nv = s.nv := by cases h <;> rfl
@[simp] theorem State.setRing_out (h : Half) (x : ErrRing) : (s.setRing h x).out = s.out := by cases h <;> rfl
@[simp] theorem State.setRing_fresh (h : Half) (x : ErrRing) : (s.setRing h x).fresh = s.fresh := by cases h <;> rfl
@[simp] theorem State.setRing_pending (h : Half) (x : ErrRing) : (s.setRing h x).pending = s.pending := by cases h <;> rfl

/-! `State.setCell` -/

@[simp] theorem State.setCell_regs (h : Half) (c : Nat) (x : CellSt) : (s.setCell h c x).regs = s.regs := rfl
@[simp] theorem State.setCell_latch (h : Half) (c : Nat) (x : CellSt) : (s.setCell h c x).latch = s.latch := rfl
@[simp] theorem State.setCell_pins (h : Half) (c : Nat) (x : CellSt) : (s.setCell h c x).pins = s.pins := rfl
@[simp] theorem State.setCell_dies (h : Half) (c : Nat) (x : CellSt) : (s.setCell h c x).dies = s.dies := rfl
@[simp] theorem State.setCell_mem (h : Half) (c : Nat) (x : CellSt) : (s.setCell h c x).mem = s.mem := rfl
@[simp] theorem State.setCell_swaps (h : Half) (c : Nat) (x : CellSt) : (s.setCell h c x).swaps = s.swaps := rfl
@[simp] theorem State.setCell_queues (h : Half) (c : Nat) (x : CellSt) : (s.setCell h c x).queues = s.queues := rfl
@[simp] theorem State.setCell_rsvA (h : Half) (c : Nat) (x : CellSt) : (s.setCell h c x).rsvA = s.rsvA := rfl
@[simp] theorem State.setCell_rsvB (h : Half) (c : Nat) (x : CellSt) : (s.setCell h c x).rsvB = s.rsvB := rfl
@[simp] theorem State.setCell_sems (h : Half) (c : Nat) (x : CellSt) : (s.setCell h c x).sems = s.sems := rfl
@[simp] theorem State.setCell_dlinks (h : Half) (c : Nat) (x : CellSt) : (s.setCell h c x).dlinks = s.dlinks := rfl
@[simp] theorem State.setCell_parts (h : Half) (c : Nat) (x : CellSt) : (s.setCell h c x).parts = s.parts := rfl
@[simp] theorem State.setCell_arbs (h : Half) (c : Nat) (x : CellSt) : (s.setCell h c x).arbs = s.arbs := rfl
@[simp] theorem State.setCell_throttled (h : Half) (c : Nat) (x : CellSt) : (s.setCell h c x).throttled = s.throttled := rfl
@[simp] theorem State.setCell_volts (h : Half) (c : Nat) (x : CellSt) : (s.setCell h c x).volts = s.volts := rfl
@[simp] theorem State.setCell_fwWins (h : Half) (c : Nat) (x : CellSt) : (s.setCell h c x).fwWins = s.fwWins := rfl
@[simp] theorem State.setCell_oes (h : Half) (c : Nat) (x : CellSt) : (s.setCell h c x).oes = s.oes := rfl
@[simp] theorem State.setCell_ports (h : Half) (c : Nat) (x : CellSt) : (s.setCell h c x).ports = s.ports := rfl
@[simp] theorem State.setCell_reqs (h : Half) (c : Nat) (x : CellSt) : (s.setCell h c x).reqs = s.reqs := rfl
@[simp] theorem State.setCell_epochs (h : Half) (c : Nat) (x : CellSt) : (s.setCell h c x).epochs = s.epochs := rfl
@[simp] theorem State.setCell_partners (h : Half) (c : Nat) (x : CellSt) : (s.setCell h c x).partners = s.partners := rfl
@[simp] theorem State.setCell_transit (h : Half) (c : Nat) (x : CellSt) : (s.setCell h c x).transit = s.transit := rfl
@[simp] theorem State.setCell_rcache (h : Half) (c : Nat) (x : CellSt) : (s.setCell h c x).rcache = s.rcache := rfl
@[simp] theorem State.setCell_fctx (h : Half) (c : Nat) (x : CellSt) : (s.setCell h c x).fctx = s.fctx := rfl
@[simp] theorem State.setCell_rcopies (h : Half) (c : Nat) (x : CellSt) : (s.setCell h c x).rcopies = s.rcopies := rfl
@[simp] theorem State.setCell_colls (h : Half) (c : Nat) (x : CellSt) : (s.setCell h c x).colls = s.colls := rfl
@[simp] theorem State.setCell_swarms (h : Half) (c : Nat) (x : CellSt) : (s.setCell h c x).swarms = s.swarms := rfl
@[simp] theorem State.setCell_readys (h : Half) (c : Nat) (x : CellSt) : (s.setCell h c x).readys = s.readys := rfl
@[simp] theorem State.setCell_aborted (h : Half) (c : Nat) (x : CellSt) : (s.setCell h c x).aborted = s.aborted := rfl
@[simp] theorem State.setCell_session (h : Half) (c : Nat) (x : CellSt) : (s.setCell h c x).session = s.session := rfl
@[simp] theorem State.setCell_reduced (h : Half) (c : Nat) (x : CellSt) : (s.setCell h c x).reduced = s.reduced := rfl
@[simp] theorem State.setCell_bonds (h : Half) (c : Nat) (x : CellSt) : (s.setCell h c x).bonds = s.bonds := rfl
@[simp] theorem State.setCell_portA (h : Half) (c : Nat) (x : CellSt) : (s.setCell h c x).portA = s.portA := rfl
@[simp] theorem State.setCell_portB (h : Half) (c : Nat) (x : CellSt) : (s.setCell h c x).portB = s.portB := rfl
@[simp] theorem State.setCell_hreads (h : Half) (c : Nat) (x : CellSt) : (s.setCell h c x).hreads = s.hreads := rfl
@[simp] theorem State.setCell_hid (h : Half) (c : Nat) (x : CellSt) : (s.setCell h c x).hid = s.hid := rfl
@[simp] theorem State.setCell_lostQ (h : Half) (c : Nat) (x : CellSt) : (s.setCell h c x).lostQ = s.lostQ := rfl
@[simp] theorem State.setCell_fwq (h : Half) (c : Nat) (x : CellSt) : (s.setCell h c x).fwq = s.fwq := rfl
@[simp] theorem State.setCell_noteSeq (h : Half) (c : Nat) (x : CellSt) : (s.setCell h c x).noteSeq = s.noteSeq := rfl
@[simp] theorem State.setCell_cc (h : Half) (c : Nat) (x : CellSt) : (s.setCell h c x).cc = s.cc := rfl
@[simp] theorem State.setCell_evq (h : Half) (c : Nat) (x : CellSt) : (s.setCell h c x).evq = s.evq := rfl
@[simp] theorem State.setCell_i3c (h : Half) (c : Nat) (x : CellSt) : (s.setCell h c x).i3c = s.i3c := rfl
@[simp] theorem State.setCell_telem (h : Half) (c : Nat) (x : CellSt) : (s.setCell h c x).telem = s.telem := rfl
@[simp] theorem State.setCell_dimmIn (h : Half) (c : Nat) (x : CellSt) : (s.setCell h c x).dimmIn = s.dimmIn := rfl
@[simp] theorem State.setCell_dimmNext (h : Half) (c : Nat) (x : CellSt) : (s.setCell h c x).dimmNext = s.dimmNext := rfl
@[simp] theorem State.setCell_spdOut (h : Half) (c : Nat) (x : CellSt) : (s.setCell h c x).spdOut = s.spdOut := rfl
@[simp] theorem State.setCell_sens (h : Half) (c : Nat) (x : CellSt) : (s.setCell h c x).sens = s.sens := rfl
@[simp] theorem State.setCell_excl (h : Half) (c : Nat) (x : CellSt) : (s.setCell h c x).excl = s.excl := rfl
@[simp] theorem State.setCell_watch (h : Half) (c : Nat) (x : CellSt) : (s.setCell h c x).watch = s.watch := rfl
@[simp] theorem State.setCell_ticks (h : Half) (c : Nat) (x : CellSt) : (s.setCell h c x).ticks = s.ticks := rfl
@[simp] theorem State.setCell_cdclk (h : Half) (c : Nat) (x : CellSt) : (s.setCell h c x).cdclk = s.cdclk := rfl
@[simp] theorem State.setCell_ppr (h : Half) (c : Nat) (x : CellSt) : (s.setCell h c x).ppr = s.ppr := rfl
@[simp] theorem State.setCell_capHbm (h : Half) (c : Nat) (x : CellSt) : (s.setCell h c x).capHbm = s.capHbm := rfl
@[simp] theorem State.setCell_capHeld (h : Half) (c : Nat) (x : CellSt) : (s.setCell h c x).capHeld = s.capHeld := rfl
@[simp] theorem State.setCell_lostWhy (h : Half) (c : Nat) (x : CellSt) : (s.setCell h c x).lostWhy = s.lostWhy := rfl
@[simp] theorem State.setCell_cdHit (h : Half) (c : Nat) (x : CellSt) : (s.setCell h c x).cdHit = s.cdHit := rfl
@[simp] theorem State.setCell_cals (h : Half) (c : Nat) (x : CellSt) : (s.setCell h c x).cals = s.cals := rfl
@[simp] theorem State.setCell_cfg (h : Half) (c : Nat) (x : CellSt) : (s.setCell h c x).cfg = s.cfg := rfl
@[simp] theorem State.setCell_sec (h : Half) (c : Nat) (x : CellSt) : (s.setCell h c x).sec = s.sec := rfl
@[simp] theorem State.setCell_tap (h : Half) (c : Nat) (x : CellSt) : (s.setCell h c x).tap = s.tap := rfl
@[simp] theorem State.setCell_spdm (h : Half) (c : Nat) (x : CellSt) : (s.setCell h c x).spdm = s.spdm := rfl
@[simp] theorem State.setCell_fn0 (h : Half) (c : Nat) (x : CellSt) : (s.setCell h c x).fn0 = s.fn0 := rfl
@[simp] theorem State.setCell_fn1 (h : Half) (c : Nat) (x : CellSt) : (s.setCell h c x).fn1 = s.fn1 := rfl
@[simp] theorem State.setCell_ringA (h : Half) (c : Nat) (x : CellSt) : (s.setCell h c x).ringA = s.ringA := rfl
@[simp] theorem State.setCell_ringB (h : Half) (c : Nat) (x : CellSt) : (s.setCell h c x).ringB = s.ringB := rfl
@[simp] theorem State.setCell_coal (h : Half) (c : Nat) (x : CellSt) : (s.setCell h c x).coal = s.coal := rfl
@[simp] theorem State.setCell_nv (h : Half) (c : Nat) (x : CellSt) : (s.setCell h c x).nv = s.nv := rfl
@[simp] theorem State.setCell_out (h : Half) (c : Nat) (x : CellSt) : (s.setCell h c x).out = s.out := rfl
@[simp] theorem State.setCell_fresh (h : Half) (c : Nat) (x : CellSt) : (s.setCell h c x).fresh = s.fresh := rfl
@[simp] theorem State.setCell_pending (h : Half) (c : Nat) (x : CellSt) : (s.setCell h c x).pending = s.pending := rfl

/-! `State.setQueue` -/

@[simp] theorem State.setQueue_regs (h : Half) (q : Nat) (x : QueueSt) : (s.setQueue h q x).regs = s.regs := rfl
@[simp] theorem State.setQueue_latch (h : Half) (q : Nat) (x : QueueSt) : (s.setQueue h q x).latch = s.latch := rfl
@[simp] theorem State.setQueue_pins (h : Half) (q : Nat) (x : QueueSt) : (s.setQueue h q x).pins = s.pins := rfl
@[simp] theorem State.setQueue_dies (h : Half) (q : Nat) (x : QueueSt) : (s.setQueue h q x).dies = s.dies := rfl
@[simp] theorem State.setQueue_mem (h : Half) (q : Nat) (x : QueueSt) : (s.setQueue h q x).mem = s.mem := rfl
@[simp] theorem State.setQueue_cells (h : Half) (q : Nat) (x : QueueSt) : (s.setQueue h q x).cells = s.cells := rfl
@[simp] theorem State.setQueue_swaps (h : Half) (q : Nat) (x : QueueSt) : (s.setQueue h q x).swaps = s.swaps := rfl
@[simp] theorem State.setQueue_rsvA (h : Half) (q : Nat) (x : QueueSt) : (s.setQueue h q x).rsvA = s.rsvA := rfl
@[simp] theorem State.setQueue_rsvB (h : Half) (q : Nat) (x : QueueSt) : (s.setQueue h q x).rsvB = s.rsvB := rfl
@[simp] theorem State.setQueue_sems (h : Half) (q : Nat) (x : QueueSt) : (s.setQueue h q x).sems = s.sems := rfl
@[simp] theorem State.setQueue_dlinks (h : Half) (q : Nat) (x : QueueSt) : (s.setQueue h q x).dlinks = s.dlinks := rfl
@[simp] theorem State.setQueue_parts (h : Half) (q : Nat) (x : QueueSt) : (s.setQueue h q x).parts = s.parts := rfl
@[simp] theorem State.setQueue_arbs (h : Half) (q : Nat) (x : QueueSt) : (s.setQueue h q x).arbs = s.arbs := rfl
@[simp] theorem State.setQueue_throttled (h : Half) (q : Nat) (x : QueueSt) : (s.setQueue h q x).throttled = s.throttled := rfl
@[simp] theorem State.setQueue_volts (h : Half) (q : Nat) (x : QueueSt) : (s.setQueue h q x).volts = s.volts := rfl
@[simp] theorem State.setQueue_fwWins (h : Half) (q : Nat) (x : QueueSt) : (s.setQueue h q x).fwWins = s.fwWins := rfl
@[simp] theorem State.setQueue_oes (h : Half) (q : Nat) (x : QueueSt) : (s.setQueue h q x).oes = s.oes := rfl
@[simp] theorem State.setQueue_ports (h : Half) (q : Nat) (x : QueueSt) : (s.setQueue h q x).ports = s.ports := rfl
@[simp] theorem State.setQueue_reqs (h : Half) (q : Nat) (x : QueueSt) : (s.setQueue h q x).reqs = s.reqs := rfl
@[simp] theorem State.setQueue_epochs (h : Half) (q : Nat) (x : QueueSt) : (s.setQueue h q x).epochs = s.epochs := rfl
@[simp] theorem State.setQueue_partners (h : Half) (q : Nat) (x : QueueSt) : (s.setQueue h q x).partners = s.partners := rfl
@[simp] theorem State.setQueue_transit (h : Half) (q : Nat) (x : QueueSt) : (s.setQueue h q x).transit = s.transit := rfl
@[simp] theorem State.setQueue_rcache (h : Half) (q : Nat) (x : QueueSt) : (s.setQueue h q x).rcache = s.rcache := rfl
@[simp] theorem State.setQueue_fctx (h : Half) (q : Nat) (x : QueueSt) : (s.setQueue h q x).fctx = s.fctx := rfl
@[simp] theorem State.setQueue_rcopies (h : Half) (q : Nat) (x : QueueSt) : (s.setQueue h q x).rcopies = s.rcopies := rfl
@[simp] theorem State.setQueue_colls (h : Half) (q : Nat) (x : QueueSt) : (s.setQueue h q x).colls = s.colls := rfl
@[simp] theorem State.setQueue_swarms (h : Half) (q : Nat) (x : QueueSt) : (s.setQueue h q x).swarms = s.swarms := rfl
@[simp] theorem State.setQueue_readys (h : Half) (q : Nat) (x : QueueSt) : (s.setQueue h q x).readys = s.readys := rfl
@[simp] theorem State.setQueue_aborted (h : Half) (q : Nat) (x : QueueSt) : (s.setQueue h q x).aborted = s.aborted := rfl
@[simp] theorem State.setQueue_session (h : Half) (q : Nat) (x : QueueSt) : (s.setQueue h q x).session = s.session := rfl
@[simp] theorem State.setQueue_reduced (h : Half) (q : Nat) (x : QueueSt) : (s.setQueue h q x).reduced = s.reduced := rfl
@[simp] theorem State.setQueue_bonds (h : Half) (q : Nat) (x : QueueSt) : (s.setQueue h q x).bonds = s.bonds := rfl
@[simp] theorem State.setQueue_portA (h : Half) (q : Nat) (x : QueueSt) : (s.setQueue h q x).portA = s.portA := rfl
@[simp] theorem State.setQueue_portB (h : Half) (q : Nat) (x : QueueSt) : (s.setQueue h q x).portB = s.portB := rfl
@[simp] theorem State.setQueue_hreads (h : Half) (q : Nat) (x : QueueSt) : (s.setQueue h q x).hreads = s.hreads := rfl
@[simp] theorem State.setQueue_hid (h : Half) (q : Nat) (x : QueueSt) : (s.setQueue h q x).hid = s.hid := rfl
@[simp] theorem State.setQueue_lostQ (h : Half) (q : Nat) (x : QueueSt) : (s.setQueue h q x).lostQ = s.lostQ := rfl
@[simp] theorem State.setQueue_fwq (h : Half) (q : Nat) (x : QueueSt) : (s.setQueue h q x).fwq = s.fwq := rfl
@[simp] theorem State.setQueue_noteSeq (h : Half) (q : Nat) (x : QueueSt) : (s.setQueue h q x).noteSeq = s.noteSeq := rfl
@[simp] theorem State.setQueue_cc (h : Half) (q : Nat) (x : QueueSt) : (s.setQueue h q x).cc = s.cc := rfl
@[simp] theorem State.setQueue_evq (h : Half) (q : Nat) (x : QueueSt) : (s.setQueue h q x).evq = s.evq := rfl
@[simp] theorem State.setQueue_i3c (h : Half) (q : Nat) (x : QueueSt) : (s.setQueue h q x).i3c = s.i3c := rfl
@[simp] theorem State.setQueue_telem (h : Half) (q : Nat) (x : QueueSt) : (s.setQueue h q x).telem = s.telem := rfl
@[simp] theorem State.setQueue_dimmIn (h : Half) (q : Nat) (x : QueueSt) : (s.setQueue h q x).dimmIn = s.dimmIn := rfl
@[simp] theorem State.setQueue_dimmNext (h : Half) (q : Nat) (x : QueueSt) : (s.setQueue h q x).dimmNext = s.dimmNext := rfl
@[simp] theorem State.setQueue_spdOut (h : Half) (q : Nat) (x : QueueSt) : (s.setQueue h q x).spdOut = s.spdOut := rfl
@[simp] theorem State.setQueue_sens (h : Half) (q : Nat) (x : QueueSt) : (s.setQueue h q x).sens = s.sens := rfl
@[simp] theorem State.setQueue_excl (h : Half) (q : Nat) (x : QueueSt) : (s.setQueue h q x).excl = s.excl := rfl
@[simp] theorem State.setQueue_watch (h : Half) (q : Nat) (x : QueueSt) : (s.setQueue h q x).watch = s.watch := rfl
@[simp] theorem State.setQueue_ticks (h : Half) (q : Nat) (x : QueueSt) : (s.setQueue h q x).ticks = s.ticks := rfl
@[simp] theorem State.setQueue_cdclk (h : Half) (q : Nat) (x : QueueSt) : (s.setQueue h q x).cdclk = s.cdclk := rfl
@[simp] theorem State.setQueue_ppr (h : Half) (q : Nat) (x : QueueSt) : (s.setQueue h q x).ppr = s.ppr := rfl
@[simp] theorem State.setQueue_capHbm (h : Half) (q : Nat) (x : QueueSt) : (s.setQueue h q x).capHbm = s.capHbm := rfl
@[simp] theorem State.setQueue_capHeld (h : Half) (q : Nat) (x : QueueSt) : (s.setQueue h q x).capHeld = s.capHeld := rfl
@[simp] theorem State.setQueue_lostWhy (h : Half) (q : Nat) (x : QueueSt) : (s.setQueue h q x).lostWhy = s.lostWhy := rfl
@[simp] theorem State.setQueue_cdHit (h : Half) (q : Nat) (x : QueueSt) : (s.setQueue h q x).cdHit = s.cdHit := rfl
@[simp] theorem State.setQueue_cals (h : Half) (q : Nat) (x : QueueSt) : (s.setQueue h q x).cals = s.cals := rfl
@[simp] theorem State.setQueue_cfg (h : Half) (q : Nat) (x : QueueSt) : (s.setQueue h q x).cfg = s.cfg := rfl
@[simp] theorem State.setQueue_sec (h : Half) (q : Nat) (x : QueueSt) : (s.setQueue h q x).sec = s.sec := rfl
@[simp] theorem State.setQueue_tap (h : Half) (q : Nat) (x : QueueSt) : (s.setQueue h q x).tap = s.tap := rfl
@[simp] theorem State.setQueue_spdm (h : Half) (q : Nat) (x : QueueSt) : (s.setQueue h q x).spdm = s.spdm := rfl
@[simp] theorem State.setQueue_fn0 (h : Half) (q : Nat) (x : QueueSt) : (s.setQueue h q x).fn0 = s.fn0 := rfl
@[simp] theorem State.setQueue_fn1 (h : Half) (q : Nat) (x : QueueSt) : (s.setQueue h q x).fn1 = s.fn1 := rfl
@[simp] theorem State.setQueue_ringA (h : Half) (q : Nat) (x : QueueSt) : (s.setQueue h q x).ringA = s.ringA := rfl
@[simp] theorem State.setQueue_ringB (h : Half) (q : Nat) (x : QueueSt) : (s.setQueue h q x).ringB = s.ringB := rfl
@[simp] theorem State.setQueue_coal (h : Half) (q : Nat) (x : QueueSt) : (s.setQueue h q x).coal = s.coal := rfl
@[simp] theorem State.setQueue_nv (h : Half) (q : Nat) (x : QueueSt) : (s.setQueue h q x).nv = s.nv := rfl
@[simp] theorem State.setQueue_out (h : Half) (q : Nat) (x : QueueSt) : (s.setQueue h q x).out = s.out := rfl
@[simp] theorem State.setQueue_fresh (h : Half) (q : Nat) (x : QueueSt) : (s.setQueue h q x).fresh = s.fresh := rfl
@[simp] theorem State.setQueue_pending (h : Half) (q : Nat) (x : QueueSt) : (s.setQueue h q x).pending = s.pending := rfl

/-! `State.setOe` -/

@[simp] theorem State.setOe_regs (h : Half) (o : Nat) (x : OeSt) : (s.setOe h o x).regs = s.regs := rfl
@[simp] theorem State.setOe_latch (h : Half) (o : Nat) (x : OeSt) : (s.setOe h o x).latch = s.latch := rfl
@[simp] theorem State.setOe_pins (h : Half) (o : Nat) (x : OeSt) : (s.setOe h o x).pins = s.pins := rfl
@[simp] theorem State.setOe_dies (h : Half) (o : Nat) (x : OeSt) : (s.setOe h o x).dies = s.dies := rfl
@[simp] theorem State.setOe_mem (h : Half) (o : Nat) (x : OeSt) : (s.setOe h o x).mem = s.mem := rfl
@[simp] theorem State.setOe_cells (h : Half) (o : Nat) (x : OeSt) : (s.setOe h o x).cells = s.cells := rfl
@[simp] theorem State.setOe_swaps (h : Half) (o : Nat) (x : OeSt) : (s.setOe h o x).swaps = s.swaps := rfl
@[simp] theorem State.setOe_queues (h : Half) (o : Nat) (x : OeSt) : (s.setOe h o x).queues = s.queues := rfl
@[simp] theorem State.setOe_rsvA (h : Half) (o : Nat) (x : OeSt) : (s.setOe h o x).rsvA = s.rsvA := rfl
@[simp] theorem State.setOe_rsvB (h : Half) (o : Nat) (x : OeSt) : (s.setOe h o x).rsvB = s.rsvB := rfl
@[simp] theorem State.setOe_sems (h : Half) (o : Nat) (x : OeSt) : (s.setOe h o x).sems = s.sems := rfl
@[simp] theorem State.setOe_dlinks (h : Half) (o : Nat) (x : OeSt) : (s.setOe h o x).dlinks = s.dlinks := rfl
@[simp] theorem State.setOe_parts (h : Half) (o : Nat) (x : OeSt) : (s.setOe h o x).parts = s.parts := rfl
@[simp] theorem State.setOe_arbs (h : Half) (o : Nat) (x : OeSt) : (s.setOe h o x).arbs = s.arbs := rfl
@[simp] theorem State.setOe_throttled (h : Half) (o : Nat) (x : OeSt) : (s.setOe h o x).throttled = s.throttled := rfl
@[simp] theorem State.setOe_volts (h : Half) (o : Nat) (x : OeSt) : (s.setOe h o x).volts = s.volts := rfl
@[simp] theorem State.setOe_fwWins (h : Half) (o : Nat) (x : OeSt) : (s.setOe h o x).fwWins = s.fwWins := rfl
@[simp] theorem State.setOe_ports (h : Half) (o : Nat) (x : OeSt) : (s.setOe h o x).ports = s.ports := rfl
@[simp] theorem State.setOe_reqs (h : Half) (o : Nat) (x : OeSt) : (s.setOe h o x).reqs = s.reqs := rfl
@[simp] theorem State.setOe_epochs (h : Half) (o : Nat) (x : OeSt) : (s.setOe h o x).epochs = s.epochs := rfl
@[simp] theorem State.setOe_partners (h : Half) (o : Nat) (x : OeSt) : (s.setOe h o x).partners = s.partners := rfl
@[simp] theorem State.setOe_transit (h : Half) (o : Nat) (x : OeSt) : (s.setOe h o x).transit = s.transit := rfl
@[simp] theorem State.setOe_rcache (h : Half) (o : Nat) (x : OeSt) : (s.setOe h o x).rcache = s.rcache := rfl
@[simp] theorem State.setOe_fctx (h : Half) (o : Nat) (x : OeSt) : (s.setOe h o x).fctx = s.fctx := rfl
@[simp] theorem State.setOe_rcopies (h : Half) (o : Nat) (x : OeSt) : (s.setOe h o x).rcopies = s.rcopies := rfl
@[simp] theorem State.setOe_colls (h : Half) (o : Nat) (x : OeSt) : (s.setOe h o x).colls = s.colls := rfl
@[simp] theorem State.setOe_swarms (h : Half) (o : Nat) (x : OeSt) : (s.setOe h o x).swarms = s.swarms := rfl
@[simp] theorem State.setOe_readys (h : Half) (o : Nat) (x : OeSt) : (s.setOe h o x).readys = s.readys := rfl
@[simp] theorem State.setOe_aborted (h : Half) (o : Nat) (x : OeSt) : (s.setOe h o x).aborted = s.aborted := rfl
@[simp] theorem State.setOe_session (h : Half) (o : Nat) (x : OeSt) : (s.setOe h o x).session = s.session := rfl
@[simp] theorem State.setOe_reduced (h : Half) (o : Nat) (x : OeSt) : (s.setOe h o x).reduced = s.reduced := rfl
@[simp] theorem State.setOe_bonds (h : Half) (o : Nat) (x : OeSt) : (s.setOe h o x).bonds = s.bonds := rfl
@[simp] theorem State.setOe_portA (h : Half) (o : Nat) (x : OeSt) : (s.setOe h o x).portA = s.portA := rfl
@[simp] theorem State.setOe_portB (h : Half) (o : Nat) (x : OeSt) : (s.setOe h o x).portB = s.portB := rfl
@[simp] theorem State.setOe_hreads (h : Half) (o : Nat) (x : OeSt) : (s.setOe h o x).hreads = s.hreads := rfl
@[simp] theorem State.setOe_hid (h : Half) (o : Nat) (x : OeSt) : (s.setOe h o x).hid = s.hid := rfl
@[simp] theorem State.setOe_lostQ (h : Half) (o : Nat) (x : OeSt) : (s.setOe h o x).lostQ = s.lostQ := rfl
@[simp] theorem State.setOe_fwq (h : Half) (o : Nat) (x : OeSt) : (s.setOe h o x).fwq = s.fwq := rfl
@[simp] theorem State.setOe_noteSeq (h : Half) (o : Nat) (x : OeSt) : (s.setOe h o x).noteSeq = s.noteSeq := rfl
@[simp] theorem State.setOe_cc (h : Half) (o : Nat) (x : OeSt) : (s.setOe h o x).cc = s.cc := rfl
@[simp] theorem State.setOe_evq (h : Half) (o : Nat) (x : OeSt) : (s.setOe h o x).evq = s.evq := rfl
@[simp] theorem State.setOe_i3c (h : Half) (o : Nat) (x : OeSt) : (s.setOe h o x).i3c = s.i3c := rfl
@[simp] theorem State.setOe_telem (h : Half) (o : Nat) (x : OeSt) : (s.setOe h o x).telem = s.telem := rfl
@[simp] theorem State.setOe_dimmIn (h : Half) (o : Nat) (x : OeSt) : (s.setOe h o x).dimmIn = s.dimmIn := rfl
@[simp] theorem State.setOe_dimmNext (h : Half) (o : Nat) (x : OeSt) : (s.setOe h o x).dimmNext = s.dimmNext := rfl
@[simp] theorem State.setOe_spdOut (h : Half) (o : Nat) (x : OeSt) : (s.setOe h o x).spdOut = s.spdOut := rfl
@[simp] theorem State.setOe_sens (h : Half) (o : Nat) (x : OeSt) : (s.setOe h o x).sens = s.sens := rfl
@[simp] theorem State.setOe_excl (h : Half) (o : Nat) (x : OeSt) : (s.setOe h o x).excl = s.excl := rfl
@[simp] theorem State.setOe_watch (h : Half) (o : Nat) (x : OeSt) : (s.setOe h o x).watch = s.watch := rfl
@[simp] theorem State.setOe_ticks (h : Half) (o : Nat) (x : OeSt) : (s.setOe h o x).ticks = s.ticks := rfl
@[simp] theorem State.setOe_cdclk (h : Half) (o : Nat) (x : OeSt) : (s.setOe h o x).cdclk = s.cdclk := rfl
@[simp] theorem State.setOe_ppr (h : Half) (o : Nat) (x : OeSt) : (s.setOe h o x).ppr = s.ppr := rfl
@[simp] theorem State.setOe_capHbm (h : Half) (o : Nat) (x : OeSt) : (s.setOe h o x).capHbm = s.capHbm := rfl
@[simp] theorem State.setOe_capHeld (h : Half) (o : Nat) (x : OeSt) : (s.setOe h o x).capHeld = s.capHeld := rfl
@[simp] theorem State.setOe_lostWhy (h : Half) (o : Nat) (x : OeSt) : (s.setOe h o x).lostWhy = s.lostWhy := rfl
@[simp] theorem State.setOe_cdHit (h : Half) (o : Nat) (x : OeSt) : (s.setOe h o x).cdHit = s.cdHit := rfl
@[simp] theorem State.setOe_cals (h : Half) (o : Nat) (x : OeSt) : (s.setOe h o x).cals = s.cals := rfl
@[simp] theorem State.setOe_cfg (h : Half) (o : Nat) (x : OeSt) : (s.setOe h o x).cfg = s.cfg := rfl
@[simp] theorem State.setOe_sec (h : Half) (o : Nat) (x : OeSt) : (s.setOe h o x).sec = s.sec := rfl
@[simp] theorem State.setOe_tap (h : Half) (o : Nat) (x : OeSt) : (s.setOe h o x).tap = s.tap := rfl
@[simp] theorem State.setOe_spdm (h : Half) (o : Nat) (x : OeSt) : (s.setOe h o x).spdm = s.spdm := rfl
@[simp] theorem State.setOe_fn0 (h : Half) (o : Nat) (x : OeSt) : (s.setOe h o x).fn0 = s.fn0 := rfl
@[simp] theorem State.setOe_fn1 (h : Half) (o : Nat) (x : OeSt) : (s.setOe h o x).fn1 = s.fn1 := rfl
@[simp] theorem State.setOe_ringA (h : Half) (o : Nat) (x : OeSt) : (s.setOe h o x).ringA = s.ringA := rfl
@[simp] theorem State.setOe_ringB (h : Half) (o : Nat) (x : OeSt) : (s.setOe h o x).ringB = s.ringB := rfl
@[simp] theorem State.setOe_coal (h : Half) (o : Nat) (x : OeSt) : (s.setOe h o x).coal = s.coal := rfl
@[simp] theorem State.setOe_nv (h : Half) (o : Nat) (x : OeSt) : (s.setOe h o x).nv = s.nv := rfl
@[simp] theorem State.setOe_out (h : Half) (o : Nat) (x : OeSt) : (s.setOe h o x).out = s.out := rfl
@[simp] theorem State.setOe_fresh (h : Half) (o : Nat) (x : OeSt) : (s.setOe h o x).fresh = s.fresh := rfl
@[simp] theorem State.setOe_pending (h : Half) (o : Nat) (x : OeSt) : (s.setOe h o x).pending = s.pending := rfl

/-! `State.setPort` -/

@[simp] theorem State.setPort_regs (p : PortId) (x : PortSt) : (s.setPort p x).regs = s.regs := rfl
@[simp] theorem State.setPort_latch (p : PortId) (x : PortSt) : (s.setPort p x).latch = s.latch := rfl
@[simp] theorem State.setPort_pins (p : PortId) (x : PortSt) : (s.setPort p x).pins = s.pins := rfl
@[simp] theorem State.setPort_dies (p : PortId) (x : PortSt) : (s.setPort p x).dies = s.dies := rfl
@[simp] theorem State.setPort_mem (p : PortId) (x : PortSt) : (s.setPort p x).mem = s.mem := rfl
@[simp] theorem State.setPort_cells (p : PortId) (x : PortSt) : (s.setPort p x).cells = s.cells := rfl
@[simp] theorem State.setPort_swaps (p : PortId) (x : PortSt) : (s.setPort p x).swaps = s.swaps := rfl
@[simp] theorem State.setPort_queues (p : PortId) (x : PortSt) : (s.setPort p x).queues = s.queues := rfl
@[simp] theorem State.setPort_rsvA (p : PortId) (x : PortSt) : (s.setPort p x).rsvA = s.rsvA := rfl
@[simp] theorem State.setPort_rsvB (p : PortId) (x : PortSt) : (s.setPort p x).rsvB = s.rsvB := rfl
@[simp] theorem State.setPort_sems (p : PortId) (x : PortSt) : (s.setPort p x).sems = s.sems := rfl
@[simp] theorem State.setPort_dlinks (p : PortId) (x : PortSt) : (s.setPort p x).dlinks = s.dlinks := rfl
@[simp] theorem State.setPort_parts (p : PortId) (x : PortSt) : (s.setPort p x).parts = s.parts := rfl
@[simp] theorem State.setPort_arbs (p : PortId) (x : PortSt) : (s.setPort p x).arbs = s.arbs := rfl
@[simp] theorem State.setPort_throttled (p : PortId) (x : PortSt) : (s.setPort p x).throttled = s.throttled := rfl
@[simp] theorem State.setPort_volts (p : PortId) (x : PortSt) : (s.setPort p x).volts = s.volts := rfl
@[simp] theorem State.setPort_fwWins (p : PortId) (x : PortSt) : (s.setPort p x).fwWins = s.fwWins := rfl
@[simp] theorem State.setPort_oes (p : PortId) (x : PortSt) : (s.setPort p x).oes = s.oes := rfl
@[simp] theorem State.setPort_reqs (p : PortId) (x : PortSt) : (s.setPort p x).reqs = s.reqs := rfl
@[simp] theorem State.setPort_epochs (p : PortId) (x : PortSt) : (s.setPort p x).epochs = s.epochs := rfl
@[simp] theorem State.setPort_partners (p : PortId) (x : PortSt) : (s.setPort p x).partners = s.partners := rfl
@[simp] theorem State.setPort_transit (p : PortId) (x : PortSt) : (s.setPort p x).transit = s.transit := rfl
@[simp] theorem State.setPort_rcache (p : PortId) (x : PortSt) : (s.setPort p x).rcache = s.rcache := rfl
@[simp] theorem State.setPort_fctx (p : PortId) (x : PortSt) : (s.setPort p x).fctx = s.fctx := rfl
@[simp] theorem State.setPort_rcopies (p : PortId) (x : PortSt) : (s.setPort p x).rcopies = s.rcopies := rfl
@[simp] theorem State.setPort_colls (p : PortId) (x : PortSt) : (s.setPort p x).colls = s.colls := rfl
@[simp] theorem State.setPort_swarms (p : PortId) (x : PortSt) : (s.setPort p x).swarms = s.swarms := rfl
@[simp] theorem State.setPort_readys (p : PortId) (x : PortSt) : (s.setPort p x).readys = s.readys := rfl
@[simp] theorem State.setPort_aborted (p : PortId) (x : PortSt) : (s.setPort p x).aborted = s.aborted := rfl
@[simp] theorem State.setPort_session (p : PortId) (x : PortSt) : (s.setPort p x).session = s.session := rfl
@[simp] theorem State.setPort_reduced (p : PortId) (x : PortSt) : (s.setPort p x).reduced = s.reduced := rfl
@[simp] theorem State.setPort_bonds (p : PortId) (x : PortSt) : (s.setPort p x).bonds = s.bonds := rfl
@[simp] theorem State.setPort_portA (p : PortId) (x : PortSt) : (s.setPort p x).portA = s.portA := rfl
@[simp] theorem State.setPort_portB (p : PortId) (x : PortSt) : (s.setPort p x).portB = s.portB := rfl
@[simp] theorem State.setPort_hreads (p : PortId) (x : PortSt) : (s.setPort p x).hreads = s.hreads := rfl
@[simp] theorem State.setPort_hid (p : PortId) (x : PortSt) : (s.setPort p x).hid = s.hid := rfl
@[simp] theorem State.setPort_lostQ (p : PortId) (x : PortSt) : (s.setPort p x).lostQ = s.lostQ := rfl
@[simp] theorem State.setPort_fwq (p : PortId) (x : PortSt) : (s.setPort p x).fwq = s.fwq := rfl
@[simp] theorem State.setPort_noteSeq (p : PortId) (x : PortSt) : (s.setPort p x).noteSeq = s.noteSeq := rfl
@[simp] theorem State.setPort_cc (p : PortId) (x : PortSt) : (s.setPort p x).cc = s.cc := rfl
@[simp] theorem State.setPort_evq (p : PortId) (x : PortSt) : (s.setPort p x).evq = s.evq := rfl
@[simp] theorem State.setPort_i3c (p : PortId) (x : PortSt) : (s.setPort p x).i3c = s.i3c := rfl
@[simp] theorem State.setPort_telem (p : PortId) (x : PortSt) : (s.setPort p x).telem = s.telem := rfl
@[simp] theorem State.setPort_dimmIn (p : PortId) (x : PortSt) : (s.setPort p x).dimmIn = s.dimmIn := rfl
@[simp] theorem State.setPort_dimmNext (p : PortId) (x : PortSt) : (s.setPort p x).dimmNext = s.dimmNext := rfl
@[simp] theorem State.setPort_spdOut (p : PortId) (x : PortSt) : (s.setPort p x).spdOut = s.spdOut := rfl
@[simp] theorem State.setPort_sens (p : PortId) (x : PortSt) : (s.setPort p x).sens = s.sens := rfl
@[simp] theorem State.setPort_excl (p : PortId) (x : PortSt) : (s.setPort p x).excl = s.excl := rfl
@[simp] theorem State.setPort_watch (p : PortId) (x : PortSt) : (s.setPort p x).watch = s.watch := rfl
@[simp] theorem State.setPort_ticks (p : PortId) (x : PortSt) : (s.setPort p x).ticks = s.ticks := rfl
@[simp] theorem State.setPort_cdclk (p : PortId) (x : PortSt) : (s.setPort p x).cdclk = s.cdclk := rfl
@[simp] theorem State.setPort_ppr (p : PortId) (x : PortSt) : (s.setPort p x).ppr = s.ppr := rfl
@[simp] theorem State.setPort_capHbm (p : PortId) (x : PortSt) : (s.setPort p x).capHbm = s.capHbm := rfl
@[simp] theorem State.setPort_capHeld (p : PortId) (x : PortSt) : (s.setPort p x).capHeld = s.capHeld := rfl
@[simp] theorem State.setPort_lostWhy (p : PortId) (x : PortSt) : (s.setPort p x).lostWhy = s.lostWhy := rfl
@[simp] theorem State.setPort_cdHit (p : PortId) (x : PortSt) : (s.setPort p x).cdHit = s.cdHit := rfl
@[simp] theorem State.setPort_cals (p : PortId) (x : PortSt) : (s.setPort p x).cals = s.cals := rfl
@[simp] theorem State.setPort_cfg (p : PortId) (x : PortSt) : (s.setPort p x).cfg = s.cfg := rfl
@[simp] theorem State.setPort_sec (p : PortId) (x : PortSt) : (s.setPort p x).sec = s.sec := rfl
@[simp] theorem State.setPort_tap (p : PortId) (x : PortSt) : (s.setPort p x).tap = s.tap := rfl
@[simp] theorem State.setPort_spdm (p : PortId) (x : PortSt) : (s.setPort p x).spdm = s.spdm := rfl
@[simp] theorem State.setPort_fn0 (p : PortId) (x : PortSt) : (s.setPort p x).fn0 = s.fn0 := rfl
@[simp] theorem State.setPort_fn1 (p : PortId) (x : PortSt) : (s.setPort p x).fn1 = s.fn1 := rfl
@[simp] theorem State.setPort_ringA (p : PortId) (x : PortSt) : (s.setPort p x).ringA = s.ringA := rfl
@[simp] theorem State.setPort_ringB (p : PortId) (x : PortSt) : (s.setPort p x).ringB = s.ringB := rfl
@[simp] theorem State.setPort_coal (p : PortId) (x : PortSt) : (s.setPort p x).coal = s.coal := rfl
@[simp] theorem State.setPort_nv (p : PortId) (x : PortSt) : (s.setPort p x).nv = s.nv := rfl
@[simp] theorem State.setPort_out (p : PortId) (x : PortSt) : (s.setPort p x).out = s.out := rfl
@[simp] theorem State.setPort_fresh (p : PortId) (x : PortSt) : (s.setPort p x).fresh = s.fresh := rfl
@[simp] theorem State.setPort_pending (p : PortId) (x : PortSt) : (s.setPort p x).pending = s.pending := rfl

/-! `State.wr` -/

@[simp] theorem State.wr_regs (a : Nat) (b : List Byte) : (s.wr a b).regs = s.regs := rfl
@[simp] theorem State.wr_latch (a : Nat) (b : List Byte) : (s.wr a b).latch = s.latch := rfl
@[simp] theorem State.wr_pins (a : Nat) (b : List Byte) : (s.wr a b).pins = s.pins := rfl
@[simp] theorem State.wr_dies (a : Nat) (b : List Byte) : (s.wr a b).dies = s.dies := rfl
@[simp] theorem State.wr_cells (a : Nat) (b : List Byte) : (s.wr a b).cells = s.cells := rfl
@[simp] theorem State.wr_swaps (a : Nat) (b : List Byte) : (s.wr a b).swaps = s.swaps := rfl
@[simp] theorem State.wr_queues (a : Nat) (b : List Byte) : (s.wr a b).queues = s.queues := rfl
@[simp] theorem State.wr_rsvA (a : Nat) (b : List Byte) : (s.wr a b).rsvA = s.rsvA := rfl
@[simp] theorem State.wr_rsvB (a : Nat) (b : List Byte) : (s.wr a b).rsvB = s.rsvB := rfl
@[simp] theorem State.wr_sems (a : Nat) (b : List Byte) : (s.wr a b).sems = s.sems := rfl
@[simp] theorem State.wr_dlinks (a : Nat) (b : List Byte) : (s.wr a b).dlinks = s.dlinks := rfl
@[simp] theorem State.wr_parts (a : Nat) (b : List Byte) : (s.wr a b).parts = s.parts := rfl
@[simp] theorem State.wr_arbs (a : Nat) (b : List Byte) : (s.wr a b).arbs = s.arbs := rfl
@[simp] theorem State.wr_throttled (a : Nat) (b : List Byte) : (s.wr a b).throttled = s.throttled := rfl
@[simp] theorem State.wr_volts (a : Nat) (b : List Byte) : (s.wr a b).volts = s.volts := rfl
@[simp] theorem State.wr_fwWins (a : Nat) (b : List Byte) : (s.wr a b).fwWins = s.fwWins := rfl
@[simp] theorem State.wr_oes (a : Nat) (b : List Byte) : (s.wr a b).oes = s.oes := rfl
@[simp] theorem State.wr_ports (a : Nat) (b : List Byte) : (s.wr a b).ports = s.ports := rfl
@[simp] theorem State.wr_reqs (a : Nat) (b : List Byte) : (s.wr a b).reqs = s.reqs := rfl
@[simp] theorem State.wr_epochs (a : Nat) (b : List Byte) : (s.wr a b).epochs = s.epochs := rfl
@[simp] theorem State.wr_partners (a : Nat) (b : List Byte) : (s.wr a b).partners = s.partners := rfl
@[simp] theorem State.wr_transit (a : Nat) (b : List Byte) : (s.wr a b).transit = s.transit := rfl
@[simp] theorem State.wr_rcache (a : Nat) (b : List Byte) : (s.wr a b).rcache = s.rcache := rfl
@[simp] theorem State.wr_fctx (a : Nat) (b : List Byte) : (s.wr a b).fctx = s.fctx := rfl
@[simp] theorem State.wr_rcopies (a : Nat) (b : List Byte) : (s.wr a b).rcopies = s.rcopies := rfl
@[simp] theorem State.wr_colls (a : Nat) (b : List Byte) : (s.wr a b).colls = s.colls := rfl
@[simp] theorem State.wr_swarms (a : Nat) (b : List Byte) : (s.wr a b).swarms = s.swarms := rfl
@[simp] theorem State.wr_readys (a : Nat) (b : List Byte) : (s.wr a b).readys = s.readys := rfl
@[simp] theorem State.wr_aborted (a : Nat) (b : List Byte) : (s.wr a b).aborted = s.aborted := rfl
@[simp] theorem State.wr_session (a : Nat) (b : List Byte) : (s.wr a b).session = s.session := rfl
@[simp] theorem State.wr_reduced (a : Nat) (b : List Byte) : (s.wr a b).reduced = s.reduced := rfl
@[simp] theorem State.wr_bonds (a : Nat) (b : List Byte) : (s.wr a b).bonds = s.bonds := rfl
@[simp] theorem State.wr_portA (a : Nat) (b : List Byte) : (s.wr a b).portA = s.portA := rfl
@[simp] theorem State.wr_portB (a : Nat) (b : List Byte) : (s.wr a b).portB = s.portB := rfl
@[simp] theorem State.wr_hreads (a : Nat) (b : List Byte) : (s.wr a b).hreads = s.hreads := rfl
@[simp] theorem State.wr_hid (a : Nat) (b : List Byte) : (s.wr a b).hid = s.hid := rfl
@[simp] theorem State.wr_lostQ (a : Nat) (b : List Byte) : (s.wr a b).lostQ = s.lostQ := rfl
@[simp] theorem State.wr_fwq (a : Nat) (b : List Byte) : (s.wr a b).fwq = s.fwq := rfl
@[simp] theorem State.wr_noteSeq (a : Nat) (b : List Byte) : (s.wr a b).noteSeq = s.noteSeq := rfl
@[simp] theorem State.wr_cc (a : Nat) (b : List Byte) : (s.wr a b).cc = s.cc := rfl
@[simp] theorem State.wr_evq (a : Nat) (b : List Byte) : (s.wr a b).evq = s.evq := rfl
@[simp] theorem State.wr_i3c (a : Nat) (b : List Byte) : (s.wr a b).i3c = s.i3c := rfl
@[simp] theorem State.wr_telem (a : Nat) (b : List Byte) : (s.wr a b).telem = s.telem := rfl
@[simp] theorem State.wr_dimmIn (a : Nat) (b : List Byte) : (s.wr a b).dimmIn = s.dimmIn := rfl
@[simp] theorem State.wr_dimmNext (a : Nat) (b : List Byte) : (s.wr a b).dimmNext = s.dimmNext := rfl
@[simp] theorem State.wr_spdOut (a : Nat) (b : List Byte) : (s.wr a b).spdOut = s.spdOut := rfl
@[simp] theorem State.wr_sens (a : Nat) (b : List Byte) : (s.wr a b).sens = s.sens := rfl
@[simp] theorem State.wr_excl (a : Nat) (b : List Byte) : (s.wr a b).excl = s.excl := rfl
@[simp] theorem State.wr_watch (a : Nat) (b : List Byte) : (s.wr a b).watch = s.watch := rfl
@[simp] theorem State.wr_ticks (a : Nat) (b : List Byte) : (s.wr a b).ticks = s.ticks := rfl
@[simp] theorem State.wr_cdclk (a : Nat) (b : List Byte) : (s.wr a b).cdclk = s.cdclk := rfl
@[simp] theorem State.wr_ppr (a : Nat) (b : List Byte) : (s.wr a b).ppr = s.ppr := rfl
@[simp] theorem State.wr_capHbm (a : Nat) (b : List Byte) : (s.wr a b).capHbm = s.capHbm := rfl
@[simp] theorem State.wr_capHeld (a : Nat) (b : List Byte) : (s.wr a b).capHeld = s.capHeld := rfl
@[simp] theorem State.wr_lostWhy (a : Nat) (b : List Byte) : (s.wr a b).lostWhy = s.lostWhy := rfl
@[simp] theorem State.wr_cdHit (a : Nat) (b : List Byte) : (s.wr a b).cdHit = s.cdHit := rfl
@[simp] theorem State.wr_cals (a : Nat) (b : List Byte) : (s.wr a b).cals = s.cals := rfl
@[simp] theorem State.wr_cfg (a : Nat) (b : List Byte) : (s.wr a b).cfg = s.cfg := rfl
@[simp] theorem State.wr_sec (a : Nat) (b : List Byte) : (s.wr a b).sec = s.sec := rfl
@[simp] theorem State.wr_tap (a : Nat) (b : List Byte) : (s.wr a b).tap = s.tap := rfl
@[simp] theorem State.wr_spdm (a : Nat) (b : List Byte) : (s.wr a b).spdm = s.spdm := rfl
@[simp] theorem State.wr_fn0 (a : Nat) (b : List Byte) : (s.wr a b).fn0 = s.fn0 := rfl
@[simp] theorem State.wr_fn1 (a : Nat) (b : List Byte) : (s.wr a b).fn1 = s.fn1 := rfl
@[simp] theorem State.wr_ringA (a : Nat) (b : List Byte) : (s.wr a b).ringA = s.ringA := rfl
@[simp] theorem State.wr_ringB (a : Nat) (b : List Byte) : (s.wr a b).ringB = s.ringB := rfl
@[simp] theorem State.wr_coal (a : Nat) (b : List Byte) : (s.wr a b).coal = s.coal := rfl
@[simp] theorem State.wr_nv (a : Nat) (b : List Byte) : (s.wr a b).nv = s.nv := rfl
@[simp] theorem State.wr_out (a : Nat) (b : List Byte) : (s.wr a b).out = s.out := rfl
@[simp] theorem State.wr_fresh (a : Nat) (b : List Byte) : (s.wr a b).fresh = s.fresh := rfl
@[simp] theorem State.wr_pending (a : Nat) (b : List Byte) : (s.wr a b).pending = s.pending := rfl

/-! `State.onQueue` -/

@[simp] theorem State.onQueue_regs (t : State) : (s.onQueue t).regs = s.regs := rfl
@[simp] theorem State.onQueue_latch (t : State) : (s.onQueue t).latch = s.latch := rfl
@[simp] theorem State.onQueue_pins (t : State) : (s.onQueue t).pins = s.pins := rfl
@[simp] theorem State.onQueue_dies (t : State) : (s.onQueue t).dies = s.dies := rfl
@[simp] theorem State.onQueue_mem (t : State) : (s.onQueue t).mem = s.mem := rfl
@[simp] theorem State.onQueue_cells (t : State) : (s.onQueue t).cells = s.cells := rfl
@[simp] theorem State.onQueue_swaps (t : State) : (s.onQueue t).swaps = s.swaps := rfl
@[simp] theorem State.onQueue_queues (t : State) : (s.onQueue t).queues = s.queues := rfl
@[simp] theorem State.onQueue_rsvA (t : State) : (s.onQueue t).rsvA = s.rsvA := rfl
@[simp] theorem State.onQueue_rsvB (t : State) : (s.onQueue t).rsvB = s.rsvB := rfl
@[simp] theorem State.onQueue_sems (t : State) : (s.onQueue t).sems = s.sems := rfl
@[simp] theorem State.onQueue_dlinks (t : State) : (s.onQueue t).dlinks = s.dlinks := rfl
@[simp] theorem State.onQueue_parts (t : State) : (s.onQueue t).parts = s.parts := rfl
@[simp] theorem State.onQueue_arbs (t : State) : (s.onQueue t).arbs = s.arbs := rfl
@[simp] theorem State.onQueue_throttled (t : State) : (s.onQueue t).throttled = s.throttled := rfl
@[simp] theorem State.onQueue_volts (t : State) : (s.onQueue t).volts = s.volts := rfl
@[simp] theorem State.onQueue_fwWins (t : State) : (s.onQueue t).fwWins = s.fwWins := rfl
@[simp] theorem State.onQueue_oes (t : State) : (s.onQueue t).oes = s.oes := rfl
@[simp] theorem State.onQueue_ports (t : State) : (s.onQueue t).ports = s.ports := rfl
@[simp] theorem State.onQueue_reqs (t : State) : (s.onQueue t).reqs = s.reqs := rfl
@[simp] theorem State.onQueue_epochs (t : State) : (s.onQueue t).epochs = s.epochs := rfl
@[simp] theorem State.onQueue_partners (t : State) : (s.onQueue t).partners = s.partners := rfl
@[simp] theorem State.onQueue_transit (t : State) : (s.onQueue t).transit = s.transit := rfl
@[simp] theorem State.onQueue_rcache (t : State) : (s.onQueue t).rcache = s.rcache := rfl
@[simp] theorem State.onQueue_fctx (t : State) : (s.onQueue t).fctx = s.fctx := rfl
@[simp] theorem State.onQueue_rcopies (t : State) : (s.onQueue t).rcopies = s.rcopies := rfl
@[simp] theorem State.onQueue_colls (t : State) : (s.onQueue t).colls = s.colls := rfl
@[simp] theorem State.onQueue_swarms (t : State) : (s.onQueue t).swarms = s.swarms := rfl
@[simp] theorem State.onQueue_readys (t : State) : (s.onQueue t).readys = s.readys := rfl
@[simp] theorem State.onQueue_aborted (t : State) : (s.onQueue t).aborted = s.aborted := rfl
@[simp] theorem State.onQueue_session (t : State) : (s.onQueue t).session = s.session := rfl
@[simp] theorem State.onQueue_reduced (t : State) : (s.onQueue t).reduced = s.reduced := rfl
@[simp] theorem State.onQueue_bonds (t : State) : (s.onQueue t).bonds = s.bonds := rfl
@[simp] theorem State.onQueue_portA (t : State) : (s.onQueue t).portA = s.portA := rfl
@[simp] theorem State.onQueue_portB (t : State) : (s.onQueue t).portB = s.portB := rfl
@[simp] theorem State.onQueue_hreads (t : State) : (s.onQueue t).hreads = s.hreads := rfl
@[simp] theorem State.onQueue_hid (t : State) : (s.onQueue t).hid = s.hid := rfl
@[simp] theorem State.onQueue_lostQ (t : State) : (s.onQueue t).lostQ = s.lostQ := rfl
@[simp] theorem State.onQueue_fwq (t : State) : (s.onQueue t).fwq = s.fwq := rfl
@[simp] theorem State.onQueue_noteSeq (t : State) : (s.onQueue t).noteSeq = s.noteSeq := rfl
@[simp] theorem State.onQueue_cc (t : State) : (s.onQueue t).cc = s.cc := rfl
@[simp] theorem State.onQueue_evq (t : State) : (s.onQueue t).evq = s.evq := rfl
@[simp] theorem State.onQueue_i3c (t : State) : (s.onQueue t).i3c = s.i3c := rfl
@[simp] theorem State.onQueue_telem (t : State) : (s.onQueue t).telem = s.telem := rfl
@[simp] theorem State.onQueue_dimmIn (t : State) : (s.onQueue t).dimmIn = s.dimmIn := rfl
@[simp] theorem State.onQueue_dimmNext (t : State) : (s.onQueue t).dimmNext = s.dimmNext := rfl
@[simp] theorem State.onQueue_spdOut (t : State) : (s.onQueue t).spdOut = s.spdOut := rfl
@[simp] theorem State.onQueue_sens (t : State) : (s.onQueue t).sens = s.sens := rfl
@[simp] theorem State.onQueue_excl (t : State) : (s.onQueue t).excl = s.excl := rfl
@[simp] theorem State.onQueue_watch (t : State) : (s.onQueue t).watch = s.watch := rfl
@[simp] theorem State.onQueue_ticks (t : State) : (s.onQueue t).ticks = s.ticks := rfl
@[simp] theorem State.onQueue_cdclk (t : State) : (s.onQueue t).cdclk = s.cdclk := rfl
@[simp] theorem State.onQueue_ppr (t : State) : (s.onQueue t).ppr = s.ppr := rfl
@[simp] theorem State.onQueue_capHbm (t : State) : (s.onQueue t).capHbm = s.capHbm := rfl
@[simp] theorem State.onQueue_capHeld (t : State) : (s.onQueue t).capHeld = s.capHeld := rfl
@[simp] theorem State.onQueue_lostWhy (t : State) : (s.onQueue t).lostWhy = s.lostWhy := rfl
@[simp] theorem State.onQueue_cdHit (t : State) : (s.onQueue t).cdHit = s.cdHit := rfl
@[simp] theorem State.onQueue_cals (t : State) : (s.onQueue t).cals = s.cals := rfl
@[simp] theorem State.onQueue_cfg (t : State) : (s.onQueue t).cfg = s.cfg := rfl
@[simp] theorem State.onQueue_sec (t : State) : (s.onQueue t).sec = s.sec := rfl
@[simp] theorem State.onQueue_tap (t : State) : (s.onQueue t).tap = s.tap := rfl
@[simp] theorem State.onQueue_spdm (t : State) : (s.onQueue t).spdm = s.spdm := rfl
@[simp] theorem State.onQueue_fn0 (t : State) : (s.onQueue t).fn0 = s.fn0 := rfl
@[simp] theorem State.onQueue_fn1 (t : State) : (s.onQueue t).fn1 = s.fn1 := rfl
@[simp] theorem State.onQueue_ringA (t : State) : (s.onQueue t).ringA = s.ringA := rfl
@[simp] theorem State.onQueue_ringB (t : State) : (s.onQueue t).ringB = s.ringB := rfl
@[simp] theorem State.onQueue_coal (t : State) : (s.onQueue t).coal = s.coal := rfl
@[simp] theorem State.onQueue_nv (t : State) : (s.onQueue t).nv = s.nv := rfl
@[simp] theorem State.onQueue_out (t : State) : (s.onQueue t).out = s.out := rfl
@[simp] theorem State.onQueue_fresh (t : State) : (s.onQueue t).fresh = s.fresh := rfl

/-! What the updates write -/

@[simp] theorem State.drawn_fresh (n : Nat) : (s.drawn n).fresh = s.fresh + n := rfl
@[simp] theorem State.emit_out (o : Out) : (s.emit o).out = s.out ++ [o] := rfl
@[simp] theorem State.onQueue_pending (t : State) : (s.onQueue t).pending = t.pending := rfl
@[simp] theorem State.wr_mem (a : Nat) (b : List Byte) : (s.wr a b).mem = s.mem.wrN a b := rfl
@[simp] theorem State.hport_setHport (h : Half) (x : HPort) : (s.setHport h x).hport h = x := by cases h <;> rfl
@[simp] theorem State.fnst_setFnst (f : Fn) (x : FnSt) : (s.setFnst f x).fnst f = x := by cases f <;> rfl
@[simp] theorem State.ring_setRing (h : Half) (x : ErrRing) : (s.setRing h x).ring h = x := by cases h <;> rfl
@[simp] theorem State.onQueue_onQueue (t u : State) : (s.onQueue t).onQueue u = s.onQueue u := rfl
@[simp] theorem State.onQueue_self : s.onQueue s = s := rfl

end Sys2Proof.Machine
end

