-- ==== Sys2Proof/Tests/Slice0.lean ====
section
/-! SUPPORT. Smoke tests, and for each statement a witness that meets its hypotheses. -/

set_option linter.unusedVariables false
set_option Elab.async false

namespace Sys2Proof.Tests

open Sys2Proof.Machine

/-! ## Small states -/

/-- Reset, with every die up. -/
def upState : State := { State.reset with dies := (List.range 43).map (fun d => (d, DieSt.up)) }

/-- An instruction of opcode o with every other bit 0. -/
def opW (o : Nat) : Nat := o * 2 ^ 122

/-- Cell 5 of half A runs a part of partition 1 whose program, in scratch, starts with instruction w. -/
def testCell (w : Nat) : State :=
  let s := upState.setFs (.comb .A) [(R.comb.CC_CFG_SCRATCH_SEGS, 1), (R.comb.WIN_BASE_VALID.ix2 1 0, 1),
    (R.comb.WIN_LIMIT_LIMIT.ix2 1 0, 0x200000)]
  let s := (s.setF (.seq .A) (R.seq.PART_SEMS_SEM_CNT.ix 1) 256).setF (cellPage .A 5) R.cell.BLK_STS_STATE 3
  let s := s.setCell .A 5 { cellInit with ctx := some ⟨0, 0, 1, 0x20000000000, 9, 0, 0⟩, sregs := [(1, 0x20000000000), (3, 1)] }
  s.wr 0x20000000000 (bytesOf 16 w)

/-- The keeper is ready and a bring-up is due. -/
def bootable : State :=
  let s := { State.reset with dies := [(0, DieSt.up)], pins := { State.reset.pins with vAon := true, vin48 := true, por := false, edge := true, sampled := true } }
  (s.setDstate 1).setF .keeper R.keeper.BOOT_STS_PHASE 1

/-- The complex votes with three channels. -/
def ccState : State := (((upState.setChan .ca 1).setChan .cb 1).setChan .ck 1).setMode 1

/-- Both PCIe links are up and their functions enabled; A is the queen. -/
def pcieState : State :=
  let s := (upState.setF (.pcie .A) R.pcie.LINK_STS_DL_UP 1).setF (.pcie .B) R.pcie.LINK_STS_DL_UP 1
  { s with pins := { s.pins with perstA := false, perstB := false }, fn0 := { s.fn0 with bme := true, mse := true },
           fn1 := { s.fn1 with bme := true, mse := true } }

/-- A request of code op and length n waits in IN of pair i; its body starts with the words l. -/
def reqIn (i op n : Nat) (l : List Nat) (s : State) : State :=
  let p := mbxPage (Fin.ofNat 48 i)
  let s := s.setFs p [(R.mbx.IN_SLOT_DATA.ix 0, op), (R.mbx.IN_SLOT_DATA.ix 1, n * 65536), (R.mbx.MBX_STS_IN_FULL, 1)]
  foldOver ((List.range l.length).zip l) (fun e (s : State) => s.setF p (R.mbx.IN_SLOT_DATA.ix (2 + e.1)) e.2) s

/-- Queue 3 of half A is ACTIVE in partition 0; its ring, in scratch, holds descriptor w in slot 0. -/
def testQueue (w : Nat) : State :=
  let s := upState.setFs (.comb .A) [(R.comb.CC_CFG_SCRATCH_SEGS, 1), (R.comb.WIN_BASE_VALID.ix2 0 0, 1), (R.comb.WIN_LIMIT_LIMIT.ix2 0 0, 0x200000)]
  let s := s.setFs (.seq .A) [(R.seq.PART_QUEUES_Q_CNT.ix 0, 16), (R.seq.PART_SEMS_SEM_CNT.ix 0, 1), (R.seq.PART_CELLS_CELL_CNT.ix 0, 4),
    (R.seq.BLK_STS_STATE, 1)]
  let s := s.setFs (cellPage .A 0) [(R.cell.CELL_ID_MAPPED, 1), (R.cell.BLK_STS_STATE, 2)]
  let s := s.setQueue .A 3 { qInit with st := qACTIVE, tail := 1, ctx := { qInit.ctx with dring := 0x20000000000, cring := 0x20000001000, dlog := 4, clog := 4 } }
  s.wr 0x20000000000 (bytesOf 128 w)

/-- A queue whose state is st, with descriptor d in flight. -/
def flyQueue (st : Nat) (d : List Desc) : State :=
  (testQueue 0).setQueue .A 3 { (testQueue 0).queue .A 3 with st := st, fly := d, next := 1 }


/-- A COLLECTIVE of operation op over n FP32 elements, swarm 0, from 0x20000003000 to 0x20000004000. -/
def collWord (op n : Nat) : Nat := 4 + 2 ^ 144 * op + 2 ^ 192 * 0x20000003000 + 2 ^ 256 * 0x20000004000 + 2 ^ 320 * n

/-- Queue 3 of half A is about to dispatch such a COLLECTIVE; the swarm has the members 5, of rank 0, and 7, the entry names the first only. -/
def collState (fid op n : Nat) : State :=
  let s := (testQueue (collWord op n)).setFs (.comb .A) [(R.comb.PF_TAG_VALID.ix 0, 1), (R.comb.PF_SWARM_CNT.ix 0, 1), (R.comb.FAB_ID_VALID, 1),
    (R.comb.FAB_ID_FID, fid)]
  let s := (s.wr 0x20000005000 (bytesOf 64 (1 + 2 ^ 32 * 0x20000006000))).wr 0x20000006000 [5, 0, 7, 0]
  { s with fctx := [(0, { fctxInit with raw := 2 ^ 256 * 0x20000005000 })] }

/-- Port 17 of half A, of OE 2. -/
def p17 : PortId := ⟨.A, 17⟩

/-- OE 2 of half A is ACTIVE with its data lasers lit; its port 17 is open, its link UP with the first 16 channels both ways. -/
def oeState : State :=
  let s := (upState.setF (.oe .A 2) R.oe.BLK_STS_PSTATE 3).setFs p17.page [(R.oport.BLK_STS_OSTATE, 3), (R.oport.LINK_STS_LSTATE, 2),
    (R.oport.PORT_STS_CH_TX, 0xFFFF), (R.oport.PORT_RX_CH_RX, 0xFFFF)]
  s.setFs (.laser .A 2) [(R.laser.LSR_STATE.ix 0, 3), (R.laser.LSR_STATE.ix 1, 3)]

/-- OE 2 hands laser 1 over; port 17 moves to spare 16. -/
def moveState (st : MoveSt) : State :=
  oeState.setOe .A 2 { oeState.oe .A 2 with ho := some { n := 1, port := none, moves := [{ port := 17, spare := 16, st := st }] } }

/-- The device has FID 5; its neighbour on port 17 is FID 7, an ACTIVE partner; both have partition tag 3. -/
def fabState : State :=
  let s := (testQueue 0).setFs (.comb .A) [(R.comb.FAB_ID_VALID, 1), (R.comb.FAB_ID_FID, 5), (R.comb.PF_TAG_VALID.ix 0, 1), (R.comb.PF_TAG_TAG.ix 0, 3),
    (R.comb.PF_PORTS_PORTS.ix2 0 0, 0xFFFFFFFF)]
  let s := ((s.setF (.seq .A) (R.seq.PART_CTL_STATE.ix 0) 1).setF (.oe .A 2) R.oe.BLK_STS_PSTATE 3).setL p17 2
  { s with
    partners := [(0, { fid := 7, uid := 9, session := 1, cls := 0, caps := 0xFF, tags := [3], ver := 0x12, st := 2, ports := [17], used := 0 })]
    transit := [(7, [128 + 17, 0, 0, 0])] }

/-- A request of FID 7 to FID 5, tag 4, with partition tag 3. -/
def reqMsg (opc len addr : Nat) (data : List Byte) : ReqMsg :=
  { reqOf opc 5 addr len 0 false data with sfid := 7, tag := 4, stag := 3 }

/-- A response of FID 7 to FID 5's request with tag 4. -/
def rspMsg (opc : Nat) (data : List Byte) : RspMsg :=
  { opc := BitVec.ofNat 8 opc, dfid := 5, sfid := 7, tag := 4, dup := false, epoch := 1, len := BitVec.ofNat 8 data.length, status := 0, retry := false,
    hops := 8, rsvd := 0, data := data }

/-- A fabric command of partition 0 waits for the response to tag 4. -/
def askState (opc : Nat) (retry : Bool) : State :=
  { fabState with reqs := [(4, { msg := { reqMsg opc 8 0x20000003000 [] with dfid := 7, sfid := 5, epoch := 1, len := 8 }, part := 0, owner := .cmd .A 0 0,
                                 port := some 17, touched := false, retry := retry })] }

/-- The waggle of FID 7. -/
def wag7 (kind reason : Nat) : Waggle :=
  { kind := BitVec.ofNat 8 kind, cls := 1, fid := 7, uid := 9, session := 1, vmin := 0x10, vmax := 0x12, caps := 0xFF, ntag := 1,
    reason := BitVec.ofNat 8 reason, port := 17, tags := [3] }

/-- Swarm 0's collective 0 runs on queue 3 of half A: two members, FIDs 5 and 7, an all-gather of two FP32 elements. -/
def collRun : State :=
  { fabState with colls := [{ half := .A, q := 3, slot := 0, part := 0, raw := collWord 2 2, rank := 0, fids := [5, 7], going := true, ready := [], got := [],
                              hold := [], free := 0, bytes := 0 }] }

/-- A message of FID 7 in that collective. -/
def collMsg7 (opc : Nat) (data : List Byte) : CollMsg :=
  { opc := BitVec.ofNat 8 opc, dfid := 5, sfid := 7, swarm := 0, cseq := 0, step := 0, offset := 2, len := BitVec.ofNat 8 data.length, hops := 8, op := 2,
    dtype := 0, rfn := 0, rsvd := 0, data := data }

/-- BAR2 of function 0 shows the scratch of half A. -/
def bar2State : State :=
  ((pcieState.setF (.comb .A) R.comb.CC_CFG_SCRATCH_SEGS 1).setF (.pcie .A) R.pcie.BAR2_BASE_HI_ADDR 0x200).setF (.pcie .A) R.pcie.BAR2_SIZE_LOG2 28

/-- A DOE object waits in the mailbox of function 0, on a connection of stage n. -/
def spdmState (n : Nat) : State :=
  ({ pcieState with fn0 := { pcieState.fn0 with doe := some [1] }, sec := { pcieState.sec with rom := false } }).setStage (.doe .f0) n

/-- The keeper has its I3C address. -/
def i3cState : State := upState.setF .ck R.ctrlch.MGMT_ADDR_DA_VALID 1

/-- The hypotheses of Obligations.CellScalarInstructions can be met, those of each clause in turn. -/
theorem test_witness_CellScalarInstructions :
    (issues 0x00 (testCell 0) .A 5 .none ∧ (issOf (testCell 0) .A 5 .none).ten = false ∧ bits (issOf (testCell 0) .A 5 .none).w 100 0 = 0) ∧
  (let w := opW 0x28 + 3 * 2 ^ 96 + 12 * 2 ^ 82
   issues 0x28 (testCell w) .A 5 .none ∧ (issOf (testCell w) .A 5 .none).w = w) ∧
  (let w := opW 0x29 + 0 * 2 ^ 96 + 77
   issues 0x29 (testCell w) .A 5 .none ∧ (issOf (testCell w) .A 5 .none).w = w) ∧
  (let w := opW 0x2A + 31 * 2 ^ 96 + 8 * 2 ^ 69
   issues 0x2A (testCell w) .A 5 .none ∧ (issOf (testCell w) .A 5 .none).w = w ∧ readsClean (testCell w) .A 5 .none) ∧
  (let w := opW 0x2B + 31 * 2 ^ 96 + 56 * 2 ^ 69
   issues 0x2B (testCell w) .A 5 .none ∧ (issOf (testCell w) .A 5 .none).w = w) ∧
  (let w := opW 0x2C + 1 * 2 ^ 96 + 2 * 2 ^ 92
   issues 0x2C (testCell w) .A 5 .none ∧ (issOf (testCell w) .A 5 .none).w = w) := by decide

/-- The hypotheses of Obligations.CellControlInstructions can be met, those of each clause in turn. -/
theorem test_witness_CellControlInstructions :
    (let w := opW 0x30 + 5 * 2 ^ 76 + 2 * 2 ^ 64
   issues 0x30 (testCell w) .A 5 .none ∧ (issOf (testCell w) .A 5 .none).w = w) ∧
  (let w := opW 0x31 + 6 * 2 ^ 88 + 3 * 2 ^ 68
   issues 0x31 (testCell w) .A 5 .none ∧ (issOf (testCell w) .A 5 .none).w = w) ∧
  (let w := opW 0x33
   issues 0x33 (testCell w) .A 5 .none ∧ (issOf (testCell w) .A 5 .none).w = w ∧ unitsIdle (issOf (testCell w) .A 5 .none).x = true) ∧
  (let w := opW 0x38 + 255 * 2 ^ 85 + 7 * 2 ^ 53 + 1 * 2 ^ 51
   issues 0x38 (testCell w) .A 5 .none ∧ (issOf (testCell w) .A 5 .none).w = w ∧ (fetched (testCell w) .A 5).semIn .A 1 255 = true) ∧
  (let w := opW 0x39 + 255 * 2 ^ 85 + 7 * 2 ^ 53
   issues 0x39 (testCell w) .A 5 .none ∧ (issOf (testCell w) .A 5 .none).w = w ∧ (fetched (testCell w) .A 5).semIn .A 1 255 = true) ∧
  (let w := opW 0x3A + 2 * 2 ^ 99
   issues 0x3A (testCell w) .A 5 .none ∧ (issOf (testCell w) .A 5 .none).w = w) := by decide

/-- The hypotheses of Obligations.CellVectorInstructions can be met, those of each clause in turn. -/
theorem test_witness_CellVectorInstructions :
    (let w := opW 0x15 + 0 * 2 ^ 80 + 64 * 2 ^ 59 + 128 * 2 ^ 38
   issues 0x15 (testCell w) .A 5 .none ∧ (issOf (testCell w) .A 5 .none).w = w ∧ readsClean (testCell w) .A 5 .none ∧
   badOverlap 0 16 64 16 = false ∧ vecFmt 0 = true ∧ vecLines 0 256 = 16) ∧
  (let w := opW 0x10 + 13 * 2 ^ 18 + 2 * 2 ^ 16 + 64 * 2 ^ 59
   issues 0x10 (testCell w) .A 5 .none ∧ (issOf (testCell w) .A 5 .none).w = w) ∧
  (let w := opW 0x11 + 13 * 2 ^ 18 + 1 * 2 ^ 16 + 64 * 2 ^ 59 + 128 * 2 ^ 38
   issues 0x11 (testCell w) .A 5 .none ∧ (issOf (testCell w) .A 5 .none).w = w) ∧
  (let w := opW 0x12 + 64 * 2 ^ 59 + 128 * 2 ^ 38
   issues 0x12 (testCell w) .A 5 .none ∧ (issOf (testCell w) .A 5 .none).w = w) ∧
  (let w := opW 0x13 + 64 * 2 ^ 59 + 128 * 2 ^ 38
   issues 0x13 (testCell w) .A 5 .none ∧ (issOf (testCell w) .A 5 .none).w = w) ∧
  (let w := opW 0x14 + 64 * 2 ^ 59 + 128 * 2 ^ 38
   issues 0x14 (testCell w) .A 5 .none ∧ (issOf (testCell w) .A 5 .none).w = w) ∧
  (let w := opW 0x16 + 65520 * 2 ^ 80 + 0x3F800000 * 2 ^ 28
   issues 0x16 (testCell w) .A 5 .none ∧ (issOf (testCell w) .A 5 .none).w = w) ∧
  (let w := opW 0x17 + 64 * 2 ^ 59 + 9 * 2 ^ 35
   issues 0x17 (testCell w) .A 5 .none ∧ (issOf (testCell w) .A 5 .none).w = w ∧ readsClean (testCell w) .A 5 .none) ∧
  (let w := opW 0x18 + 2048 * 2 ^ 59
   issues 0x18 (testCell w) .A 5 .none ∧ (issOf (testCell w) .A 5 .none).w = w ∧ overlap 0 (vecLines 0 16384) 2048 (vecLines 0 16384) = false) ∧
  (let w := opW 0x1C + 64 * 2 ^ 59 + 0 * 2 ^ 39 + 1 * 2 ^ 35
   issues 0x1C (testCell w) .A 5 .none ∧ (issOf (testCell w) .A 5 .none).w = w ∧ fmtOk 0 = true ∧ fmtOk 1 = true ∧ isBlock 1 = false) ∧
  (let w := opW 0x1D + 64 * 2 ^ 59 + 0 * 2 ^ 39 + 7 * 2 ^ 35
   issues 0x1D (testCell w) .A 5 .none ∧ (issOf (testCell w) .A 5 .none).w = w ∧ isBlock 7 = true ∧ overlap 0 (flatLines 7 1) 64 (flatLines 0 1) = false) ∧
  (let w := opW 0x20 + 64 * 2 ^ 59 + 3 * 2 ^ 39 + 2 ^ 38
   issues 0x20 (testCell w) .A 5 .none ∧ (issOf (testCell w) .A 5 .none).w = w ∧ badOverlap 0 (linesFor 512) 64 8 = false) := by decide

/-- The hypotheses of Obligations.CellMatrixInstruction can be met, those of each clause in turn. -/
theorem test_witness_CellMatrixInstruction :
    (let w := opW 0x01 + 2048 * 2 ^ 80 + 4096 * 2 ^ 59 + 0 * 2 ^ 38 + 3 * 2 ^ 34 + 3 * 2 ^ 30 + 2 ^ 17
   issues 0x01 (testCell w) .A 5 .none ∧ (issOf (testCell w) .A 5 .none).w = w ∧ (pairWindow 3 3).isSome = true ∧
   overlap 0 1024 2048 (mmaLines 3 false 128) = false ∧ readsClean (testCell w) .A 5 .none ∧
   (fetched (testCell w) .A 5).armed (cellPage .A 5) 11 = false) := by decide

/-- The hypotheses of Obligations.CellMemoryInstructions can be met, those of each clause in turn. -/
theorem test_witness_CellMemoryInstructions :
    (let w := opW 0x05 + 65535 * 2 ^ 80 + 1 * 2 ^ 75
   issues 0x05 (testCell w) .A 5 .none ∧ (issOf (testCell w) .A 5 .none).w = w ∧ readsClean (testCell w) .A 5 .none ∧
   (issOf (testCell w) .A 5 .none).badRow (fetched (testCell w) .A 5) 64 [0x20000000000] = none) ∧
  (let w := opW 0x04 + 1 * 2 ^ 75
   issues 0x04 (testCell w) .A 5 .none ∧ (issOf (testCell w) .A 5 .none).w = w ∧
   ((issOf (testCell w) .A 5 .none).loadRows 0 64 [0x20000000000] (fetched (testCell w) .A 5)).2.1 = false) ∧
  (let w := opW 0x06 + 1 * 2 ^ 54
   issues 0x06 (testCell w) .A 5 .none ∧ (issOf (testCell w) .A 5 .none).w = w ∧ readsClean (testCell w) .A 5 .none) ∧
  (let w := opW 0x09 + 1 * 2 ^ 54 + 2 * 2 ^ 6
   issues 0x09 (testCell w) .A 5 .none ∧ (issOf (testCell w) .A 5 .none).w = w ∧ readsClean (testCell w) .A 5 .none) ∧
  (let w := opW 0x07 + 3 * 2 ^ 96
   issues 0x07 (testCell w) .A 5 .none ∧ (issOf (testCell w) .A 5 .none).w = w) ∧
  (let w := opW 0x08 + 65535 * 2 ^ 80
   issues 0x08 (testCell w) .A 5 .none ∧ (issOf (testCell w) .A 5 .none).w = w) := by decide

/-- The hypotheses of Obligations.SupplyAndStrapCommands can be met, those of each clause in turn. -/
theorem test_witness_SupplyAndStrapCommands :
  ((fun (k : KeeperStart) (s : State) =>
    (s.pins.vAon = false)) ⟨none, true⟩ State.reset) ∧
  ((fun (s : State) =>
    (s.railsUp = false)) State.reset) ∧
  ((fun (s : State) =>
    (s.railsUp)) (upState.setDstate 2)) ∧
  ((fun (s : State) =>
    (s.pins.por)) State.reset) ∧
  ((fun (s : State) =>
    (s.pins.vAon) ∧ (s.pins.por = false) ∧ (s.pins.sampled = false)) { upState with pins := { upState.pins with vAon := true, por := false } }) ∧
  ((fun (level : Bool) (s : State) =>
    (s.pins.vAon)) true { upState with pins := { upState.pins with vAon := true } }) ∧
  ((fun (level : Bool) (s : State) =>
    (s.pins.vAon = false)) true State.reset) ∧
  ((fun (s : State) =>
    (s.railsUp)) (upState.setDstate 3)) ∧
  ((fun (s : State) =>
    (s.railsUp)) (upState.setDstate 3)) ∧
  ((fun (s : State) =>
    (s.railsUp)) (upState.setDstate 3)) ∧
  ((fun (s : State) =>
    (s.railsUp) ∧ (s.halted = false) ∧ (s.draining = false)) (upState.setDstate 2)) ∧
  ((fun (s : State) =>
    (s.railsUp) ∧ (s.halted)) ((upState.setDstate 2).setF .ck R.ctrlch.CC_STS_MODE 4)) ∧
  ((fun (s : State) =>
    (s.draining)) (upState.setDstate 4)) ∧
  ((fun (s : State) =>
    (s.die 0 = .up)) upState) := by
  refine ⟨?_, ?_, ?_, ?_, ?_, ?_, ?_, ?_, ?_, ?_, ?_, ?_, ?_, ?_⟩ <;> (beta_reduce; decide +kernel)

/-- The hypotheses of Obligations.BringUp can be met, those of each clause in turn. -/
theorem test_witness_BringUp :
  ((fun (o : BringUpObs) (s : State) =>
    (s.mayStart)) ⟨⟨true, [], true, true, [], [], [], [], [], [], [], [], [], []⟩, ⟨true, [], true, true, [], [], [], [], [], [], [], [], [], []⟩, true, []⟩ bootable) ∧
  ((fun (s : State) =>
    (s.reduced)) { upState with reduced := true }) := by
  refine ⟨?_, ?_⟩ <;> (beta_reduce; decide +kernel)

/-- The hypotheses of Obligations.ClockCommands can be met, those of each clause in turn. -/
theorem test_witness_ClockCommands :
  ((fun (h : Half) (q : Fin 4) (s : State) =>
    (s.answers (.clk h)) ∧ (s.die (dieCd h q.val) = .up) ∧ (s.getF (.clk h) (R.clk.CEIL_MHZ.ix q.val) < s.ceilOf h q.val) ∧ (15 ≤ (s.cd h q.val).rise)) .A 0 upState) ∧
  ((fun (h : Half) (q : Fin 4) (s : State) =>
    (s.answers (.clk h)) ∧ (s.die (dieCd h q.val) = .up) ∧ (s.ceilOf h q.val ≤ s.getF (.clk h) (R.clk.CEIL_MHZ.ix q.val)) ∧ ((s.cd h q.val).rise < 15)) .A 0 ((upState.setF (.clk .A) (R.clk.CEIL_MHZ.ix 0) 2000).setCd .A 0 { cdInit with rise := 0 })) ∧
  ((fun (m : Master) (h : Half) (value : Word) (s : State) =>
    (s.reaches m) ∧ (s.answers (.clk h)) ∧ (600 ≤ bits value.toNat 10 0) ∧ (bits value.toNat 10 0 ≤ 1500) ∧ (bits value.toNat 10 0 % 10 = 0)) .cc .A 900#32 upState) ∧
  ((fun (m : Master) (h : Half) (value : Word) (s : State) =>
    (s.reaches m) ∧ (s.answers (.clk h)) ∧ (bits value.toNat 10 0 < 600 ∨ 1500 < bits value.toNat 10 0 ∨ bits value.toNat 10 0 % 10 ≠ 0)) .cc .A 599#32 upState) ∧
  ((fun (m : Master) (value : Word) (s : State) =>
    (s.reaches m) ∧ (s.answers .gPwr) ∧ (1500 ≤ value.toNat % 65536) ∧ (value.toNat % 65536 ≤ 5200) ∧ (s.ccLive = true) ∧ (s.draining = false)) .cc 1500#32 (upState.setF .ck R.ctrlch.CC_STS_MODE 1)) ∧
  ((fun (m : Master) (value : Word) (s : State) =>
    (s.reaches m) ∧ (s.answers .gPwr) ∧ (1500 ≤ value.toNat % 65536) ∧ (value.toNat % 65536 ≤ 5200) ∧ (s.ccLive = false ∨ s.draining = true)) .cc 1500#32 (upState.setDstate 4)) ∧
  ((fun (o : CapObs) (s : State) =>
    (s.die 0 = .up) ∧ (2 ≤ s.dstate)) ⟨100, 50, 50, 10⟩ (upState.setDstate 2)) ∧
  ((fun (s : State) =>
    (s.answers .gPwr) ∧ (s.halfUp .A) ∧ (s.hbmLimit .A = 5) ∧ (s.getF (.pwr .A) R.pwrH.SHARE_LOAD_W > s.getF (.pwr .A) R.pwrH.SHARE_SHARE_W)) ((upState.setHbmLimit .A 5).setFs (.pwr .A) [(R.pwrH.SHARE_LOAD_W, 9), (R.pwrH.SHARE_SHARE_W, 8)])) ∧
  ((fun (d : DomRef) (toOff : Bool) (s : State) =>
    (s.answers (.clk d.half)) ∧ (s.dom d.half d.k.val = 2) ∧ (d.k.val < 4) ∧ (s.dieBusy d.half d.k.val = false)) ⟨.A, 0⟩ true (upState.setDom .A 0 2)) ∧
  ((fun (d : DomRef) (toOff : Bool) (s : State) =>
    (s.answers (.clk d.half)) ∧ (s.dom d.half d.k.val = 2) ∧ (8 ≤ d.k.val) ∧ (d.k.val < 28) ∧ (toOff = false)) ⟨.A, 8⟩ false (upState.setDom .A 8 2)) ∧
  ((fun (d : DomRef) (toOff : Bool) (s : State) =>
    (s.answers (.clk d.half)) ∧ (s.dom d.half d.k.val = 2 ∨ s.dom d.half d.k.val = 1) ∧ (28 ≤ d.k.val) ∧ (d.k.val < 36) ∧ (s.pstate d.half (Fin.ofNat 8 (d.k.val - 28)) = 0) ∧ (toOff = true)) ⟨.A, 28⟩ true ((upState.setDom .A 28 2).setF (.oe .A 0) R.oe.BLK_STS_PSTATE 0)) ∧
  ((fun (d : DomRef) (s : State) =>
    (s.answers (.clk d.half)) ∧ (s.dom d.half d.k.val ≤ 1)) ⟨.A, 0⟩ upState) ∧
  ((fun (s : State) =>
    (s.dstate = 3) ∧ (s.working = false)) (upState.setDstate 3)) ∧
  ((fun (h : Half) (s : State) =>
    (s.answers (.clk h))) .A upState) ∧
  ((fun (h : Half) (s : State) =>
    (s.refOn h = false) ∧ (s.halfUp h = true ∨ s.die (dieComb h) = .fenced)) .A upState) := by
  refine ⟨?_, ?_, ?_, ?_, ?_, ?_, ?_, ?_, ?_, ?_, ?_, ?_, ?_, ?_, ?_⟩ <;> (beta_reduce; decide +kernel)

/-- The hypotheses of Obligations.DomainFaultsAndHalfReturn can be met, those of each clause in turn. -/
theorem test_witness_DomainFaultsAndHalfReturn :
  ((fun (e : PllEvent) (s : State) =>
    (s.answers (.clk e.dom.half)) ∧ (s.dom e.dom.half e.dom.k.val ≠ 0)) ⟨⟨.A, 8⟩, []⟩ (upState.setDom .A 8 2)) ∧
  ((fun (h : Half) (e : RailEvent) (s : State) =>
    (s.answers (.pwr h)) ∧ (e.rail.val < 4)) .A ⟨0, []⟩ upState) ∧
  ((fun (h : Half) (e : RailEvent) (s : State) =>
    (s.answers (.pwr h)) ∧ (e.rail.val = 4 ∨ e.rail.val = 9)) .A ⟨9, []⟩ upState) ∧
  ((fun (h : Half) (e : RailEvent) (s : State) =>
    (s.answers (.pwr h)) ∧ (e.rail.val = 5 ∨ e.rail.val = 6)) .A ⟨6, []⟩ upState) ∧
  ((fun (h : Half) (e : RailEvent) (s : State) =>
    (s.answers (.pwr h)) ∧ (e.rail.val = 7)) .A ⟨7, []⟩ upState) ∧
  ((fun (h : Half) (e : RailEvent) (s : State) =>
    (s.answers (.pwr h)) ∧ (e.rail.val = 8)) .A ⟨8, []⟩ upState) ∧
  ((fun (h : Half) (o : HalfObs) (s : State) =>
    (s.die 0 = .up) ∧ (s.whyLost h = 1) ∧ (s.refOn h) ∧ (o.refclk) ∧ (s.autoCount h < 2)) .A ⟨true, [], true, true, [], [], [], [], [], [], [], [], [], []⟩ { upState with lostWhy := [(0, 1)], pins := { upState.pins with refA := true } }) ∧
  ((fun (m : Master) (o : HalfObs) (s : State) =>
    (s.reaches m) ∧ (s.answers .keeper) ∧ (s.halted = false) ∧ (s.halfUp .A = false) ∧ (s.whyLost .A ≠ 0)) .cc ⟨true, [], true, true, [], [], [], [], [], [], [], [], [], []⟩ { upState.setDie (dieComb .A) .lost with lostWhy := [(0, 1)] }) ∧
  ((fun (m : Master) (o : HalfObs) (s : State) =>
    (s.reaches m) ∧ (s.answers .keeper) ∧ (s.halted = false) ∧ (s.halfUp .B = false) ∧ (s.whyLost .B ≠ 0)) .cc ⟨true, [], true, true, [], [], [], [], [], [], [], [], [], []⟩ { upState.setDie (dieComb .B) .lost with lostWhy := [(1, 1)] }) ∧
  ((fun (m : Master) (o : HalfObs) (s : State) =>
    (s.reaches m) ∧ (s.answers .keeper) ∧ (s.halted = true ∨ s.halfUp .A = true ∨ s.whyLost .A = 0)) .cc ⟨true, [], true, true, [], [], [], [], [], [], [], [], [], []⟩ upState) ∧
  ((fun (m : Master) (o : HalfObs) (s : State) =>
    (s.reaches m) ∧ (s.answers .keeper) ∧ (s.halted = true ∨ s.halfUp .B = true ∨ s.whyLost .B = 0)) .cc ⟨true, [], true, true, [], [], [], [], [], [], [], [], [], []⟩ upState) := by
  refine ⟨?_, ?_, ?_, ?_, ?_, ?_, ?_, ?_, ?_, ?_, ?_⟩ <;> (beta_reduce; decide +kernel)

/-- The hypotheses of Obligations.CalibrationCommands can be met, those of each clause in turn. -/
theorem test_witness_CalibrationCommands :
  ((fun (o : CalObs) (s : State) =>
    (s.answers (.gCal)) ∧ (s.isSet (.gCal) R.cal.CAL_CTL_HOLD = false)) ⟨true, false, 3, 100, 5⟩ upState) ∧
  ((fun (o : CalObs) (s : State) =>
    (s.answers (.gCal)) ∧ (s.isSet (.gCal) R.cal.CAL_CTL_HOLD = false) ∧ (s.halted = false)) ⟨true, false, 3, 100, 5⟩ upState) ∧
  ((fun (i : Fin 12) (o : CalObs) (s : State) =>
    (s.answers (.gCal)) ∧ (s.isSet (.gCal) R.cal.CAL_CTL_HOLD = false) ∧ (s.halted = false)) 3 ⟨true, false, 3, 100, 5⟩ upState) ∧
  ((fun (o : CalObs) (s : State) =>
    (s.answers (.gCal)) ∧ (s.isSet (.gCal) R.cal.CAL_CTL_HOLD = false) ∧ (s.halted = false)) ⟨true, false, 3, 100, 5⟩ upState) ∧
  ((fun (h : Half) (o : CalObs) (s : State) =>
    (s.answers (.cal h)) ∧ (s.isSet (.cal h) R.cal.CAL_CTL_HOLD = false) ∧ (s.halfUp h)) .A ⟨true, false, 3, 100, 5⟩ upState) ∧
  ((fun (h : Half) (o : CalObs) (s : State) =>
    (s.answers (.cal h)) ∧ (s.isSet (.cal h) R.cal.CAL_CTL_HOLD = false) ∧ (s.halted = false) ∧ (s.halfUp h)) .A ⟨true, false, 3, 100, 5⟩ upState) ∧
  ((fun (h : Half) (b : Fin 16) (o : CalObs) (s : State) =>
    (s.answers (.cal h)) ∧ (s.isSet (.cal h) R.cal.CAL_CTL_HOLD = false) ∧ (s.halted = false) ∧ (s.bundleUp (Fin.ofNat 16 b.val))) .A 2 ⟨true, false, 3, 100, 5⟩ (upState.setBundle 2 hgFULL)) ∧
  ((fun (h : Half) (k : Fin 32) (o : CalObs) (s : State) =>
    (s.answers (.cal h)) ∧ (s.isSet (.cal h) R.cal.CAL_CTL_HOLD = false) ∧ (s.halted = false) ∧ (s.dlState (.ucie h (Fin.ofNat 32 k.val)) = ucACTIVE)) .A 2 ⟨true, false, 3, 100, 5⟩ (upState.setF (.ucie .A 2) R.dlink.BLK_STS_STATE ucACTIVE)) ∧
  ((fun (h : Half) (c : Fin 8) (o : CalObs) (s : State) =>
    (s.answers (.cal h)) ∧ (s.getF (ddrPage h c.val) R.ddrc.BLK_STS_STATE = 2)) .A 2 ⟨true, false, 3, 100, 5⟩ (upState.setF (ddrPage .A 2) R.ddrc.BLK_STS_STATE 2)) ∧
  ((fun (h : Half) (i : Fin 12) (ch : Fin 32) (o : CalObs) (s : State) =>
    (s.answers (.cal h)) ∧ (s.getF (hbmPage h ((32 * i.val + ch.val) / 32)) R.hbmc.BLK_STS_STATE = 3)) .A 2 5 ⟨true, false, 3, 100, 5⟩ (upState.setF (hbmPage .A 2) R.hbmc.BLK_STS_STATE 3)) ∧
  ((fun (p : PortId) (o : CalObs) (bad : BitVec 36) (s : State) =>
    (s.answers (.cal p.half)) ∧ (s.isSet (.cal p.half) R.cal.CAL_CTL_HOLD = false) ∧ (s.halted = false) ∧ (s.calReady (.cal p.half) 0x16 p.i.val)) ⟨.A, 3⟩ ⟨true, false, 3, 100, 5⟩ 7 ((upState.setL ⟨.A, 3⟩ 2).setO ⟨.A, 3⟩ 3)) ∧
  ((fun (p : Page) (id : BitVec 8) (inst : BitVec 9) (s : State) =>
    (s.answers p) ∧ (calHeld p id.toNat inst.toNat)) .gCal 1#8 0#9 upState) ∧
  ((fun (m : Master) (o : CalObs) (s : State) =>
    (s.reaches m) ∧ (s.answers .gCal) ∧ (s.isSet .gCal R.cal.CAL_CTL_HOLD = false) ∧ (s.getF .gCal R.cal.CAL_SEL_ID = 1) ∧ (s.getF .gCal R.cal.CAL_SEL_INST = 0)) .cc ⟨true, false, 3, 100, 5⟩ (upState.setF .gCal R.cal.CAL_SEL_ID 1)) ∧
  ((fun (m : Master) (h : Half) (o : CalObs) (s : State) =>
    (s.reaches m) ∧ (s.answers (.cal h)) ∧ (s.isSet (.cal h) R.cal.CAL_CTL_HOLD = false) ∧ (calHeld (.cal h) (s.getF (.cal h) R.cal.CAL_SEL_ID) (s.getF (.cal h) R.cal.CAL_SEL_INST)) ∧ (s.getF (.cal h) R.cal.CAL_SEL_ID ≠ 0x17) ∧ (s.calReady (.cal h) (s.getF (.cal h) R.cal.CAL_SEL_ID) (s.getF (.cal h) R.cal.CAL_SEL_INST)) ∧ (s.halted = false)) .cc .A ⟨true, false, 3, 100, 5⟩ (upState.setF (.cal .A) R.cal.CAL_SEL_ID 0x10)) ∧
  ((fun (m : Master) (h : Half) (o : CalObs) (s : State) =>
    (s.reaches m) ∧ (s.answers (.cal h)) ∧ (s.isSet (.cal h) R.cal.CAL_CTL_HOLD = true ∨ s.getF (.cal h) R.cal.CAL_SEL_ID = 0x17)) .cc .A ⟨true, false, 3, 100, 5⟩ (upState.setF (.cal .A) R.cal.CAL_SEL_ID 0x17)) := by
  refine ⟨?_, ?_, ?_, ?_, ?_, ?_, ?_, ?_, ?_, ?_, ?_, ?_, ?_, ?_, ?_⟩ <;> (beta_reduce; decide +kernel)

/-- The hypotheses of Obligations.CalibrationOutcomes can be met, those of each clause in turn. -/
theorem test_witness_CalibrationOutcomes :
  (upState.armed .gCal 8 = false ∧ calNeedsRef 2) ∧ (upState.armed .gCal 8 = false ∧ calNeedsRef 0x10 = false ∧ calMeets 0x10 6000 = false) ∧ calMeets 0x10 5000 ∧
    calMeets 0x01 (-2000) ∧ calMeets 0x12 76 = false ∧ calMeets 0x12 77 := by decide

/-- The hypotheses of Obligations.StoresAndJournal can be met, those of each clause in turn. -/
theorem test_witness_StoresAndJournal :
  ((fun (set : Fin 8) (body : List Byte) (o : StoreObs) (s : State) =>
    (s.keeperRuns) ∧ (1 ≤ set.val) ∧ (set.val ≤ 6) ∧ (body ≠ []) ∧ (body.length ≤ 65216)) 2 [1, 2] ⟨false, false⟩ upState) ∧
  ((fun (m : Master) (value : Word) (o : StoreObs) (s : State) =>
    (s.reaches m) ∧ (s.answers .keeper) ∧ (s.keeperRuns) ∧ ((o.firstTry && o.secondTry) = false)) .cc 3#32 ⟨true, false⟩ upState) ∧
  ((fun (m : Master) (value : Word) (o : StoreObs) (s : State) =>
    (s.reaches m) ∧ (s.answers .keeper) ∧ (s.keeperRuns) ∧ ((o.firstTry && o.secondTry) = true)) .cc 3#32 ⟨true, true⟩ upState) ∧
  ((fun (primary mirror : Bool) (e : Nat × List Byte) (t : List (Nat × List Byte)) (s : State) =>
    (s.keeperRuns) ∧ (s.nv.queue = e :: t)) true true (6, [1]) [] { upState with nv := { upState.nv with queue := [(6, [1])] } }) ∧
  ((fun (s : State) =>
    (s.keeperRuns)) upState) := by
  refine ⟨?_, ?_, ?_, ?_, ?_⟩ <;> (beta_reduce; decide +kernel)

/-- The hypotheses of Obligations.ThermalCommands can be met, those of each clause in turn. -/
theorem test_witness_ThermalCommands :
  ((fun (o : SensorObs) (s : State) =>
    let ls := thermDies
    let sens := (o.temps.filter (fun e => decide (e.1 < 540))).foldl (fun m e => mput m (540 * halfNo o.half + e.1) e.2) s.sens
    let t := foldOver thermDies (fun d (t : State) => t.excludeSensors o.half d (jumps o.half d s.sens sens t.excl)) { s with sens := sens, ticks := mset 0 s.ticks (halfNo o.half) (mget 0 s.ticks (halfNo o.half) + 1) }
    (s.railsUp) ∧ (s.answers (.therm o.half)) ∧ (ls.findSome? (fun d => (t.tripAt o.half d).map (fun r => (d, r))) = none)) ⟨.A, [], [], 0, [], [], 0⟩ (upState.setDstate 2)) ∧
  ((fun (o : SensorObs) (s : State) =>
    let ls := thermDies
    let sens := (o.temps.filter (fun e => decide (e.1 < 540))).foldl (fun m e => mput m (540 * halfNo o.half + e.1) e.2) s.sens
    let t := foldOver thermDies (fun d (t : State) => t.excludeSensors o.half d (jumps o.half d s.sens sens t.excl)) { s with sens := sens, ticks := mset 0 s.ticks (halfNo o.half) (mget 0 s.ticks (halfNo o.half) + 1) }
    (s.railsUp) ∧ (s.answers (.therm o.half)) ∧ ((ls.findSome? (fun d => (t.tripAt o.half d).map (fun r => (d, r)))).isSome)) ⟨.A, [(0, 1000), (1, 1000), (2, 1000)], [], 0, [], [], 0⟩ (upState.setDstate 2)) ∧
  ((fun (o : RemoteObs) (s : State) =>
    (s.answers .gTherm) ∧ (s.getF .gTherm (remFld R.thermG.TD_CFG_EN R.thermG.TH_CFG_EN o.input) ≠ 0) ∧ (o.fault) ∧ (s.getF .gTherm (remFld R.thermG.TD_FAULT R.thermG.TH_FAULT o.input) ≠ 1)) ⟨0, true, 0⟩ (upState.setF .gTherm (remFld R.thermG.TD_CFG_EN R.thermG.TH_CFG_EN 0) 1)) ∧
  ((fun (o : RemoteObs) (s : State) =>
    (s.answers .gTherm) ∧ (s.getF .gTherm (remFld R.thermG.TD_CFG_EN R.thermG.TH_CFG_EN o.input) ≠ 0) ∧ (o.fault = false)) ⟨0, false, 400⟩ (upState.setF .gTherm (remFld R.thermG.TD_CFG_EN R.thermG.TH_CFG_EN 0) 1)) ∧
  ((fun (h : Half) (q : Fin 4) (s : State) =>
    (s.answers (.therm h)) ∧ (s.getF (.therm h) (R.therm.DIE_STS_STATE.ix q.val) < 2) ∧ ((s.cd h q.val).thermD < 15)) .A 0 (upState.setCd .A 0 { cdInit with thermD := 3 })) ∧
  ((fun (h : Half) (q : Fin 4) (s : State) =>
    (s.answers (.therm h)) ∧ (s.getF (.therm h) (R.therm.DIE_STS_STATE.ix q.val) < 2) ∧ (15 ≤ (s.cd h q.val).thermD) ∧ ((s.cd h q.val).therm < 1500)) .A 0 (upState.setCd .A 0 { cdInit with therm := 700 })) ∧
  ((fun (h : Half) (d : Fin 36) (renew : Bool) (s : State) =>
    (s.answers (.therm h)) ∧ (renew = false)) .A 3 false upState) ∧
  ((fun (h : Half) (d : Fin 36) (s : State) =>
    (s.answers (.therm h)) ∧ (isCompute d.val) ∧ ((s.cd h d.val).surge < 1500) ∧ ((s.cd h d.val).surge + 100 < s.fmaxOf h)) .A 0 ((upState.setF (.clk .A) R.clk.FMAX_MHZ 1500).setCd .A 0 { cdInit with surge := 600 })) ∧
  ((fun (h : Half) (d : Fin 36) (s : State) =>
    (s.answers (.therm h)) ∧ (isCompute d.val) ∧ ((s.cd h d.val).surge < 1500) ∧ (s.fmaxOf h ≤ (s.cd h d.val).surge + 100)) .A 0 ((upState.setF (.clk .A) R.clk.FMAX_MHZ 1500).setCd .A 0 { cdInit with surge := 1450 })) ∧
  ((fun (h : Half) (q : Fin 4) (p : RegionPair) (s : State) =>
    (s.answers (.noc h q)) ∧ (p = .compute) ∧ (((s.pairs h).find? (fun x => x.dieA = 36 * halfNo h + q.val)).any (fun x => decide (x.dT ≤ 216) && decide (x.dV ≤ 140)))) .A 1 .compute upState) ∧
  ((fun (h : Half) (q : Fin 4) (i : Fin 12) (s : State) =>
    (s.answers (.noc h q)) ∧ (((s.pairs h).find? (fun x => x.dieA = 36 * halfNo h + 16 + i.val)).any (fun x => decide (x.dT ≤ 216) && decide (x.dV ≤ 140)))) .A 1 3 upState) := by
  refine ⟨?_, ?_, ?_, ?_, ?_, ?_, ?_, ?_, ?_, ?_, ?_⟩ <;> (beta_reduce; decide +kernel)

/-- The hypotheses of Obligations.ControlComplex can be met, those of each clause in turn. -/
theorem test_witness_ControlComplex :
  ((fun (joining : List (Chan × ResyncObs)) (s : State) =>
    (s.ccLive)) [] ccState) ∧
  ((fun (c : CmdCopy) (s : State) =>
    (s.ccLive) ∧ (s.chan c.chan = 1) ∧ (s.cc.promo.contains c.actuator.val = false) ∧ (s.armed (chanPage c.chan) 8 = false) ∧ (c.seq.toNat = s.expectSeq c.actuator.val) ∧ ((s.copiesOf c.actuator.val).any (fun x => x.seq = c.seq && x.chan = c.chan) = false)) ⟨.ca, 3, 0#32, 7#64⟩ ccState) ∧
  ((fun (c : CmdCopy) (s : State) =>
    (s.ccLive) ∧ (s.chan c.chan = 1) ∧ (s.cc.promo.contains c.actuator.val = false) ∧ (s.armed (chanPage c.chan) 8 = false) ∧ (c.seq.toNat ≠ s.expectSeq c.actuator.val) ∧ (s.copiesOf c.actuator.val = [])) ⟨.ca, 3, 5#32, 7#64⟩ ccState) ∧
  ((fun (c : CmdCopy) (x : CmdCopy) (s : State) =>
    (s.ccLive) ∧ (s.chan c.chan = 1) ∧ (s.cc.promo.contains c.actuator.val = false) ∧ (s.armed (chanPage c.chan) 8 = false) ∧ (c.seq.toNat = s.expectSeq c.actuator.val) ∧ (s.copiesOf c.actuator.val = [x]) ∧ (x.chan ≠ c.chan) ∧ (sameCmd x c) ∧ (s.ccMode = 2)) ⟨.ca, 3, 0#32, 7#64⟩ ⟨.cb, 3, 0#32, 7#64⟩ ((ccState.setMode 2).setCopies 3 [⟨.cb, 3, 0#32, 7#64⟩])) ∧
  ((fun (c : CmdCopy) (s : State) =>
    (s.ccLive) ∧ (s.chan c.chan = 2) ∧ (s.cc.promo.contains c.actuator.val = true) ∧ (s.armed (chanPage c.chan) 8 = false) ∧ ((s.copiesOf c.actuator.val).any (fun x => x.seq = c.seq))) ⟨.ck, 3, 0#32, 7#64⟩ (let t := (ccState.setChan .ck 2).setCopies 3 [⟨.cb, 3, 0#32, 7#64⟩]; { t with cc := { t.cc with promo := [3] } })) ∧
  ((fun (c : CmdCopy) (s : State) =>
    (s.ccLive = false ∨ (s.chan c.chan ≠ 1 ∧ s.chan c.chan ≠ 2))) ⟨.ck, 3, 0#32, 7#64⟩ upState) ∧
  ((fun (a : Fin 32) (s : State) =>
    (s.ccLive) ∧ (s.cc.promo.contains a.val)) 3 { ccState with cc := { ccState.cc with promo := [3] } }) ∧
  ((fun (a : Fin 32) (x : CmdCopy) (t : List CmdCopy) (s : State) =>
    (s.ccLive) ∧ (s.cc.promo.contains a.val = false) ∧ (s.copiesOf a.val = x :: t) ∧ (x.seq.toNat ≠ s.expectSeq a.val) ∧ (s.ccMode = 1)) 3 ⟨.cb, 3, 9#32, 7#64⟩ [] (ccState.setCopies 3 [⟨.cb, 3, 9#32, 7#64⟩])) ∧
  ((fun (a : Fin 32) (x : CmdCopy) (t : List CmdCopy) (s : State) =>
    (s.ccLive) ∧ (s.cc.promo.contains a.val = false) ∧ (s.copiesOf a.val = x :: t) ∧ (x.seq.toNat = s.expectSeq a.val) ∧ (s.ccMode = 1)) 3 ⟨.cb, 3, 0#32, 7#64⟩ [] (ccState.setCopies 3 [⟨.cb, 3, 0#32, 7#64⟩])) ∧
  ((fun (a : Fin 32) (x : CmdCopy) (t : List CmdCopy) (s : State) =>
    (s.ccLive) ∧ (s.cc.promo.contains a.val = false) ∧ (s.copiesOf a.val = x :: t) ∧ (x.seq.toNat = s.expectSeq a.val) ∧ (s.ccMode ≠ 1)) 3 ⟨.cb, 3, 0#32, 7#64⟩ [] ((ccState.setMode 2).setCopies 3 [⟨.cb, 3, 0#32, 7#64⟩])) ∧
  ((fun (v : HbViews) (s : State) =>
    (s.ccLive)) ⟨true, true, true, true, false, true, false, true⟩ ccState) ∧
  ((fun (bundles : List (Fin 16)) (s : State) =>
    (s.getF .ck R.ctrlch.CC_STS_HINGE = 2) ∧ (s.halted = false) ∧ (s.halfUp .A) ∧ (s.halfUp .B) ∧ (4 ≤ (allBundles.filter (fun b => bundles.contains b)).length)) [0, 1, 2, 3] (ccState.setF .ck R.ctrlch.CC_STS_HINGE 2)) ∧
  ((fun (ok : List Chan) (s : State) =>
    (s.bound .i3c) ∧ (s.ccMode = 4)) [.ca] ((ccState.setDa true 9).setMode 4)) ∧
  ((fun (ok : List Chan) (s : State) =>
    (s.bound .i3c) ∧ (s.ccMode ≠ 4)) [.ca] (ccState.setDa true 9)) ∧
  ((fun (f : Fn) (ok : List Chan) (s : State) =>
    (s.bound (.pcie f))) .f0 [.ca] pcieState) ∧
  ((fun (m : Master) (ok : List Chan) (s : State) =>
    (s.reaches m) ∧ (s.answers .ck)) .cc [.ca] ccState) ∧
  ((fun (p : PortId) (o : TrainObs) (s : State) =>
    (s.isBypass p = false)) ⟨.A, 3⟩ ⟨[], 20, true⟩ upState) ∧
  ((fun (p : PortId) (o : TrainObs) (s : State) =>
    (s.isBypass p) ∧ (s.hingeView = 2) ∧ ((s.trainLink p o).hingeView ≠ 1)) ⟨.A, 3⟩ ⟨[], 20, true⟩ { (ccState.setF .ck R.ctrlch.CC_STS_HINGE 2) with cfg := { bypass := some [(3, 64)] } }) := by
  refine ⟨?_, ?_, ?_, ?_, ?_, ?_, ?_, ?_, ?_, ?_, ?_, ?_, ?_, ?_, ?_, ?_, ?_, ?_⟩ <;> (beta_reduce; decide +kernel)

/-- The hypotheses of Obligations.ManagementCommands can be met, those of each clause in turn. -/
theorem test_witness_ManagementCommands :
  ((fun (b : Binding) (s : State) =>
    (s.bound b)) .i3c (upState.setDa true 9)) ∧
  ((fun (b : Binding) (s : State) =>
    (s.bound b)) .i3c (upState.setDa true 9)) ∧
  ((fun (f : Fn) (h : Half) (c : Fin 8) (offset : Nat) (bytes : List Byte) (s : State) =>
    (s.bound (.pcie f))) .f0 .A 0 0 [] pcieState) ∧
  ((fun (h : Half) (c : Fin 8) (offset : Nat) (bytes : List Byte) (s : State) =>
    (s.bound .i3c) ∧ (bytes.length = 256) ∧ ([0, 256, 512, 768].contains offset) ∧ ((mput (mget [] s.dimmIn (chanKey h c.val)) offset bytes).length < 4)) .A 0 256 (List.replicate 256 0) (upState.setDa true 9)) ∧
  ((fun (h : Half) (c : Fin 8) (offset : Nat) (bytes : List Byte) (s : State) =>
    (s.bound .i3c) ∧ (bytes.length = 256) ∧ ([0, 256, 512, 768].contains offset) ∧ (4 ≤ (mput (mget [] s.dimmIn (chanKey h c.val)) offset bytes).length)) .A 0 768 (List.replicate 256 0) { (upState.setDa true 9) with dimmIn := [(chanKey .A 0, [(0, []), (256, []), (512, [])])] }) ∧
  ((fun (h : Half) (c : Fin 8) (offset : Nat) (bytes : List Byte) (s : State) =>
    (s.bound .i3c) ∧ (bytes.length ≠ 256 ∨ [0, 256, 512, 768].contains offset = false)) .A 0 256 [] (upState.setDa true 9)) ∧
  ((fun (b : Binding) (count : BitVec 8) (s : State) =>
    (s.bound b) ∧ (1 ≤ count.toNat) ∧ (count.toNat ≤ 8)) .i3c 3#8 (upState.setDa true 9)) ∧
  ((fun (b : Binding) (eid : BitVec 8) (s : State) =>
    (s.reached b) ∧ (eid ≠ 0) ∧ (eid ≠ 0xFF)) .i3c 9#8 (upState.setDa true 9)) ∧
  ((fun (b : Binding) (eid : BitVec 8) (s : State) =>
    (s.reached b) ∧ (eid = 0 ∨ eid = 0xFF)) .i3c 0#8 (upState.setDa true 9)) ∧
  ((fun (b : Binding) (s : State) =>
    (s.bound b)) .i3c (upState.setDa true 9)) ∧
  ((fun (s : State) =>
    (s.die 0 = .up)) upState) ∧
  ((fun (bits : BitVec 8) (s : State) =>
    (s.i3cUp)) 1#8 upState) ∧
  ((fun (bits : BitVec 8) (s : State) =>
    (s.i3cUp)) 1#8 upState) ∧
  ((fun (s : State) =>
    (s.i3cUp)) upState) ∧
  ((fun (da : BitVec 7) (s : State) =>
    (s.i3cUp) ∧ (s.hasDa = false)) 9#7 upState) ∧
  ((fun (da : BitVec 7) (s : State) =>
    (s.i3cUp) ∧ (s.hasDa)) 9#7 (upState.setDa true 9)) ∧
  ((fun (static da : BitVec 7) (s : State) =>
    (s.i3cUp) ∧ (s.hasDa = false) ∧ (static = 0x4C)) 0x4C#7 9#7 upState) ∧
  ((fun (static da : BitVec 7) (s : State) =>
    (s.i3cUp) ∧ (s.hasDa = true ∨ static ≠ 0x4C)) 0x4B#7 9#7 upState) ∧
  ((fun (len : BitVec 16) (s : State) =>
    (s.i3cUp)) 9#16 upState) ∧
  ((fun (len : BitVec 16) (s : State) =>
    (s.i3cUp)) 9#16 upState) ∧
  ((fun (s : State) =>
    (s.i3cUp) ∧ (s.hasDa)) (upState.setDa true 9)) ∧
  ((fun (s : State) =>
    (s.i3cUp) ∧ (s.hasDa)) (upState.setDa true 9)) ∧
  ((fun (s : State) =>
    (s.i3cUp) ∧ (s.hasDa)) (upState.setDa true 9)) ∧
  ((fun (s : State) =>
    (s.i3cUp) ∧ (s.hasDa)) (upState.setDa true 9)) ∧
  ((fun (s : State) =>
    (s.i3cUp) ∧ (s.hasDa)) (upState.setDa true 9)) ∧
  ((fun (s : State) =>
    (s.i3cUp) ∧ (s.hasDa)) (upState.setDa true 9)) ∧
  ((fun (s : State) =>
    (s.i3cUp) ∧ (s.hasDa)) (upState.setDa true 9)) ∧
  ((fun (s : State) =>
    (s.i3cUp) ∧ (s.hasDa = false)) upState) ∧
  ((fun (s : State) =>
    (s.i3cUp) ∧ (s.hasDa = false)) upState) ∧
  ((fun (s : State) =>
    (s.i3cUp) ∧ (s.hasDa = false)) upState) ∧
  ((fun (s : State) =>
    (s.i3cUp) ∧ (s.hasDa = false)) upState) ∧
  ((fun (s : State) =>
    (s.i3cUp) ∧ (s.hasDa = false)) upState) ∧
  ((fun (s : State) =>
    (s.i3cUp) ∧ (s.hasDa = false)) upState) ∧
  ((fun (s : State) =>
    (s.i3cUp) ∧ (s.hasDa = false)) upState) ∧
  ((fun (action : BitVec 8) (s : State) =>
    (s.i3cUp) ∧ (action = 1)) 1#8 upState) ∧
  ((fun (action : BitVec 8) (s : State) =>
    (s.i3cUp) ∧ (action = 0)) 0#8 upState) ∧
  ((fun (action : BitVec 8) (s : State) =>
    (s.i3cUp) ∧ (2 ≤ action.toNat)) 2#8 upState) ∧
  ((fun (s : State) =>
    (s.i3cUp) ∧ (s.hasDa = false) ∧ (s.i3c.hot = false)) upState) ∧
  ((fun (e : MgmtEvt) (t : List MgmtEvt) (s : State) =>
    (s.evq = e :: t) ∧ (s.i3cUp) ∧ (s.ibiOn)) ⟨4, 0, 0, 0⟩ [] { (upState.setDa true 9) with evq := [⟨4, 0, 0, 0⟩], i3c := { upState.i3c with events := 1 } }) := by
  refine ⟨?_, ?_, ?_, ?_, ?_, ?_, ?_, ?_, ?_, ?_, ?_, ?_, ?_, ?_, ?_, ?_, ?_, ?_, ?_, ?_, ?_, ?_, ?_, ?_, ?_, ?_, ?_, ?_, ?_, ?_, ?_, ?_, ?_, ?_, ?_, ?_, ?_, ?_, ?_⟩ <;> (beta_reduce; decide +kernel)

/-- The hypotheses of Obligations.RegisterAccesses can be met, those of each clause in turn. -/
theorem test_witness_RegisterAccesses :
  ((fun (m : Master) (addr size : Nat) (s : State) =>
    (badAccess addr size) ∧ (s.reaches m)) .cc 2 4 upState) ∧
  ((fun (m : Master) (addr size : Nat) (s : State) =>
    (badAccess addr size) ∧ (s.reaches m)) .cc 2 4 upState) ∧
  ((fun (m : Master) (addr : Nat) (p : Page) (s : State) =>
    (lowWord addr) ∧ (s.reaches m) ∧ (pageOf addr = some p) ∧ (s.answers p)) .cc (pageBase (.seq .A) + 0x120) (.seq .A) upState) ∧
  ((fun (m : Master) (addr : Nat) (p : Page) (s : State) =>
    (lowWord addr) ∧ (s.reaches m) ∧ (pageOf addr = some p) ∧ (s.answers p) ∧ (mhas s.latch (latchKey m addr))) .cc (pageBase (.seq .A) + 0x120) (.seq .A) { upState with latch := [(latchKey .cc (pageBase (.seq .A) + 0x120), 7)] }) ∧
  ((fun (m : Master) (addr : Nat) (p : Page) (s : State) =>
    (lowWord addr) ∧ (s.reaches m) ∧ (pageOf addr = some p) ∧ (s.answers p) ∧ (mhas s.latch (latchKey m addr) = false)) .cc (pageBase (.seq .A) + 0x120) (.seq .A) upState) ∧
  ((fun (m : Master) (addr : Nat) (p : Page) (s : State) =>
    (lowWord addr) ∧ (s.reaches m) ∧ (pageOf addr = some p) ∧ (s.answers p)) .cc (pageBase (.seq .A) + 0x120) (.seq .A) upState) ∧
  ((fun (m : Master) (p : Page) (o : Nat) (value : BitVec 64) (s : State) =>
    (s.reaches m) ∧ (pageOf (pageBase p + o) = some p) ∧ ((pageBase p + o) % 0x1000 = o) ∧ ((pageBase p + o) % 4 = 0) ∧ (pageBase p + o < 0x800000 ∨ 0x808000 ≤ pageBase p + o) ∧ (s.answers p) ∧ (occupied p o) ∧ (s.isSet p R.hdr.BLK_STS_RESET_BUSY = false) ∧ (foreignPage m p = false) ∧ (s.writeHeld p o = false) ∧ (writeIgnored m p o (value.toNat % 2 ^ 32) = false)) .cc (.clk .A) 0x14 5#64 upState) ∧
  ((fun (m : Master) (p : Page) (o : Nat) (value : BitVec 64) (s : State) =>
    (s.reaches m) ∧ (pageOf (pageBase p + o) = some p) ∧ ((pageBase p + o) % 0x1000 = o) ∧ ((pageBase p + o) % 4 = 0) ∧ (pageBase p + o < 0x800000 ∨ 0x808000 ≤ pageBase p + o) ∧ (s.answers p) ∧ (occupied p o) ∧ (0x100 ≤ o) ∧ (s.isSet p R.hdr.BLK_STS_RESET_BUSY)) .cc (.cell .A 0) 0x104 5#64 (upState.setF (.cell .A 0) R.hdr.BLK_STS_RESET_BUSY 1)) ∧
  ((fun (m : Master) (i : Fin 48) (o : Nat) (value : BitVec 64) (s : State) =>
    (isHost m) ∧ (32 ≤ i.val) ∧ (pageOf (pageBase (.mbx i) + o) = some (.mbx i)) ∧ ((pageBase (.mbx i) + o) % 0x1000 = o) ∧ ((pageBase (.mbx i) + o) % 4 = 0) ∧ (pageBase (.mbx i) + o < 0x800000) ∧ (s.answers (.mbx i)) ∧ (occupied (.mbx i) o) ∧ (s.isSet (.mbx i) R.hdr.BLK_STS_RESET_BUSY = false)) .host0 40 0x108 5#64 upState) ∧
  ((fun (m : Master) (addr : Nat) (value : BitVec 64) (s : State) =>
    (s.reaches m) ∧ (addr % 8 = 0)) .cc 8 5#64 upState) ∧
  ((fun (m : Master) (addr : Nat) (wide : Bool) (value : BitVec 64) (s : State) =>
    (s.reaches m) ∧ (addr % (if wide then 8 else 4) ≠ 0)) .cc 4 true 5#64 upState) ∧
  ((fun (m : Master) (h : Half) (c : Fin 288) (s : State) =>
    (s.reaches m)) .cc .A 3 upState) ∧
  ((fun (m : Master) (h : Half) (b : Fin 16) (s : State) =>
    (s.reaches m)) .cc .A 3 upState) ∧
  ((fun (m : Master) (h : Half) (k : Fin 32) (s : State) =>
    (s.reaches m)) .cc .A 3 upState) ∧
  ((fun (m : Master) (h : Half) (o : Fin 8) (s : State) =>
    (s.reaches m)) .cc .A 3 upState) ∧
  ((fun (h : Half) (c : Fin 288) (s : State) =>
    (s.answers (.cell h c)) ∧ (s.isSet (.cell h c) R.hdr.BLK_STS_RESET_BUSY)) .A 3 (upState.setF (.cell .A 3) R.hdr.BLK_STS_RESET_BUSY 1)) ∧
  ((fun (h : Half) (k : Fin 32) (s : State) =>
    (s.answers (.ucie h k)) ∧ (s.isSet (.ucie h k) R.hdr.BLK_STS_RESET_BUSY)) .A 3 (upState.setF (.ucie .A 3) R.hdr.BLK_STS_RESET_BUSY 1)) ∧
  ((fun (h : Half) (b : Fin 16) (s : State) =>
    (s.answers (.hinge h b)) ∧ (s.isSet (.hinge h b) R.hdr.BLK_STS_RESET_BUSY)) .A 3 (upState.setF (.hinge .A 3) R.hdr.BLK_STS_RESET_BUSY 1)) ∧
  ((fun (m : Master) (p : Page) (s : State) =>
    (s.reaches m) ∧ (s.answers p) ∧ (s.getF p R.hdr.LOCK_OWNER = 0)) .cc (.clk .A) upState) ∧
  ((fun (m : Master) (p : Page) (s : State) =>
    (s.reaches m) ∧ (s.answers p) ∧ (s.getF p R.hdr.LOCK_OWNER ≠ 0)) .cc (.clk .A) (upState.setF (.clk .A) R.hdr.LOCK_OWNER 3)) ∧
  ((fun (m : Master) (p : Page) (s : State) =>
    (s.reaches m) ∧ (s.answers p) ∧ (s.getF p R.hdr.LOCK_OWNER = masterId m)) .cc (.clk .A) (upState.setF (.clk .A) R.hdr.LOCK_OWNER (masterId .cc))) ∧
  ((fun (m : Master) (p : Page) (s : State) =>
    (s.reaches m) ∧ (s.answers p) ∧ (s.getF p R.hdr.LOCK_OWNER ≠ masterId m)) .cc (.clk .A) upState) := by
  refine ⟨?_, ?_, ?_, ?_, ?_, ?_, ?_, ?_, ?_, ?_, ?_, ?_, ?_, ?_, ?_, ?_, ?_, ?_, ?_, ?_, ?_, ?_⟩ <;> (beta_reduce; decide +kernel)

/-- The hypotheses of Obligations.DoorbellsAndInjection can be met, those of each clause in turn. -/
theorem test_witness_DoorbellsAndInjection :
  ((fun (m : Master) (p : Page) (bits : Word) (s : State) =>
    (s.reaches m) ∧ (s.answers p) ∧ (occupied p 0x28) ∧ (foreignPage m p = false)) .cc (.seq .A) 1#32 upState) ∧
  ((fun (m : Master) (p : Page) (mask : Word) (s : State) =>
    (s.reaches m) ∧ (s.answers p) ∧ (occupied p 0x2C) ∧ (foreignPage m p = false)) .cc (.seq .A) 1#32 upState) ∧
  ((fun (m : Master) (p : Page) (value : Word) (s : State) =>
    (s.reaches m) ∧ (s.answers p) ∧ (foreignPage m p = false) ∧ (s.isSet .sec R.sec.SEC_CTL_INJ_DIS = false)) .cc (.clk .A) 1#32 upState) ∧
  ((fun (m : Master) (p : Page) (value : Word) (s : State) =>
    (s.reaches m) ∧ (foreignPage m p = false) ∧ (s.isSet .sec R.sec.SEC_CTL_INJ_DIS)) .cc (.clk .A) 1#32 (upState.setF .sec R.sec.SEC_CTL_INJ_DIS 1)) ∧
  ((fun (p : Page) (s : State) =>
    (s.answers p) ∧ (s.isSet p R.hdr.ERR_INJ_ARM) ∧ (s.getF p R.hdr.ERR_INJ_BIT = 2) ∧ ((waitsForData p).contains 2 = false) ∧ (bit (errBits p) 2)) (.clk .A) (upState.setFs (.clk .A) [(R.hdr.ERR_INJ_ARM, 1), (R.hdr.ERR_INJ_BIT, 2)])) ∧
  ((fun (p : Page) (s : State) =>
    (s.answers p) ∧ (s.isSet p R.hdr.ERR_INJ_ARM) ∧ (bit (errBits p) (s.getF p R.hdr.ERR_INJ_BIT) = false) ∧ ((waitsForData p).contains (s.getF p R.hdr.ERR_INJ_BIT) = false)) (.clk .A) (upState.setFs (.clk .A) [(R.hdr.ERR_INJ_ARM, 1), (R.hdr.ERR_INJ_BIT, 31)])) ∧
  ((fun (h : Half) (s : State) =>
    (s.answers (.clk h)) ∧ (s.isSet (.clk h) R.hdr.ERR_INJ_ARM) ∧ (s.getF (.clk h) R.hdr.ERR_INJ_BIT = 9)) .A (upState.setFs (.clk .A) [(R.hdr.ERR_INJ_ARM, 1), (R.hdr.ERR_INJ_BIT, 9)])) ∧
  ((fun (h : Half) (i : Fin 64) (s : State) =>
    (s.answers (.oport h i)) ∧ (s.isSet (.oport h i) R.hdr.ERR_INJ_ARM) ∧ (s.getF (.oport h i) R.hdr.ERR_INJ_BIT = 8)) .A 3 (upState.setFs (.oport .A 3) [(R.hdr.ERR_INJ_ARM, 1), (R.hdr.ERR_INJ_BIT, 8)])) ∧
  ((fun (h : Half) (o : Fin 8) (s : State) =>
    (s.answers (.laser h o)) ∧ (s.isSet (.laser h o) R.hdr.ERR_INJ_ARM) ∧ (s.getF (.laser h o) R.hdr.ERR_INJ_BIT = 8)) .A 3 (upState.setFs (.laser .A 3) [(R.hdr.ERR_INJ_ARM, 1), (R.hdr.ERR_INJ_BIT, 8)])) ∧
  ((fun (h : Half) (s : State) =>
    (s.halfUp h) ∧ (s.ringOpen h)) .A (upState.setFs (.comb .A) [(R.comb.ERR_RING_CTL_ENABLE, 1), (R.comb.ERR_RING_CTL_LOG2, 6)])) ∧
  ((fun (m : Master) (h : Half) (value : Word) (s : State) =>
    (s.reaches m) ∧ (s.answers (.comb h)) ∧ (s.isSet (.comb h) R.hdr.BLK_STS_RESET_BUSY = false) ∧ ((value.toNat + 2 ^ 32 - s.getF (.comb h) R.comb.ERR_CONS_CONS) % 2 ^ 32 ≤ s.ringUsed h)) .cc .A 0#32 upState) ∧
  ((fun (m : Master) (h : Half) (value : Word) (s : State) =>
    (s.reaches m) ∧ (s.answers (.comb h)) ∧ (s.isSet (.comb h) R.hdr.BLK_STS_RESET_BUSY = false) ∧ (s.ringUsed h < (value.toNat + 2 ^ 32 - s.getF (.comb h) R.comb.ERR_CONS_CONS) % 2 ^ 32)) .cc .A 1#32 upState) ∧
  ((fun (m : Master) (h : Half) (value : Word) (s : State) =>
    (s.reaches m) ∧ (s.answers (.comb h)) ∧ (s.isSet (.comb h) R.hdr.BLK_STS_RESET_BUSY = false) ∧ (s.isSet (.comb h) R.comb.ERR_RING_CTL_ENABLE = false) ∧ (bit value.toNat 31 = false)) .cc .A 7#32 upState) ∧
  ((fun (m : Master) (h : Half) (value : Word) (s : State) =>
    (s.reaches m) ∧ (s.answers (.comb h)) ∧ (s.isSet (.comb h) R.hdr.BLK_STS_RESET_BUSY = false) ∧ (s.isSet (.comb h) R.comb.ERR_RING_CTL_ENABLE = false) ∧ (bit value.toNat 31)) .cc .A 0x80000007#32 upState) ∧
  ((fun (m : Master) (h : Half) (value : Word) (s : State) =>
    (s.reaches m) ∧ (s.answers (.comb h)) ∧ (s.isSet (.comb h) R.hdr.BLK_STS_RESET_BUSY = false) ∧ (s.isSet (.comb h) R.comb.ERR_RING_CTL_ENABLE) ∧ (bits value.toNat 4 0 ≠ s.getF (.comb h) R.comb.ERR_RING_CTL_LOG2)) .cc .A 7#32 (upState.setFs (.comb .A) [(R.comb.ERR_RING_CTL_ENABLE, 1), (R.comb.ERR_RING_CTL_LOG2, 6)])) := by
  refine ⟨?_, ?_, ?_, ?_, ?_, ?_, ?_, ?_, ?_, ?_, ?_, ?_, ?_, ?_, ?_⟩ <;> (beta_reduce; decide +kernel)

/-- The hypotheses of Obligations.MailboxCommands can be met, those of each clause in turn. -/
theorem test_witness_MailboxCommands :
  ((fun (m : Master) (i : Fin 48) (s : State) =>
    (s.reaches m) ∧ (s.answers (mbxPage i)) ∧ (i.val < 32) ∧ (s.isSet (mbxPage i) R.mbx.MBX_STS_IN_FULL = false)) .host0 3 upState) ∧
  ((fun (m : Master) (i : Fin 48) (s : State) =>
    (s.reaches m) ∧ (s.answers (mbxPage i)) ∧ (State.foreign m i = false) ∧ (s.isSet (mbxPage i) R.mbx.MBX_STS_IN_FULL)) .host0 3 (upState.setF (mbxPage 3) R.mbx.MBX_STS_IN_FULL 1)) ∧
  ((fun (m : Master) (i : Fin 48) (s : State) =>
    (s.reaches m) ∧ (s.answers (mbxPage i)) ∧ (State.foreign m i)) .host0 33 upState) ∧
  ((fun (m : Master) (i : Fin 48) (s : State) =>
    (s.reaches m) ∧ (s.answers (mbxPage i)) ∧ (32 ≤ i.val) ∧ (isHost m = false) ∧ (s.isSet (mbxPage i) R.mbx.MBX_STS_IN_FULL = false) ∧ (s.answers (.seq (if i.val < 40 then .A else .B)))) .cc 33 upState) ∧
  ((fun (m : Master) (i : Fin 48) (s : State) =>
    (s.reaches m) ∧ (s.answers (mbxPage i)) ∧ (State.foreign m i = false) ∧ (s.isSet (mbxPage i) R.mbx.MBX_STS_OUT_FULL)) .host0 3 (upState.setF (mbxPage 3) R.mbx.MBX_STS_OUT_FULL 1)) ∧
  ((fun (m : Master) (i : Fin 48) (s : State) =>
    (s.reaches m) ∧ (s.answers (mbxPage i)) ∧ (State.foreign m i = false) ∧ (s.isSet (mbxPage i) R.mbx.MBX_STS_OUT_FULL = false)) .host0 3 upState) ∧
  ((fun (m : Master) (i : Fin 48) (s : State) =>
    (s.reaches m) ∧ (s.answers (mbxPage i)) ∧ (isHost m = false) ∧ (s.isSet (mbxPage i) R.mbx.MBX_STS_OUT_FULL = false)) .cc 3 upState) ∧
  ((fun (m : Master) (i : Fin 48) (s : State) =>
    (s.reaches m) ∧ (s.answers (mbxPage i)) ∧ (isHost m = false) ∧ (s.isSet (mbxPage i) R.mbx.MBX_STS_OUT_FULL)) .cc 3 (upState.setF (mbxPage 3) R.mbx.MBX_STS_OUT_FULL 1)) ∧
  ((fun (m : Master) (i : Fin 48) (s : State) =>
    (s.reaches m) ∧ (s.answers (mbxPage i)) ∧ (isHost m = false) ∧ (s.isSet (mbxPage i) R.mbx.MBX_STS_IN_FULL)) .cc 3 (upState.setF (mbxPage 3) R.mbx.MBX_STS_IN_FULL 1)) ∧
  ((fun (m : Master) (i : Fin 48) (s : State) =>
    (s.reaches m) ∧ (s.answers (mbxPage i)) ∧ (isHost m)) .host0 3 upState) ∧
  ((fun (m : Master) (i : Fin 48) (word : Fin 64) (value : Word) (s : State) =>
    (s.reaches m) ∧ (s.answers (mbxPage i)) ∧ (State.foreign m i = false) ∧ (s.armed (mbxPage i) 8 = false) ∧ (s.isSet (mbxPage i) R.mbx.MBX_STS_IN_FULL = false)) .host0 3 2 7#32 upState) ∧
  ((fun (m : Master) (i : Fin 48) (word : Fin 64) (value : Word) (s : State) =>
    (s.reaches m) ∧ (s.answers (mbxPage i)) ∧ (State.foreign m i = false) ∧ (s.armed (mbxPage i) 8 = false) ∧ (s.isSet (mbxPage i) R.mbx.MBX_STS_IN_FULL)) .host0 3 2 7#32 (upState.setF (mbxPage 3) R.mbx.MBX_STS_IN_FULL 1)) ∧
  ((fun (m : Master) (i : Fin 48) (word : Fin 64) (value : Word) (s : State) =>
    (s.reaches m) ∧ (s.answers (mbxPage i)) ∧ (isHost m = false) ∧ (s.isSet (mbxPage i) R.mbx.MBX_STS_OUT_FULL = false)) .cc 3 2 7#32 upState) ∧
  ((fun (m : Master) (i : Fin 48) (bits : Word) (s : State) =>
    (s.reaches m) ∧ (s.answers (mbxPage i)) ∧ (State.foreign m i = false)) .cc 3 2#32 upState) ∧
  ((fun (i : Fin 32) (s : State) =>
    let j : Fin 48 := Fin.ofNat 48 i.val
    let b := s.inMsg j
    (s.answers (mbxPage j)) ∧ (s.isSet (mbxPage j) R.mbx.MBX_STS_IN_FULL) ∧ (msgOp b = 1) ∧ ((s.waitingOut j).length < 8) ∧ (s.halted = false) ∧ (msgRsvd b = 0) ∧ (msgLen b = 0)) 0 (reqIn 0 1 0 [] upState)) ∧
  ((fun (i : Fin 32) (s : State) =>
    let j : Fin 48 := Fin.ofNat 48 i.val
    let b := s.inMsg j
    (s.answers (mbxPage j)) ∧ (s.isSet (mbxPage j) R.mbx.MBX_STS_IN_FULL) ∧ (msgOp b = 2) ∧ ((s.waitingOut j).length < 8) ∧ (s.halted = false) ∧ (msgRsvd b = 0) ∧ (msgLen b = 0)) 0 (reqIn 0 2 0 [] upState)) ∧
  ((fun (i : Fin 32) (s : State) =>
    let j : Fin 48 := Fin.ofNat 48 i.val
    let b := s.inMsg j
    (s.answers (mbxPage j)) ∧ (s.isSet (mbxPage j) R.mbx.MBX_STS_IN_FULL) ∧ (msgOp b = 3) ∧ ((s.waitingOut j).length < 8) ∧ (s.halted = false) ∧ (i.val < 4) ∧ (msgRsvd b = 0) ∧ (1 ≤ natOf ((msgBody b).take 2)) ∧ (natOf ((msgBody b).take 2) ≤ 41) ∧ (msgLen b = 2 + 6 * natOf ((msgBody b).take 2))) 0 (reqIn 0 3 8 [1] upState)) ∧
  ((fun (i : Fin 32) (s : State) =>
    let j : Fin 48 := Fin.ofNat 48 i.val
    let b := s.inMsg j
    (s.answers (mbxPage j)) ∧ (s.isSet (mbxPage j) R.mbx.MBX_STS_IN_FULL) ∧ (msgOp b = 4) ∧ ((s.waitingOut j).length < 8) ∧ (s.halted = false) ∧ (msgRsvd b = 0) ∧ (msgLen b = 2)) 0 (reqIn 0 4 2 [] upState)) ∧
  ((fun (i : Fin 32) (s : State) =>
    let j : Fin 48 := Fin.ofNat 48 i.val
    let b := s.inMsg j
    (s.answers (mbxPage j)) ∧ (s.isSet (mbxPage j) R.mbx.MBX_STS_IN_FULL) ∧ (msgOp b = 6) ∧ ((s.waitingOut j).length < 8) ∧ (s.halted = false) ∧ (msgRsvd b = 0) ∧ (msgLen b = 2)) 0 (reqIn 0 6 2 [] upState)) ∧
  ((fun (i : Fin 32) (s : State) =>
    let j : Fin 48 := Fin.ofNat 48 i.val
    (s.answers (mbxPage j)) ∧ (s.isSet (mbxPage j) R.mbx.MBX_STS_IN_FULL) ∧ (msgOp (s.inMsg j) = 1) ∧ ((s.waitingOut j).length < 8) ∧ (s.halted)) 0 (reqIn 0 1 0 [] (upState.setMode 4))) ∧
  ((fun (i : Fin 32) (s : State) =>
    let j : Fin 48 := Fin.ofNat 48 i.val
    (s.answers (mbxPage j)) ∧ (s.isSet (mbxPage j) R.mbx.MBX_STS_IN_FULL) ∧ (msgOp (s.inMsg j) = 3) ∧ ((s.waitingOut j).length < 8) ∧ (s.halted = false) ∧ (4 ≤ i.val)) 4 (reqIn 4 3 0 [] upState)) := by
  refine ⟨?_, ?_, ?_, ?_, ?_, ?_, ?_, ?_, ?_, ?_, ?_, ?_, ?_, ?_, ?_, ?_, ?_, ?_, ?_, ?_, ?_⟩ <;> (beta_reduce; decide +kernel)

/-- The hypotheses of Obligations.CellControlCommands can be met, those of each clause in turn. -/
theorem test_witness_CellControlCommands :
  ((fun (h : Half) (c : Fin 288) (u : CUnit) (e : InFl) (t : List InFl) (s : State) =>
    (unitQ (s.cell h c.val) u = e :: t) ∧ (s.answers (cellPage h c.val)) ∧ (s.holds (e.spans ++ e.stores.map (fun p => (p.1, p.2.length))) = false) ∧ ((e.load && s.armed (cellPage h c.val) 13) = false)) .A 5 .vu ⟨some 2, [(3, 7)], [], 0, false, 4, 2, []⟩ [] ((testCell 0).setCell .A 5 { (testCell 0).cell .A 5 with vu := [⟨some 2, [(3, 7)], [], 0, false, 4, 2, []⟩] })) ∧
  ((fun (h : Half) (c : Fin 288) (u : CUnit) (e : InFl) (t : List InFl) (s : State) =>
    (unitQ (s.cell h c.val) u = e :: t) ∧ (s.answers (cellPage h c.val)) ∧ (s.holds (e.spans ++ e.stores.map (fun p => (p.1, p.2.length))) = false) ∧ (e.load) ∧ (s.armed (cellPage h c.val) 13)) .A 5 .lsu ⟨some 2, [(3, 7)], [], 0, true, 4, 0, []⟩ []
    (((testCell 0).setCell .A 5 { (testCell 0).cell .A 5 with lsu := [⟨some 2, [(3, 7)], [], 0, true, 4, 0, []⟩] }).setFs (cellPage .A 5) [(R.hdr.ERR_INJ_ARM, 1), (R.hdr.ERR_INJ_BIT, 13)])) ∧
  ((fun (h : Half) (c : Fin 288) (line : Fin 65536) (u : Upset) (s : State) =>
    (s.answers (cellPage h c.val)) ∧ (2 ≤ s.cst h c.val) ∧ (s.cst h c.val ≤ 4)) .A 5 0 .corrected (testCell 0)) ∧
  ((fun (m : Master) (h : Half) (c : Fin 288) (s : State) =>
    (s.reaches m) ∧ (s.answers (cellPage h c.val)) ∧ (s.cst h c.val ≤ 1)) .cc .A 5 upState) ∧
  ((fun (m : Master) (h : Half) (c : Fin 288) (s : State) =>
    (s.reaches m) ∧ (s.answers (cellPage h c.val)) ∧ (s.cst h c.val = 5)) .cc .A 5 (upState.cellState .A 5 5)) ∧
  ((fun (m : Master) (h : Half) (c : Fin 288) (s : State) =>
    (s.reaches m) ∧ (s.answers (cellPage h c.val)) ∧ (2 ≤ s.cst h c.val) ∧ (s.cst h c.val ≤ 4)) .cc .A 5 (testCell 0)) ∧
  ((fun (h : Half) (c : Fin 288) (bistFail : List (Fin 288)) (s : State) =>
    (s.answers (cellPage h c.val)) ∧ ((s.cell h c.val).swap = true ∨ (s.cell h c.val).retire = true) ∧ (s.swapDue h c.val) ∧ (s.cst h c.val ≠ 5) ∧ (s.isSet (cellPage h c.val) R.hdr.BLK_STS_RESET_BUSY = false)) .A 5 [] (upState.setCell .A 5 { cellInit with swap := true })) ∧
  ((fun (m : Master) (h : Half) (c : Fin 288) (s : State) =>
    (s.reaches m) ∧ (s.answers (cellPage h c.val)) ∧ (s.isSet (cellPage h c.val) R.hdr.BLK_STS_RESET_BUSY = false)) .cc .A 5 (testCell 0)) ∧
  ((fun (m : Master) (h : Half) (c : Fin 288) (s : State) =>
    (s.reaches m) ∧ (s.answers (cellPage h c.val)) ∧ (s.isSet (cellPage h c.val) R.hdr.BLK_STS_RESET_BUSY)) .cc .A 5 (upState.setF (cellPage .A 5) R.hdr.BLK_STS_RESET_BUSY 1)) := by
  refine ⟨?_, ?_, ?_, ?_, ?_, ?_, ?_, ?_, ?_⟩ <;> (beta_reduce; decide +kernel)

/-- The hypotheses of Obligations.QueueCommands can be met, those of each clause in turn. -/
theorem test_witness_QueueCommands :
  ((fun (m : Master) (r : QRef) (value : Word) (s : State) =>
    (s.reaches m) ∧ (s.answers (.seq r.half)) ∧ ([qACTIVE, qPAUSING, qPAUSED, qHALTED].contains (s.queue r.half r.q.val).st) ∧ (value.toNat % 65536 < 2 ^ (s.queue r.half r.q.val).ctx.dlog)) .host0 ⟨.A, 3⟩ 2#32 (testQueue 0)) ∧
  ((fun (m : Master) (r : QRef) (value : Word) (s : State) =>
    (s.reaches m) ∧ (s.answers (.seq r.half)) ∧ ([qACTIVE, qPAUSING, qPAUSED, qHALTED].contains (s.queue r.half r.q.val).st) ∧ (2 ^ (s.queue r.half r.q.val).ctx.dlog ≤ value.toNat % 65536)) .host0 ⟨.A, 3⟩ 16#32 (testQueue 0)) ∧
  ((fun (m : Master) (r : QRef) (value : Word) (s : State) =>
    (s.reaches m) ∧ (s.answers (.seq r.half)) ∧ ([qDISABLED, qDRAINING].contains (s.queue r.half r.q.val).st)) .host0 ⟨.A, 4⟩ 2#32 (testQueue 0)) ∧
  ((fun (m : Master) (r : QRef) (p : Nat) (s : State) =>
    let e := s.memRead r.half .dma 0 (s.qctBase r.half + 64 * r.q.val) 64
    (s.reaches m) ∧ (s.answers (.seq r.half)) ∧ (s.cmdBusy r.half = false) ∧ (s.seqState r.half ≠ 0) ∧ (s.seqState r.half ≠ 4) ∧ ((s.queue r.half r.q.val).st = 0) ∧ (s.partOfQ r.half r.q.val = some p) ∧ (e.2.1 = 0) ∧ (e.1.qctOk r.half p (natOf e.2.2))) .host0 ⟨.A, 4⟩ 0 (((testQueue 0).setFs (.seq .A) [(R.seq.QCT_BASE_HI_ADDR, 0x200), (R.seq.QCT_BASE_LO_ADDR, 2)]).wr 0x20000002100 (bytesOf 64 (0x20000000000 + 0x20000001000 * 2 ^ 64 + 4 * 2 ^ 128 + 4 * 2 ^ 133)))) ∧
  ((fun (m : Master) (r : QRef) (p : Nat) (s : State) =>
    let e := s.memRead r.half .dma 0 (s.qctBase r.half + 64 * r.q.val) 64
    (s.reaches m) ∧ (s.answers (.seq r.half)) ∧ (s.cmdBusy r.half = false) ∧ (s.seqState r.half ≠ 0) ∧ (s.seqState r.half ≠ 4) ∧ ((s.queue r.half r.q.val).st = 0) ∧ (s.partOfQ r.half r.q.val = some p) ∧ (e.1.qctOk r.half p (natOf e.2.2) = false)) .host0 ⟨.A, 4⟩ 0 ((testQueue 0).setFs (.seq .A) [(R.seq.QCT_BASE_HI_ADDR, 0x200), (R.seq.QCT_BASE_LO_ADDR, 2)])) ∧
  ((fun (m : Master) (r : QRef) (s : State) =>
    (s.reaches m) ∧ (s.answers (.seq r.half)) ∧ (s.cmdBusy r.half = false) ∧ (s.seqState r.half ≠ 0) ∧ (s.seqState r.half ≠ 4) ∧ ([qACTIVE].contains (s.queue r.half r.q.val).st)) .host0 ⟨.A, 3⟩ (testQueue 0)) ∧
  ((fun (m : Master) (r : QRef) (s : State) =>
    (s.reaches m) ∧ (s.answers (.seq r.half)) ∧ (s.cmdBusy r.half = false) ∧ (s.seqState r.half ≠ 0) ∧ (s.seqState r.half ≠ 4) ∧ ([qPAUSING, qPAUSED, qHALTED].contains (s.queue r.half r.q.val).st)) .host0 ⟨.A, 3⟩ (flyQueue qPAUSED [])) ∧
  ((fun (m : Master) (r : QRef) (s : State) =>
    (s.reaches m) ∧ (s.answers (.seq r.half)) ∧ (s.cmdBusy r.half = false) ∧ (s.seqState r.half ≠ 0) ∧ (s.seqState r.half ≠ 4) ∧ ([qACTIVE, qPAUSED, qHALTED].contains (s.queue r.half r.q.val).st)) .host0 ⟨.A, 3⟩ (testQueue 0)) ∧
  ((fun (m : Master) (r : QRef) (s : State) =>
    (s.reaches m) ∧ (s.answers (.seq r.half)) ∧ (s.cmdBusy r.half = false) ∧ (s.seqState r.half ≠ 0) ∧ (s.seqState r.half ≠ 4) ∧ ([qPAUSED, qHALTED].contains (s.queue r.half r.q.val).st) ∧ ((s.queue r.half r.q.val).fly = [])) .host0 ⟨.A, 3⟩ (flyQueue qPAUSED [])) ∧
  ((fun (m : Master) (r : QRef) (s : State) =>
    (s.reaches m) ∧ (s.answers (.seq r.half)) ∧ (s.cmdBusy r.half = false) ∧ (s.seqState r.half ≠ 0) ∧ (s.seqState r.half ≠ 4) ∧ ([qDISABLED, qACTIVE, qPAUSING, qPAUSED, qDRAINING, qHALTED].contains (s.queue r.half r.q.val).st)) .host0 ⟨.A, 3⟩ (testQueue 0)) ∧
  ((fun (m : Master) (r : QRef) (s : State) =>
    (s.reaches m) ∧ (s.answers (.seq r.half)) ∧ (s.cmdBusy r.half = false) ∧ ((s.queue r.half r.q.val).st ≠ qACTIVE)) .host0 ⟨.A, 4⟩ (testQueue 0)) ∧
  ((fun (m : Master) (r : QRef) (op : BitVec 4) (s : State) =>
    (s.reaches m) ∧ (s.answers (.seq r.half)) ∧ (s.cmdBusy r.half = false) ∧ (s.seqState r.half ≠ 0) ∧ (s.seqState r.half ≠ 4) ∧ (op.toNat = 0 ∨ 7 ≤ op.toNat)) .host0 ⟨.A, 3⟩ 9#4 (testQueue 0)) ∧
  ((fun (r : QRef) (s : State) =>
    (s.answers (.seq r.half)) ∧ ((s.queue r.half r.q.val).st = qPAUSING) ∧ ((s.queue r.half r.q.val).fly = [])) ⟨.A, 3⟩ (flyQueue qPAUSING [])) ∧
  ((fun (r : QRef) (s : State) =>
    (s.answers (.seq r.half)) ∧ ((s.queue r.half r.q.val).st = qDRAINING) ∧ ((s.queue r.half r.q.val).fly = []) ∧ ((s.queue r.half r.q.val).next = (s.queue r.half r.q.val).tail)) ⟨.A, 3⟩ (flyQueue qDRAINING [])) ∧
  ((fun (r : QRef) (s : State) =>
    (s.answers (.seq r.half)) ∧ (s.seqState r.half = 1) ∧ (s.ready r.half r.q.val)) ⟨.A, 3⟩ (testQueue 8)) ∧
  ((fun (m : Master) (h : Half) (high : Bool) (value : Word) (s : State) =>
    (s.reaches m) ∧ (s.answers (.seq h)) ∧ ((s.listedQ h).all (fun q => (s.queue h q).st = 0))) .host0 .A true 0#32 upState) := by
  refine ⟨?_, ?_, ?_, ?_, ?_, ?_, ?_, ?_, ?_, ?_, ?_, ?_, ?_, ?_, ?_, ?_⟩ <;> (beta_reduce; decide +kernel)

/-- The hypotheses of Obligations.SequencerAndPartitions can be met, those of each clause in turn. -/
theorem test_witness_SequencerAndPartitions :
  ((fun (m : Master) (h : Half) (s : State) =>
    (s.reaches m) ∧ (s.answers (.seq h)) ∧ (s.seqState h = 1)) .cc .A (testQueue 0)) ∧
  ((fun (m : Master) (h : Half) (s : State) =>
    (s.reaches m) ∧ (s.answers (.seq h)) ∧ (s.seqState h ≠ 1)) .cc .A upState) ∧
  ((fun (m : Master) (h : Half) (s : State) =>
    (s.reaches m) ∧ (s.answers (.seq h)) ∧ (s.seqState h = 2 ∨ s.seqState h = 3)) .cc .A (upState.setF (.seq .A) R.seq.BLK_STS_STATE 3)) ∧
  ((fun (m : Master) (h : Half) (s : State) =>
    (s.reaches m) ∧ (s.answers (.seq h)) ∧ (s.seqState h ≠ 2) ∧ (s.seqState h ≠ 3)) .cc .A upState) ∧
  ((fun (h : Half) (s : State) =>
    (s.answers (.seq h)) ∧ (s.seqState h = 2) ∧ (s.quiet h)) .A (upState.setF (.seq .A) R.seq.BLK_STS_STATE 2)) ∧
  ((fun (m : Master) (h : Half) (value : Word) (s : State) =>
    (s.reaches m) ∧ (s.answers (.seq h))) .cc .A 3#32 upState) ∧
  ((fun (m : Master) (h : Half) (value : Word) (s : State) =>
    (s.reaches m) ∧ (s.answers (.seq h))) .cc .A 3#32 upState) ∧
  ((fun (m : Master) (h : Half) (p : Fin 8) (s : State) =>
    (s.reaches m) ∧ (s.answers (.seq h)) ∧ (s.partState h p.val = 1)) .cc .A 0 (upState.setF (.seq .A) (R.seq.PART_CTL_STATE.ix 0) 1)) ∧
  ((fun (m : Master) (h : Half) (p : Fin 8) (s : State) =>
    (s.reaches m) ∧ (s.answers (.seq h)) ∧ (s.partState h p.val ≠ 1)) .cc .A 0 upState) ∧
  ((fun (m : Master) (h : Half) (p : Fin 8) (s : State) =>
    (s.reaches m) ∧ (s.answers (.seq h)) ∧ (s.partState h p.val = 3)) .cc .A 0 (upState.setF (.seq .A) (R.seq.PART_CTL_STATE.ix 0) 3)) := by
  refine ⟨?_, ?_, ?_, ?_, ?_, ?_, ?_, ?_, ?_, ?_⟩ <;> (beta_reduce; decide +kernel)

/-- The hypotheses of Obligations.DescriptorDispatch can be met, those of each clause in turn. -/
theorem test_witness_DescriptorDispatch :
  ((fun (r : QRef) (hr : HostRead) (s : State) =>
    (dispatches dKERNEL r hr s)) ⟨.A, 3⟩ .unused (testQueue (1))) ∧
  ((fun (r : QRef) (hr : HostRead) (s : State) =>
    (dispatches dCOPY r hr s) ∧ (bits (descNow r hr s).raw 401 400 = 0) ∧ (bits (descNow r hr s).raw 403 402 ≠ 3)) ⟨.A, 3⟩ .unused (testQueue (2 + 2 ^ 128 * 0x20000003000 + 2 ^ 192 * 0x20000004000 + 2 ^ 256 * 8))) ∧
  ((fun (r : QRef) (hr : HostRead) (s : State) =>
    (dispatches dCOPY r hr s) ∧ (bits (descNow r hr s).raw 401 400 = 3 ∨ bits (descNow r hr s).raw 403 402 = 3)) ⟨.A, 3⟩ .unused (testQueue (2 + 2 ^ 128 * 0x20000003000 + 2 ^ 192 * 0x20000004000 + 2 ^ 256 * 8 + 2 ^ 402 * 3))) ∧
  ((fun (r : QRef) (hr : HostRead) (s : State) =>
    (dispatches dCOPY r hr s) ∧ (bits (descNow r hr s).raw 401 400 = 1 ∨ bits (descNow r hr s).raw 401 400 = 2) ∧ (bits (descNow r hr s).raw 403 402 ≠ 3) ∧ (((dispatched r hr s).carrier (spaceFn (bits (descNow r hr s).raw 401 400))).isSome)) ⟨.A, 3⟩ .unused (testQueue (2 + 2 ^ 128 * 0x3000 + 2 ^ 192 * 0x20000004000 + 2 ^ 256 * 8 + 2 ^ 400 * 1))) ∧
  ((fun (r : QRef) (hr : HostRead) (s : State) =>
    (dispatches dFILL r hr s)) ⟨.A, 3⟩ .unused (testQueue (3 + 2 ^ 128 * 0x20000003000 + 2 ^ 192 * 8))) ∧
  ((fun (r : QRef) (hr : HostRead) (s : State) =>
    (dispatches dFENCE r hr s)) ⟨.A, 3⟩ .unused (testQueue (5))) ∧
  ((fun (r : QRef) (hr : HostRead) (s : State) =>
    (dispatches dSIGNAL r hr s)) ⟨.A, 3⟩ .unused (testQueue (6 + 2 ^ 144 + 2 ^ 176))) ∧
  ((fun (r : QRef) (hr : HostRead) (s : State) =>
    (dispatches dWAIT r hr s)) ⟨.A, 3⟩ .unused (testQueue (7))) ∧
  ((fun (r : QRef) (hr : HostRead) (s : State) =>
    (dispatches dEVENT r hr s)) ⟨.A, 3⟩ .unused (testQueue (8))) ∧
  ((fun (r : QRef) (hr : HostRead) (c : Nat) (s : State) =>
    let d := descRead r hr s
    (s.answers (.seq r.half)) ∧ (s.seqState r.half = 1) ∧ (s.draining = false) ∧ ((s.queue r.half r.q.val).canTake) ∧ (((s.queue r.half r.q.val).ctx.dsp = 0 && s.holds [((s.queue r.half r.q.val).ctx.dring + 128 * (s.queue r.half r.q.val).next, 128)]) = false) ∧ (s.armed (.seq r.half) 12 = false) ∧ (d.2.1) ∧ (d.2.2.1 = false) ∧ (bits d.2.2.2 7 0 = dFILL) ∧ (s.canDispatch r.half r.q.val d.2.2.2) ∧ (s.mayGo r.half r.q.val) ∧ (d.1.descCheck r.half ((s.partOfQ r.half r.q.val).getD 0) d.2.2.2 = some c)) ⟨.A, 3⟩ .unused 0x82 (testQueue 3)) ∧
  ((fun (r : QRef) (hr : HostRead) (s : State) =>
    let d := descRead r hr s
    (s.answers (.seq r.half)) ∧ (s.seqState r.half = 1) ∧ (s.draining = false) ∧ ((s.queue r.half r.q.val).canTake) ∧ (((s.queue r.half r.q.val).ctx.dsp = 0 && s.holds [((s.queue r.half r.q.val).ctx.dring + 128 * (s.queue r.half r.q.val).next, 128)]) = false) ∧ (s.armed (.seq r.half) 12 = false) ∧ (d.2.1) ∧ (d.2.2.1) ∧ (s.mayGo r.half r.q.val)) ⟨.A, 3⟩ .failed ((testQueue 3).setQueue .A 3 { (testQueue 3).queue .A 3 with ctx := { ((testQueue 3).queue .A 3).ctx with dsp := 1 } })) := by
  refine ⟨?_, ?_, ?_, ?_, ?_, ?_, ?_, ?_, ?_, ?_, ?_⟩ <;> (beta_reduce; decide +kernel)

/-- The hypotheses of Obligations.DescriptorsInFlight can be met, those of each clause in turn. -/
theorem test_witness_DescriptorsInFlight :
  ((fun (r : QRef) (slot : BitVec 16) (s : State) =>
    (s.answers (.seq r.half)) ∧ ((s.waitingKernel r.half r.q.val slot.toNat).isSome) ∧ ((s.rsv r.half).contains (r.q.val, slot.toNat) = false)) ⟨.A, 3⟩ 0#16 (flyQueue qACTIVE [descOf 0 1])) ∧
  ((fun (r : QRef) (slot : BitVec 16) (d : Desc) (s : State) =>
    (s.answers (.seq r.half)) ∧ (s.draining = false) ∧ (s.waitingKernel r.half r.q.val slot.toNat = some d) ∧ (s.setAbsent r.half d.raw = false) ∧ ((s.kernelCells r.half d.raw).all (fun c => s.cellFree r.half c && !(s.heldCells r.half r.q.val slot.toNat).contains c))) ⟨.A, 3⟩ 0#16 (descOf 0 1) ((flyQueue qACTIVE [descOf 0 1]).setF (cellPage .A 0) R.cell.BLK_CTL_EN 1)) ∧
  ((fun (r : QRef) (slot : BitVec 16) (d : Desc) (s : State) =>
    (s.answers (.seq r.half)) ∧ (s.draining = false) ∧ (s.waitingKernel r.half r.q.val slot.toNat = some d) ∧ (s.setAbsent r.half d.raw)) ⟨.A, 3⟩ 0#16 (descOf 0 (1 + 2 ^ 216)) (flyQueue qACTIVE [descOf 0 (1 + 2 ^ 216)])) ∧
  ((fun (h : Half) (c : Fin 288) (k : KCtx) (e : Nat × Nat) (s : State) =>
    ((s.cell h c.val).ctx = some k) ∧ ((s.cell h c.val).ended = some e)) .A 0 ⟨3, 0, 0, 0, 0, 0, 0⟩ (0, 0) ((flyQueue qACTIVE [{ descOf 0 1 with started := true, cells := [0] }]).setCell .A 0 { cellInit with ctx := some ⟨3, 0, 0, 0, 0, 0, 0⟩, ended := some (0, 0) })) ∧
  ((fun (r : QRef) (slot : BitVec 16) (d : Desc) (s : State) =>
    (s.desc r.half r.q.val slot.toNat = some d) ∧ (d.type = dKERNEL) ∧ (d.started) ∧ (d.done = false) ∧ (s.kernelLimit r.half r.q.val d)) ⟨.A, 3⟩ 0#16 { descOf 0 (1 + 2 ^ 832) with started := true, cells := [0] } (flyQueue qACTIVE [{ descOf 0 (1 + 2 ^ 832) with started := true, cells := [0] }])) ∧
  ((fun (h : Half) (q : Fin 512) (slot : BitVec 16) (d : Desc) (s : State) =>
    (s.desc h q.val slot.toNat = some d) ∧ (d.type = dWAIT) ∧ (d.done = false)) .A 3 0#16 (descOf 0 7) (flyQueue qACTIVE [descOf 0 7])) ∧
  ((fun (h : Half) (c : Fin 288) (s : State) =>
    ((s.cell h c.val).wait.isSome)) .A 5 ((testCell 0).setCell .A 5 { (testCell 0).cell .A 5 with wait := some (0, 1) })) ∧
  ((fun (r : QRef) (slot : BitVec 16) (d : Desc) (s : State) =>
    (s.answers (.seq r.half)) ∧ (s.desc r.half r.q.val slot.toNat = some d) ∧ (d.done) ∧ ((d.stream && d.status = 0 && s.holds (descSpans d.raw)) = false)) ⟨.A, 3⟩ 0#16 { descOf 0 1 with done := true } (flyQueue qACTIVE [{ descOf 0 1 with done := true }])) := by
  refine ⟨?_, ?_, ?_, ?_, ?_, ?_, ?_, ?_⟩ <;> (beta_reduce; decide +kernel)

/-- The hypotheses of Obligations.MemoryAccesses can be met, those of each clause in turn. -/
theorem test_witness_MemoryAccesses :
  ((fun (r : LineReq) (p : Fin 8) (s : State) =>
    (r.wf) ∧ (r.part = some p) ∧ (s.inWindow r.half p.val r.addr.toNat r.len = false)) ⟨.A, .cell, some 2, false, 0x20000000100, 8, [], 0, .none⟩ 2 upState) ∧
  ((fun (r : LineReq) (p : Fin 8) (s : State) =>
    (r.wf) ∧ (r.part = some p) ∧ (s.inWindow r.half p.val r.addr.toNat r.len) ∧ (s.isHeld r.addr.toNat = false)) ⟨.A, .cell, some 0, true, 0x20000000100, 2, [1, 2], 0, .none⟩ 0 (testQueue 0)) ∧
  ((fun (r : LineReq) (s : State) =>
    (r.wf) ∧ (r.part = none) ∧ (s.isHeld r.addr.toNat = false)) ⟨.A, .device, none, false, 0x20000000100, 8, [], 0, .none⟩ (testQueue 0)) ∧
  ((fun (r : LineReq) (s : State) =>
    (r.wf) ∧ (r.part = none) ∧ (s.isHeld r.addr.toNat)) ⟨.A, .device, none, false, 0, 8, [], 0, .none⟩ upState) ∧
  ((fun (r : LineReq) (s : State) =>
    (r.wf = false)) ⟨.A, .device, none, false, 0, 0, [], 0, .none⟩ upState) := by
  refine ⟨?_, ?_, ?_, ?_, ?_⟩ <;> (beta_reduce; decide +kernel)

/-- The hypotheses of Obligations.MemoryControllers can be met, those of each clause in turn. -/
theorem test_witness_MemoryControllers :
  ((fun (m : Master) (h : Half) (i : Fin 5) (value : Word) (s : State) =>
    (s.reaches m) ∧ (s.answers (.comb h))) .cc .A 0 0#32 upState) ∧
  ((fun (h : Half) (i : Fin 12) (e : GroupEyes) (x : TrainSt) (s : State) =>
    (s.mem.train.find? (fun y => y.1 = 12 * halfNo h + i.val) = some (12 * halfNo h + i.val, x)) ∧ (s.getF (.hbmc h i) R.hbmc.BLK_STS_STATE = 2) ∧ (x.group < 3)) .A 2 ⟨70, 0, 100⟩ ⟨0, false, true, 255⟩ (let u := upState.setF (.hbmc .A 2) R.hbmc.BLK_STS_STATE 2; { u with mem := { u.mem with train := [(2, ⟨0, false, true, 255⟩)] } })) ∧
  ((fun (h : Half) (i : Fin 12) (e : GroupEyes) (x : TrainSt) (s : State) =>
    (s.mem.train.find? (fun y => y.1 = 12 * halfNo h + i.val) = some (12 * halfNo h + i.val, x)) ∧ (s.getF (.hbmc h i) R.hbmc.BLK_STS_STATE = 2) ∧ (3 ≤ x.group)) .A 2 ⟨70, 0, 100⟩ ⟨3, false, true, 255⟩ (let u := upState.setF (.hbmc .A 2) R.hbmc.BLK_STS_STATE 2; { u with mem := { u.mem with train := [(2, ⟨3, false, true, 255⟩)] } })) ∧
  ((fun (m : Master) (h : Half) (i : Fin 12) (s : State) =>
    (s.reaches m) ∧ (s.answers (.hbmc h i)) ∧ (s.getF (.hbmc h i) R.hbmc.BLK_STS_STATE = 4)) .cc .A 2 (upState.setF (.hbmc .A 2) R.hbmc.BLK_STS_STATE 4)) ∧
  ((fun (m : Master) (h : Half) (i : Fin 12) (s : State) =>
    (s.reaches m) ∧ (s.answers (.hbmc h i)) ∧ (s.getF (.hbmc h i) R.hbmc.BLK_STS_STATE ≠ 4)) .cc .A 2 upState) ∧
  ((fun (h : Half) (i : Fin 12) (addr : BitVec 52) (u : Upset) (s : State) =>
    (s.answers (.hbmc h i)) ∧ (s.placePage addr.toNat = .hbmc h i)) .A 0 0 .corrected upState) ∧
  ((fun (h : Half) (c : Fin 8) (addr : BitVec 52) (u : Upset) (s : State) =>
    (s.answers (.ddrc h c)) ∧ (s.placePage addr.toNat = .ddrc h c)) .A 0 0x100000000000 .corrected ((upState.setFs (.comb .A) [(R.comb.TIER_CFG_DDR_CH, 1)]).setF (ddrPage .A 0) R.ddrc.DIMM_CFG_CAP_GIB 64)) ∧
  ((fun (h : Half) (addr : BitVec 52) (u : Upset) (s : State) =>
    (s.answers (.comb h)) ∧ ((match s.place addr.toNat with | .scratch _ _ => false | _ => true) = true) ∧ (cached (s.cache h) (addr.toNat / 128))) .A 0 .uncorrectable { upState with mem := { upState.mem with cacheA := [(0, ⟨false, true, 0⟩)] } }) ∧
  ((fun (h : Half) (addr : BitVec 52) (u : Upset) (off : Nat) (s : State) =>
    (s.answers (.comb h)) ∧ (s.place addr.toNat = .scratch h off) ∧ (u ≠ .tag) ∧ (u ≠ .none)) .A 0x20000000040 .uncorrectable 64 (testQueue 0)) ∧
  ((fun (h : Half) (i : Fin 12) (addr : BitVec 52) (s : State) =>
    (s.answers (.hbmc h i)) ∧ (s.placePage addr.toNat = .hbmc h i) ∧ (s.mem.poison.contains (addr.toNat / 64))) .A 0 0 { upState with mem := { upState.mem with poison := [0] } }) ∧
  ((fun (h : Half) (c : Fin 8) (addr : BitVec 52) (s : State) =>
    (s.answers (.ddrc h c)) ∧ (s.placePage addr.toNat = .ddrc h c) ∧ (s.mem.poison.contains (addr.toNat / 64))) .A 0 0x100000000000 (let u := ((upState.setFs (.comb .A) [(R.comb.TIER_CFG_DDR_CH, 1)]).setF (ddrPage .A 0) R.ddrc.DIMM_CFG_CAP_GIB 64); { u with mem := { u.mem with poison := [0x100000000000 / 64] } })) ∧
  ((fun (h : Half) (i : Fin 12) (slice : Fin 72) (why : RetireCause) (s : State) =>
    (s.answers (.hbmc h i)) ∧ (s.getF (.hbmc h i) R.hbmc.BLK_STS_STATE ≠ 5) ∧ (s.retired h i.val slice.val = false)) .A 0 3 .correctedErrors upState) ∧
  ((fun (h : Half) (c : Fin 8) (s : State) =>
    (s.answers (.ddrc h c)) ∧ (s.getF (.ddrc h c) R.ddrc.BLK_STS_STATE = 2)) .A 0 (upState.setF (.ddrc .A 0) R.ddrc.BLK_STS_STATE 2)) ∧
  ((fun (h : Half) (c : Fin 8) (pass : Bool) (eye : BitVec 8) (t100 : BitVec 8) (s : State) =>
    (s.answers (.ddrc h c)) ∧ (s.getF (.ddrc h c) R.ddrc.BLK_STS_STATE = 1)) .A 0 true 40 3 (upState.setF (.ddrc .A 0) R.ddrc.BLK_STS_STATE 1)) ∧
  ((fun (h : Half) (c : Fin 8) (s : State) =>
    (s.answers (.ddrc h c)) ∧ (s.getF (.ddrc h c) R.ddrc.BLK_STS_STATE = 0) ∧ (mhas s.mem.dimms (chanKey h c.val) = false) ∧ (s.spdOut.contains (chanKey h c.val) = false)) .A 0 upState) ∧
  ((fun (h : Half) (s : State) =>
    (s.answers (.comb h)) ∧ (s.tierChans h = []) ∧ ((List.range 8).all (fun c => s.getF (ddrPage h c) R.ddrc.BLK_STS_STATE = 2 || s.getF (ddrPage h c) R.ddrc.BLK_STS_STATE = 3 || (s.getF (ddrPage h c) R.ddrc.BLK_STS_STATE = 0 && s.spdOut.contains (chanKey h c))))) .A (foldOver (List.range 8) (fun c (u : State) => u.setF (ddrPage .A c) R.ddrc.BLK_STS_STATE 2) upState)) ∧
  ((fun (h : Half) (c : Fin 8) (addr : BitVec 52) (retriesFail : Bool) (s : State) =>
    (s.answers (.ddrc h c)) ∧ (retriesFail)) .A 0 0 true upState) ∧
  ((fun (h : Half) (c : Fin 8) (addr : BitVec 52) (retriesFail : Bool) (s : State) =>
    (retriesFail = false)) .A 0 0 false upState) := by
  refine ⟨?_, ?_, ?_, ?_, ?_, ?_, ?_, ?_, ?_, ?_, ?_, ?_, ?_, ?_, ?_, ?_, ?_, ?_⟩ <;> (beta_reduce; decide +kernel)

/-- The hypotheses of Obligations.MeshPackets can be met, those of each clause in turn. -/
theorem test_witness_MeshPackets :
  ((fun (h : Half) (s : State) =>
    (s.halfUp h)) .A upState) ∧
  ((fun (p : MeshPkt) (s : State) =>
    (s.halfUp p.half) ∧ (isEndpoint p.half p.dstQ.val p.dstR.val p.dstP = false)) ⟨.A, .req, 0, 3, .v, 1, 2, .h, .now, [], .none, .none⟩ upState) ∧
  ((fun (p : MeshPkt) (s : State) =>
    let w := s.arbiters p.half (s.pktAge p) ((pktSites p).zip (p.arbs ++ List.replicate (pktSites p).length arbNone))
    (s.halfUp p.half) ∧ (isEndpoint p.half p.dstQ.val p.dstR.val p.dstP) ∧ (w.2) ∧ (w.1.armed (nocPage p.half p.dstQ.val) 9 = false) ∧ (w.1.armed (nocPage p.half p.dstQ.val) 10 = false)) ⟨.A, .req, 0, 3, .v, 1, 2, .c, .now, [⟨0, [(1, 3)], 2, 0⟩], .corrected, .none⟩ upState) ∧
  ((fun (p : MeshPkt) (s : State) =>
    let w := s.arbiters p.half (s.pktAge p) ((pktSites p).zip (p.arbs ++ List.replicate (pktSites p).length arbNone))
    (s.halfUp p.half) ∧ (isEndpoint p.half p.dstQ.val p.dstR.val p.dstP) ∧ (w.2 = false)) ⟨.A, .req, 0, 3, .v, 1, 2, .c, .now, [⟨0, [], 0, 8⟩], .none, .none⟩ upState) ∧
  ((fun (h : Half) (q : Fin 4) (addr : BitVec 52) (cell : Option (Fin 288)) (s : State) =>
    (s.halfUp h)) .A 0 0 none upState) ∧
  ((fun (h : Half) (q : Fin 4) (addr : BitVec 52) (s : State) =>
    (s.halfUp h)) .A 0 0 upState) ∧
  ((fun (h : Half) (q : Fin 4) (addr : BitVec 52) (c : Fin 288) (s : State) =>
    (s.halfUp h) ∧ ((s.cell h c.val).ctx.isSome) ∧ ((s.cell h c.val).ended = none)) .A 0 0 5 (testCell 0)) := by
  refine ⟨?_, ?_, ?_, ?_, ?_, ?_, ?_⟩ <;> (beta_reduce; decide +kernel)

/-- The hypotheses of Obligations.HingeAndModules can be met, those of each clause in turn. -/
theorem test_witness_HingeAndModules :
  ((fun (h : Half) (b : Fin 16) (f : HingeFlit) (s : State) =>
    let got := f.flips.foldl flipBit f.bytes
    let y := s.dl (farEnd h b)
    let t := s.setDl (farEnd h b) { y with next := (y.next + 1) % 65536, sent := [{ seq := hfSeq f.bytes, bytes := f.bytes, flow := f.flow }] }
    (s.answers (.hinge h b)) ∧ (f.bytes.length = 256) ∧ (s.bundleUp b) ∧ ((s.dl (farEnd h b)).sent = []) ∧ (hfSeq f.bytes = (s.dl (farEnd h b)).next) ∧ (s.pickBundle f.flow = some b) ∧ (s.armed (.hinge h b) 10 = false) ∧ (hfGood got) ∧ (hfSeq got = ((t.hingeAcked h b (hfAck got) f.nak).dl (.hinge h b)).exp) ∧ (((t.hingeAcked h b (hfAck got) f.nak).dl (.hinge h b)).bad = none)) .A 2 ⟨(hfNumber (List.replicate 256 0) 0 0), false, .ctl, []⟩ ((upState.setBundle 2 hgFULL).setRole 2 1)) ∧
  ((fun (h : Half) (b : Fin 16) (f : HingeFlit) (s : State) =>
    let got := f.flips.foldl flipBit f.bytes
    let y := s.dl (farEnd h b)
    let t := s.setDl (farEnd h b) { y with next := (y.next + 1) % 65536, sent := [{ seq := hfSeq f.bytes, bytes := f.bytes, flow := f.flow }] }
    (s.answers (.hinge h b)) ∧ (f.bytes.length = 256) ∧ (s.bundleUp b) ∧ ((s.dl (farEnd h b)).sent = []) ∧ (hfSeq f.bytes = (s.dl (farEnd h b)).next) ∧ (s.pickBundle f.flow = some b) ∧ (s.armed (.hinge h b) 10 = false) ∧ (hfGood got) ∧ (hfSeq got ≠ ((t.hingeAcked h b (hfAck got) f.nak).dl (.hinge h b)).exp)) .A 2 ⟨(hfNumber (List.replicate 256 0) 0 0), false, .ctl, []⟩ (((upState.setBundle 2 hgFULL).setRole 2 1).setDl (.hinge .A 2) { dlInit with exp := 5 })) ∧
  ((fun (h : Half) (b : Fin 16) (f : HingeFlit) (s : State) =>
    let got := f.flips.foldl flipBit f.bytes
    let y := s.dl (farEnd h b)
    let t := s.setDl (farEnd h b) { y with next := (y.next + 1) % 65536, sent := [{ seq := hfSeq f.bytes, bytes := f.bytes, flow := f.flow }] }
    (s.answers (.hinge h b)) ∧ (f.bytes.length = 256) ∧ (s.bundleUp b) ∧ ((s.dl (farEnd h b)).sent = []) ∧ (hfSeq f.bytes = (s.dl (farEnd h b)).next) ∧ (s.pickBundle f.flow = some b) ∧ (s.armed (.hinge h b) 10 = false) ∧ (hfGood got = false)) .A 2 ⟨(hfNumber (List.replicate 256 0) 0 0), false, .ctl, [9]⟩ ((upState.setBundle 2 hgFULL).setRole 2 1)) ∧
  ((fun (h : Half) (b : Fin 16) (f : HingeFlit) (s : State) =>
    (s.bundleUp b = false)) .A 2 ⟨(hfNumber (List.replicate 256 0) 0 0), false, .ctl, []⟩ upState) ∧
  ((fun (h : Half) (k : Fin 32) (f : HingeFlit) (s : State) =>
    (s.answers (.ucie h k)) ∧ (f.bytes.length = 256) ∧ (s.dlState (.ucie h k) = ucACTIVE) ∧ (s.armed (.ucie h k) 10 = false) ∧ (f.flips ≠ [])) .A 2 ⟨(hfNumber (List.replicate 256 0) 0 0), false, .ctl, [9]⟩ (upState.setF (.ucie .A 2) R.dlink.BLK_STS_STATE ucACTIVE)) ∧
  ((fun (h : Half) (b : Fin 16) (s : State) =>
    (s.answers (dlPage (.hinge h b))) ∧ (s.bundleUp b) ∧ ((s.dl (.hinge h b)).since > 0)) .A 2 ((upState.setBundle 2 hgFULL).setDl (.hinge .A 2) { dlInit with since := 3 })) ∧
  ((fun (b : Fin 16) (why : BreakCause) (s : State) =>
    (s.bundleThere b) ∧ ([hgTRAINING, hgFULL, hgHALF].contains (s.dlState (.hinge .A b)))) 2 .training (upState.setBundle 2 hgFULL)) ∧
  ((fun (b : Fin 16) (badA badB : List (Fin 68)) (pass : Bool) (s : State) =>
    let t := foldOver badB (fun k (u : State) => u.noteLane (.hinge .B b) k.val) (foldOver badA (fun k (u : State) => u.noteLane (.hinge .A b) k.val) s)
    let n := min ((t.setRetry b false).goodLanes (.hinge .A b)).length ((t.setRetry b false).goodLanes (.hinge .B b)).length
    (s.bundleThere b) ∧ (s.dlState (.hinge .A b) = hgTRAINING) ∧ (32 ≤ n) ∧ (pass)) 2 [7] [] true (upState.setBundle 2 hgTRAINING)) ∧
  ((fun (b : Fin 16) (badA badB : List (Fin 68)) (pass : Bool) (s : State) =>
    let t := foldOver badB (fun k (u : State) => u.noteLane (.hinge .B b) k.val) (foldOver badA (fun k (u : State) => u.noteLane (.hinge .A b) k.val) s)
    (s.bundleThere b) ∧ (s.dlState (.hinge .A b) = hgTRAINING) ∧ (pass = false)) 2 [] [7] false (upState.setBundle 2 hgTRAINING)) ∧
  ((fun (h : Half) (b : Fin 16) (lane : Fin 68) (s : State) =>
    (s.answers (.hinge h b)) ∧ ((s.dl (.hinge h b)).failed.contains lane.val = false) ∧ (s.dlState (.hinge h b) ≠ hgTRAINING) ∧ (s.bundleUp b)) .A 2 5 (upState.setBundle 2 hgFULL)) ∧
  ((fun (h : Half) (b : Fin 16) (lane : Fin 68) (s : State) =>
    (s.answers (.hinge h b)) ∧ ((s.dl (.hinge h b)).failed.contains lane.val = false) ∧ (s.dlState (.hinge h b) = hgTRAINING)) .A 2 5 (upState.setBundle 2 hgTRAINING)) ∧
  ((fun (h : Half) (k : Fin 32) (lane : Fin 68) (s : State) =>
    (s.answers (.ucie h k)) ∧ ((s.dl (.ucie h k)).failed.contains lane.val = false)) .A 2 5 upState) ∧
  ((fun (m : Master) (h : Half) (b : Fin 16) (s : State) =>
    (s.reaches m) ∧ (s.answers (.hinge h b)) ∧ (s.bundleUp b)) .cc .A 2 (upState.setBundle 2 hgFULL)) ∧
  ((fun (m : Master) (h : Half) (b : Fin 16) (s : State) =>
    (s.reaches m) ∧ (s.answers (.hinge h b)) ∧ (s.bundleUp b = false)) .cc .A 2 upState) ∧
  ((fun (m : Master) (h : Half) (k : Fin 32) (s : State) =>
    (s.reaches m) ∧ (s.answers (.ucie h k)) ∧ (s.dlState (.ucie h k) = ucACTIVE)) .cc .A 2 (upState.setF (.ucie .A 2) R.dlink.BLK_STS_STATE ucACTIVE)) ∧
  ((fun (m : Master) (h : Half) (k : Fin 32) (bad : List (Fin 68)) (s : State) =>
    (s.reaches m) ∧ (s.answers (.ucie h k)) ∧ (s.isSet (.ucie h k) R.hdr.BLK_STS_RESET_BUSY = false) ∧ (s.dlState (.ucie h k) ≠ ucDISABLED)) .cc .A 2 [7] upState) ∧
  ((fun (m : Master) (h : Half) (b : Fin 16) (bad : List (Fin 68)) (s : State) =>
    (s.reaches m) ∧ (s.bundleThere b) ∧ (s.answers (.hinge h b)) ∧ (s.isSet (.hinge h b) R.hdr.BLK_STS_RESET_BUSY = false)) .cc .A 2 [7] (upState.setBundle 2 hgFULL)) ∧
  ((fun (m : Master) (l : DieLink) (bad : List (Fin 68)) (s : State) =>
    (s.reaches m) ∧ (s.answers (dlPage l)) ∧ (s.isSet (dlPage l) R.hdr.BLK_STS_RESET_BUSY)) .cc (.hinge .A 2) [] (upState.setF (.hinge .A 2) R.hdr.BLK_STS_RESET_BUSY 1)) ∧
  ((fun (h : Half) (k : Fin 32) (why : BreakCause) (s : State) =>
    (s.answers (dlPage (.ucie h k))) ∧ (s.dlState (.ucie h k) ≠ ucBROKEN) ∧ (s.dlState (.ucie h k) ≠ ucDISABLED)) .A 2 .training upState) ∧
  ((fun (m : Master) (h : Half) (k : Fin 32) (s : State) =>
    (s.reaches m) ∧ (s.answers (.ucie h k)) ∧ (s.isSet (.ucie h k) ucieEn)) .cc .A 2 upState) := by
  refine ⟨?_, ?_, ?_, ?_, ?_, ?_, ?_, ?_, ?_, ?_, ?_, ?_, ?_, ?_, ?_, ?_, ?_, ?_, ?_, ?_⟩ <;> (beta_reduce; decide +kernel)

/-- The hypotheses of Obligations.AttachFirewall can be met, those of each clause in turn. -/
theorem test_witness_AttachFirewall :
  ((fun (h : Half) (o : Fin 8) (r : OeReq) (s : State) =>
    (s.answers (.fwall h)) ∧ (s.answers (.oe h o)) ∧ (s.oeFenced h o = false)) .A 2 ⟨false, 0, false, false⟩ upState) ∧
  ((fun (h : Half) (o : Fin 8) (r : OeReq) (s : State) =>
    (s.answers (.fwall h)) ∧ (s.oeFenced h o)) .A 2 ⟨false, 0, false, false⟩ (upState.orF (.fwall .A) R.fwall.BLK_STS_FENCED_OE 4)) ∧
  ((fun (h : Half) (o : Fin 8) (win : Fin 17) (w : FwWin) (s : State) =>
    (s.answers (.fwall h)) ∧ ((oePorts h o).any (fun p => s.lstate p = 2 || s.lstate p = 3) = false)) .A 2 3 ⟨0, 1, true, true, true⟩ upState) ∧
  ((fun (h : Half) (o : Fin 8) (win : Fin 17) (w : FwWin) (s : State) =>
    ((oePorts h o).any (fun p => s.lstate p = 2 || s.lstate p = 3))) .A 2 3 ⟨0, 1, true, true, true⟩ (upState.setL ⟨.A, 17⟩ 2)) := by
  refine ⟨?_, ?_, ?_, ?_⟩ <;> (beta_reduce; decide +kernel)

/-- The hypotheses of Obligations.CollectiveStart can be met, those of each clause in turn. -/
theorem test_witness_CollectiveStart :
  ((fun (r : QRef) (hr : HostRead) (s : State) =>
    let d := descNow r hr s
    let t := dispatched r hr s
    let p := (t.partOfQ r.half r.q.val).getD 0
    let u := bits d.raw 143 128 / 256
    let first := t.getF (.comb r.half) (R.comb.PF_SWARM_FIRST.ix p)
    (dispatches dCOLL r hr s) ∧ (t.partTag p = none ∨ u < first ∨ first + t.getF (.comb r.half) (R.comb.PF_SWARM_CNT.ix p) ≤ u)) ⟨.A, 3⟩ .unused (testQueue (collWord 0 2))) ∧
  ((fun (r : QRef) (hr : HostRead) (s : State) =>
    let d := descNow r hr s
    let t := dispatched r hr s
    let p := (t.partOfQ r.half r.q.val).getD 0
    let u := bits d.raw 143 128 / 256
    let first := t.getF (.comb r.half) (R.comb.PF_SWARM_FIRST.ix p)
    (dispatches dCOLL r hr s) ∧ ((t.partTag p).isSome) ∧ (first ≤ u) ∧ (u < first + t.getF (.comb r.half) (R.comb.PF_SWARM_CNT.ix p)) ∧ (t.loaded r.half p = false)) ⟨.A, 3⟩ .unused { collState 5 0 2 with fctx := [] }) ∧
  ((fun (r : QRef) (hr : HostRead) (s : State) =>
    let d := descNow r hr s
    let t := dispatched r hr s
    let p := (t.partOfQ r.half r.q.val).getD 0
    let u := bits d.raw 143 128 / 256
    let first := t.getF (.comb r.half) (R.comb.PF_SWARM_FIRST.ix p)
    let e := t.memRead r.half .dma 0 (bits (t.fctxOf r.half p).raw 319 256 + (bits d.raw 143 128 - first * 256) * 64) 64
    (dispatches dCOLL r hr s) ∧ ((t.partTag p).isSome) ∧ (first ≤ u) ∧ (u < first + t.getF (.comb r.half) (R.comb.PF_SWARM_CNT.ix p)) ∧ (t.loaded r.half p) ∧ (e.2.1 ≠ 0)) ⟨.A, 3⟩ .unused { collState 5 0 2 with fctx := [(0, { fctxInit with raw := 2 ^ 256 * 2 ^ 51 })] }) ∧
  ((fun (r : QRef) (hr : HostRead) (s : State) =>
    let d := descNow r hr s
    let t := dispatched r hr s
    let p := (t.partOfQ r.half r.q.val).getD 0
    let u := bits d.raw 143 128 / 256
    let first := t.getF (.comb r.half) (R.comb.PF_SWARM_FIRST.ix p)
    let e := t.memRead r.half .dma 0 (bits (t.fctxOf r.half p).raw 319 256 + (bits d.raw 143 128 - first * 256) * 64) 64
    let w := natOf e.2.2
    let n := bits w 12 1 + 1
    let l := e.1.memberList r.half (bits w 83 32) n
    (dispatches dCOLL r hr s) ∧ ((t.partTag p).isSome) ∧ (first ≤ u) ∧ (u < first + t.getF (.comb r.half) (R.comb.PF_SWARM_CNT.ix p)) ∧ (t.loaded r.half p) ∧ (e.2.1 = 0) ∧ (l.2.1 ≠ 0)) ⟨.A, 3⟩ .unused ((collState 5 0 2).wr 0x20000005000 (bytesOf 64 (1 + 2 ^ 32 * 2 ^ 51)))) ∧
  ((fun (r : QRef) (hr : HostRead) (s : State) =>
    let d := descNow r hr s
    let t := dispatched r hr s
    let p := (t.partOfQ r.half r.q.val).getD 0
    let u := bits d.raw 143 128 / 256
    let first := t.getF (.comb r.half) (R.comb.PF_SWARM_FIRST.ix p)
    let e := t.memRead r.half .dma 0 (bits (t.fctxOf r.half p).raw 319 256 + (bits d.raw 143 128 - first * 256) * 64) 64
    let w := natOf e.2.2
    let n := bits w 12 1 + 1
    let l := e.1.memberList r.half (bits w 83 32) n
    (dispatches dCOLL r hr s) ∧ ((t.partTag p).isSome) ∧ (first ≤ u) ∧ (u < first + t.getF (.comb r.half) (R.comb.PF_SWARM_CNT.ix p)) ∧ (t.loaded r.half p) ∧ (e.2.1 = 0) ∧ (l.2.1 = 0) ∧ (bit w 0 = false ∨ n ≤ bits w 24 13 ∨ l.1.isOwn (nth 0 l.2.2 (bits w 24 13)) = false ∨ repeats l.2.2)) ⟨.A, 3⟩ .unused (collState 6 0 2)) ∧
  ((fun (r : QRef) (hr : HostRead) (s : State) =>
    let d := descNow r hr s
    let t := dispatched r hr s
    let p := (t.partOfQ r.half r.q.val).getD 0
    let u := bits d.raw 143 128 / 256
    let first := t.getF (.comb r.half) (R.comb.PF_SWARM_FIRST.ix p)
    let e := t.memRead r.half .dma 0 (bits (t.fctxOf r.half p).raw 319 256 + (bits d.raw 143 128 - first * 256) * 64) 64
    let w := natOf e.2.2
    let n := bits w 12 1 + 1
    let l := e.1.memberList r.half (bits w 83 32) n
    let c : CollSt := { half := r.half, q := r.q.val, slot := d.slot, part := p, raw := d.raw, rank := bits w 24 13, fids := l.2.2, going := false, ready := [], got := [], hold := [], free := l.1.freeAhead 0, bytes := 0 }
    (dispatches dCOLL r hr s) ∧ ((t.partTag p).isSome) ∧ (first ≤ u) ∧ (u < first + t.getF (.comb r.half) (R.comb.PF_SWARM_CNT.ix p)) ∧ (t.loaded r.half p) ∧ (e.2.1 = 0) ∧ (l.2.1 = 0) ∧ (bit w 0) ∧ (bits w 24 13 < n) ∧ (l.1.isOwn (nth 0 l.2.2 (bits w 24 13))) ∧ (repeats l.2.2 = false) ∧ (c.op = 1 ∨ c.op = 3) ∧ (c.count % n ≠ 0)) ⟨.A, 3⟩ .unused ((collState 5 1 3).wr 0x20000005000 (bytesOf 64 (1 + 2 + 2 ^ 32 * 0x20000006000)))) ∧
  ((fun (r : QRef) (hr : HostRead) (s : State) =>
    let d := descNow r hr s
    let t := dispatched r hr s
    let p := (t.partOfQ r.half r.q.val).getD 0
    let u := bits d.raw 143 128 / 256
    let first := t.getF (.comb r.half) (R.comb.PF_SWARM_FIRST.ix p)
    let e := t.memRead r.half .dma 0 (bits (t.fctxOf r.half p).raw 319 256 + (bits d.raw 143 128 - first * 256) * 64) 64
    let w := natOf e.2.2
    let n := bits w 12 1 + 1
    let l := e.1.memberList r.half (bits w 83 32) n
    let c : CollSt := { half := r.half, q := r.q.val, slot := d.slot, part := p, raw := d.raw, rank := bits w 24 13, fids := l.2.2, going := false, ready := [], got := [], hold := [], free := l.1.freeAhead 0, bytes := 0 }
    (dispatches dCOLL r hr s) ∧ ((t.partTag p).isSome) ∧ (first ≤ u) ∧ (u < first + t.getF (.comb r.half) (R.comb.PF_SWARM_CNT.ix p)) ∧ (t.loaded r.half p) ∧ (e.2.1 = 0) ∧ (l.2.1 = 0) ∧ (bit w 0) ∧ (bits w 24 13 < n) ∧ (l.1.isOwn (nth 0 l.2.2 (bits w 24 13))) ∧ (repeats l.2.2 = false) ∧ ((c.op = 1 ∨ c.op = 3) → c.count % n = 0) ∧ (below52 c.dst (c.resultLen * c.es) = false)) ⟨.A, 3⟩ .unused (((collState 5 2 32).setF (.comb .A) (R.comb.WIN_LIMIT_LIMIT.ix2 0 0) (2 ^ 31 - 1)).wr 0x20000000000 (bytesOf 128 (collWord 2 32 + 2 ^ 256 * (2 ^ 52 - 64 - 0x20000004000))))) ∧
  ((fun (r : QRef) (hr : HostRead) (s : State) =>
    let d := descNow r hr s
    let t := dispatched r hr s
    let p := (t.partOfQ r.half r.q.val).getD 0
    let u := bits d.raw 143 128 / 256
    let first := t.getF (.comb r.half) (R.comb.PF_SWARM_FIRST.ix p)
    let e := t.memRead r.half .dma 0 (bits (t.fctxOf r.half p).raw 319 256 + (bits d.raw 143 128 - first * 256) * 64) 64
    let w := natOf e.2.2
    let n := bits w 12 1 + 1
    let l := e.1.memberList r.half (bits w 83 32) n
    let c : CollSt := { half := r.half, q := r.q.val, slot := d.slot, part := p, raw := d.raw, rank := bits w 24 13, fids := l.2.2, going := false, ready := [], got := [], hold := [], free := l.1.freeAhead 0, bytes := 0 }
    (dispatches dCOLL r hr s) ∧ ((t.partTag p).isSome) ∧ (first ≤ u) ∧ (u < first + t.getF (.comb r.half) (R.comb.PF_SWARM_CNT.ix p)) ∧ (t.loaded r.half p) ∧ (e.2.1 = 0) ∧ (l.2.1 = 0) ∧ (bit w 0) ∧ (bits w 24 13 < n) ∧ (l.1.isOwn (nth 0 l.2.2 (bits w 24 13))) ∧ (repeats l.2.2 = false) ∧ ((c.op = 1 ∨ c.op = 3) → c.count % n = 0) ∧ (below52 c.dst (c.resultLen * c.es)) ∧ (l.1.devOk r.half p c.dst (c.resultLen * c.es) = false)) ⟨.A, 3⟩ .unused ((collState 5 0 2).wr 0x20000000000 (bytesOf 128 (collWord 2 32 + 2 ^ 256 * (2 ^ 42 + 2 ^ 21 - 64 - 0x20000004000))))) ∧
  ((fun (r : QRef) (hr : HostRead) (s : State) =>
    let d := descNow r hr s
    let t := dispatched r hr s
    let p := (t.partOfQ r.half r.q.val).getD 0
    let u := bits d.raw 143 128 / 256
    let first := t.getF (.comb r.half) (R.comb.PF_SWARM_FIRST.ix p)
    let e := t.memRead r.half .dma 0 (bits (t.fctxOf r.half p).raw 319 256 + (bits d.raw 143 128 - first * 256) * 64) 64
    let w := natOf e.2.2
    let n := bits w 12 1 + 1
    let l := e.1.memberList r.half (bits w 83 32) n
    let c : CollSt := { half := r.half, q := r.q.val, slot := d.slot, part := p, raw := d.raw, rank := bits w 24 13, fids := l.2.2, going := false, ready := [], got := [], hold := [], free := l.1.freeAhead 0, bytes := 0 }
    (dispatches dCOLL r hr s) ∧ ((t.partTag p).isSome) ∧ (first ≤ u) ∧ (u < first + t.getF (.comb r.half) (R.comb.PF_SWARM_CNT.ix p)) ∧ (t.loaded r.half p) ∧ (e.2.1 = 0) ∧ (l.2.1 = 0) ∧ (bit w 0) ∧ (bits w 24 13 < n) ∧ (l.1.isOwn (nth 0 l.2.2 (bits w 24 13))) ∧ (repeats l.2.2 = false) ∧ ((c.op = 1 ∨ c.op = 3) → c.count % n = 0) ∧ (below52 c.dst (c.resultLen * c.es)) ∧ (l.1.devOk r.half p c.dst (c.resultLen * c.es)) ∧ ((c.peers.map (l.1.peerFit c.dt)).contains (some false))) ⟨.A, 3⟩ .unused { (collState 5 0 2).wr 0x20000005000 (bytesOf 64 (1 + 2 + 2 ^ 32 * 0x20000006000)) with partners := [(0, { fid := 7, uid := 0, session := 0, cls := 0, caps := 0, tags := [], ver := 0, st := 3, ports := [], used := 0 })] }) ∧
  ((fun (r : QRef) (hr : HostRead) (s : State) =>
    let d := descNow r hr s
    let t := dispatched r hr s
    let p := (t.partOfQ r.half r.q.val).getD 0
    let u := bits d.raw 143 128 / 256
    let first := t.getF (.comb r.half) (R.comb.PF_SWARM_FIRST.ix p)
    let e := t.memRead r.half .dma 0 (bits (t.fctxOf r.half p).raw 319 256 + (bits d.raw 143 128 - first * 256) * 64) 64
    let w := natOf e.2.2
    let n := bits w 12 1 + 1
    let l := e.1.memberList r.half (bits w 83 32) n
    let c : CollSt := { half := r.half, q := r.q.val, slot := d.slot, part := p, raw := d.raw, rank := bits w 24 13, fids := l.2.2, going := false, ready := [], got := [], hold := [], free := l.1.freeAhead 0, bytes := 0 }
    (dispatches dCOLL r hr s) ∧ ((t.partTag p).isSome) ∧ (first ≤ u) ∧ (u < first + t.getF (.comb r.half) (R.comb.PF_SWARM_CNT.ix p)) ∧ (t.loaded r.half p) ∧ (e.2.1 = 0) ∧ (l.2.1 = 0) ∧ (bit w 0) ∧ (bits w 24 13 < n) ∧ (l.1.isOwn (nth 0 l.2.2 (bits w 24 13))) ∧ (repeats l.2.2 = false) ∧ ((c.op = 1 ∨ c.op = 3) → c.count % n = 0) ∧ (below52 c.dst (c.resultLen * c.es)) ∧ (l.1.devOk r.half p c.dst (c.resultLen * c.es)) ∧ ((c.peers.map (l.1.peerFit c.dt)).contains (some false) = false) ∧ (l.1.aborted.contains (c.swarm, c.cseq))) ⟨.A, 3⟩ .unused { collState 5 0 2 with aborted := [(0, 0)] }) ∧
  ((fun (r : QRef) (hr : HostRead) (s : State) =>
    let d := descNow r hr s
    let t := dispatched r hr s
    let p := (t.partOfQ r.half r.q.val).getD 0
    let u := bits d.raw 143 128 / 256
    let first := t.getF (.comb r.half) (R.comb.PF_SWARM_FIRST.ix p)
    let e := t.memRead r.half .dma 0 (bits (t.fctxOf r.half p).raw 319 256 + (bits d.raw 143 128 - first * 256) * 64) 64
    let w := natOf e.2.2
    let n := bits w 12 1 + 1
    let l := e.1.memberList r.half (bits w 83 32) n
    let c : CollSt := { half := r.half, q := r.q.val, slot := d.slot, part := p, raw := d.raw, rank := bits w 24 13, fids := l.2.2, going := false, ready := [], got := [], hold := [], free := l.1.freeAhead 0, bytes := 0 }
    (dispatches dCOLL r hr s) ∧ ((t.partTag p).isSome) ∧ (first ≤ u) ∧ (u < first + t.getF (.comb r.half) (R.comb.PF_SWARM_CNT.ix p)) ∧ (t.loaded r.half p) ∧ (e.2.1 = 0) ∧ (l.2.1 = 0) ∧ (bit w 0) ∧ (bits w 24 13 < n) ∧ (l.1.isOwn (nth 0 l.2.2 (bits w 24 13))) ∧ (repeats l.2.2 = false) ∧ ((c.op = 1 ∨ c.op = 3) → c.count % n = 0) ∧ (below52 c.dst (c.resultLen * c.es)) ∧ (l.1.devOk r.half p c.dst (c.resultLen * c.es)) ∧ ((c.peers.map (l.1.peerFit c.dt)).contains (some false) = false) ∧ (l.1.aborted.contains (c.swarm, c.cseq) = false)) ⟨.A, 3⟩ .unused (collState 5 0 2)) := by
  refine ⟨?_, ?_, ?_, ?_, ?_, ?_, ?_, ?_, ?_, ?_, ?_⟩ <;> (beta_reduce; decide +kernel)

/-- The hypotheses of Obligations.RingLoops can be met, those of each clause in turn. -/
theorem test_witness_RingLoops :
  ((fun (h : Half) (o : Fin 8) (r : RingId) (x : RingObs) (s : State) =>
    (s.answers (.oe h o)) ∧ (s.pstate h o = 3) ∧ (s.ring1 h o (ringKey r.port.val r.tx r.ring.val) ≠ ringInit) ∧ ((s.ring1 h o (ringKey r.port.val r.tx r.ring.val)).parked = false)) .A 2 ⟨1, false, 3⟩ ⟨100, 5, []⟩ (oeState.setRing1 .A 2 (ringKey 1 false 3) { ringInit with heater := 5000 })) ∧
  ((fun (m : Master) (h : Half) (o : Fin 8) (value : Word) (s : State) =>
    (s.reaches m) ∧ (s.answers (.oe h o)) ∧ (s.isSet (.oe h o) R.hdr.BLK_STS_RESET_BUSY = false)) .cc .A 2 0x1000203#32 oeState) ∧
  ((fun (m : Master) (h : Half) (o : Fin 8) (value : Word) (s : State) =>
    (s.reaches m) ∧ (s.answers (.oe h o)) ∧ (s.isSet (.oe h o) R.hdr.BLK_STS_RESET_BUSY)) .cc .A 2 0x1000203#32 (oeState.setF (.oe .A 2) R.hdr.BLK_STS_RESET_BUSY 1)) ∧
  ((fun (h : Half) (o : Fin 8) (s : State) =>
    (s.answers (.oe h o))) .A 2 oeState) ∧
  ((fun (h : Half) (o : Fin 8) (s : State) =>
    (s.answers (.laser h o)) ∧ (s.getF (.laser h o) R.laser.TILE_BIAS_CEIL = 150)) .A 2 (oeState.setF (.laser .A 2) R.laser.TILE_BIAS_CEIL 150)) := by
  refine ⟨?_, ?_, ?_, ?_, ?_⟩ <;> (beta_reduce; decide +kernel)

/-- The hypotheses of Obligations.HandOvers can be met, those of each clause in turn. -/
theorem test_witness_HandOvers :
  ((fun (p : PortId) (n sp : Fin 18) (s : State) =>
    (s.answers p.page) ∧ (s.moveOf p n.val sp.val [.asked])) p17 1 16 (moveState .asked)) ∧
  ((fun (p : PortId) (n sp : Fin 18) (k : BitVec 16) (s : State) =>
    (s.answers p.page) ∧ (s.moveOf p n.val sp.val [.dup, .dupAgain])) p17 1 16 0#16 (moveState .dup)) ∧
  ((fun (p : PortId) (n sp : Fin 18) (s : State) =>
    (s.answers p.page) ∧ (s.moveOf p n.val sp.val [.dup])) p17 1 16 (moveState .dup)) ∧
  ((fun (p : PortId) (n sp : Fin 18) (s : State) =>
    (s.answers p.page) ∧ (s.moveOf p n.val sp.val [.dup] = false) ∧ (s.moveOf p n.val sp.val [.dupAgain])) p17 1 16 (moveState .dupAgain)) ∧
  ((fun (p : PortId) (y : HandOver) (s : State) =>
    (s.answers p.page) ∧ ((s.oe p.half p.oe.val).ho = some y) ∧ (y.moves.any (fun m => m.port = p.no && m.st ≠ .done && m.st ≠ .left))) p17 { n := 1, port := none, moves := [{ port := 17, spare := 16, st := .asked }] } (moveState .asked)) ∧
  ((fun (p : PortId) (ch : Fin 18) (s : State) =>
    (s.answers p.page) ∧ (s.linkUp (s.lead p)) ∧ (bit (s.getF p.page R.oport.PORT_STS_CH_TX) ch.val) ∧ (s.handingOver p.half p.oe ch.val (some p.no) = false)) p17 1 oeState) ∧
  ((fun (p : PortId) (n sp : Fin 18) (peaks : List Nat) (s : State) =>
    (s.answers p.page) ∧ (s.linkUp (s.lead p) = false)) p17 1 16 [] (oeState.setL p17 1)) ∧
  ((fun (p : PortId) (n sp : Fin 18) (peaks : List Nat) (s : State) =>
    (s.answers p.page) ∧ (s.linkUp (s.lead p)) ∧ ((s.port p).hoRx = some (n.val, sp.val))) p17 1 16 [] (oeState.updPort p17 (fun x => { x with hoRx := some (1, 16) }))) ∧
  ((fun (p : PortId) (n sp : Fin 18) (peaks : List Nat) (s : State) =>
    (s.answers p.page) ∧ (s.linkUp (s.lead p)) ∧ ((s.port p).hoRx ≠ some (n.val, sp.val))) p17 1 16 [3000] (oeState.setF p17.page R.oport.PORT_CFG_CLASS 1)) ∧
  ((fun (m : Master) (h : Half) (o : Fin 8) (value : Word) (s : State) =>
    (s.reaches m) ∧ (s.answers (.laser h o)) ∧ (bit value.toNat 0 = false)) .cc .A 2 0x100#32 oeState) ∧
  ((fun (m : Master) (h : Half) (o : Fin 8) (value : Word) (s : State) =>
    let t := s.setF (.laser h o) R.laser.SPARE_CTL_CH (bits value.toNat 12 8)
    (s.reaches m) ∧ (s.answers (.laser h o)) ∧ (bit value.toNat 0) ∧ (t.isSet (.laser h o) R.laser.SPARE_STS_BUSY = false) ∧ (bits value.toNat 12 8 < 16) ∧ (t.laserSt h o (bits value.toNat 12 8) = 3)) .cc .A 2 0x101#32 oeState) ∧
  ((fun (m : Master) (h : Half) (o : Fin 8) (value : Word) (s : State) =>
    let t := s.setF (.laser h o) R.laser.SPARE_CTL_CH (bits value.toNat 12 8)
    (s.reaches m) ∧ (s.answers (.laser h o)) ∧ (bit value.toNat 0) ∧ (t.isSet (.laser h o) R.laser.SPARE_STS_BUSY ∨ 16 ≤ bits value.toNat 12 8 ∨ t.laserSt h o (bits value.toNat 12 8) ≠ 3)) .cc .A 2 0x1001#32 oeState) ∧
  ((fun (h : Half) (o : Fin 8) (n : Fin 18) (s : State) =>
    (s.answers (.laser h o)) ∧ (s.laserSt h o n.val = 3)) .A 2 1 oeState) := by
  refine ⟨?_, ?_, ?_, ?_, ?_, ?_, ?_, ?_, ?_, ?_, ?_, ?_, ?_⟩ <;> (beta_reduce; decide +kernel)

/-- The hypotheses of Obligations.PowerReports can be met, those of each clause in turn. -/
theorem test_witness_PowerReports :
  ((fun (p : PortId) (g : Fin 3) (values : List (BitVec 16)) (biasHeld : BitVec 18) (s : State) =>
    (s.answers p.page) ∧ (s.linkUp (s.lead p))) p17 0 [0xFE0C#16] 0#18 oeState) ∧
  ((fun (p : PortId) (oma : List (BitVec 16)) (s : State) =>
    (s.answers p.page) ∧ (s.linkUp (s.lead p))) p17 [0xFE0C#16] oeState) ∧
  ((fun (p : PortId) (s : State) =>
    (s.answers p.page) ∧ (s.linkUp (s.lead p))) p17 oeState) := by
  refine ⟨?_, ?_, ?_⟩ <;> (beta_reduce; decide +kernel)

/-- The hypotheses of Obligations.EyeSafety can be met, those of each clause in turn. -/
theorem test_witness_EyeSafety :
  ((fun (p : PortId) (s : State) =>
    (s.answers p.page)) p17 oeState) ∧
  ((fun (p : PortId) (s : State) =>
    (s.mayProbe p)) p17 (oeState.setF (.laser .A 2) R.laser.BRANCH_CLOSED_FIBRE 2)) ∧
  ((fun (p : PortId) (x : SearchObs) (s : State) =>
    (s.mayProbe p) ∧ ((s.port p).probing = false)) p17 ⟨[], 0⟩ (oeState.setF (.laser .A 2) R.laser.BRANCH_CLOSED_FIBRE 2)) ∧
  ((fun (p : PortId) (x : SearchObs) (s : State) =>
    (s.mayProbe p) ∧ ((s.port p).probing)) p17 ⟨[], 0⟩ ((oeState.setF (.laser .A 2) R.laser.BRANCH_CLOSED_FIBRE 2).updPort p17 (fun x => { x with probing := true }))) ∧
  ((fun (m : Master) (p : PortId) (s : State) =>
    (s.reaches m) ∧ (s.answers p.page)) .cc p17 oeState) ∧
  ((fun (m : Master) (p : PortId) (s : State) =>
    (s.reaches m) ∧ (s.answers p.page)) .cc p17 oeState) ∧
  ((fun (m : Master) (p : PortId) (x : SearchObs) (s : State) =>
    (s.reaches m) ∧ (s.answers p.page) ∧ (s.ostate p = 3)) .cc p17 ⟨[], 0⟩ oeState) ∧
  ((fun (m : Master) (p : PortId) (x : SearchObs) (s : State) =>
    (s.reaches m) ∧ (s.answers p.page) ∧ (s.ostate p ≠ 3)) .cc p17 ⟨[], 0⟩ upState) := by
  refine ⟨?_, ?_, ?_, ?_, ?_, ?_, ?_, ?_⟩ <;> (beta_reduce; decide +kernel)

/-- The hypotheses of Obligations.OePowerStates can be met, those of each clause in turn. -/
theorem test_witness_OePowerStates :
  ((fun (m : Master) (h : Half) (o : Fin 8) (s : State) =>
    (s.reaches m) ∧ (s.answers (.oe h o)) ∧ (s.pstate h o = 1 ∨ s.pstate h o = 2 ∨ s.pstate h o = 3)) .cc .A 2 oeState) ∧
  ((fun (m : Master) (h : Half) (o : Fin 8) (s : State) =>
    (s.reaches m) ∧ (s.answers (.oe h o)) ∧ (s.pstate h o = 0 ∨ 4 ≤ s.pstate h o)) .cc .A 2 (oeState.setF (.oe .A 2) R.oe.BLK_STS_PSTATE 4)) ∧
  ((fun (m : Master) (h : Half) (o : Fin 8) (s : State) =>
    (s.reaches m) ∧ (s.answers (.oe h o)) ∧ (s.pstate h o = 2 ∨ s.pstate h o = 3)) .cc .A 2 oeState) ∧
  ((fun (m : Master) (h : Half) (o : Fin 8) (s : State) =>
    (s.reaches m) ∧ (s.answers (.oe h o)) ∧ (s.pstate h o ≤ 1 ∨ 4 ≤ s.pstate h o)) .cc .A 2 upState) ∧
  ((fun (m : Master) (h : Half) (o : Fin 8) (s : State) =>
    (s.reaches m) ∧ (s.answers (.oe h o)) ∧ (s.pstate h o = 3)) .cc .A 2 oeState) ∧
  ((fun (m : Master) (h : Half) (o : Fin 8) (s : State) =>
    (s.reaches m) ∧ (s.answers (.oe h o)) ∧ (s.pstate h o ≠ 3)) .cc .A 2 upState) ∧
  ((fun (m : Master) (h : Half) (o : Fin 8) (s : State) =>
    (s.reaches m) ∧ (s.answers (.oe h o)) ∧ (s.pstate h o = 2)) .cc .A 2 (oeState.setF (.oe .A 2) R.oe.BLK_STS_PSTATE 2)) ∧
  ((fun (m : Master) (h : Half) (o : Fin 8) (s : State) =>
    (s.reaches m) ∧ (s.answers (.oe h o)) ∧ (s.pstate h o ≤ 1)) .cc .A 2 upState) ∧
  ((fun (m : Master) (h : Half) (o : Fin 8) (s : State) =>
    (s.reaches m) ∧ (s.answers (.oe h o)) ∧ (3 ≤ s.pstate h o)) .cc .A 2 oeState) ∧
  ((fun (h : Half) (o : Fin 8) (us : BitVec 24) (w : WakeObs) (s : State) =>
    (s.answers (.oe h o)) ∧ (s.pstate h o = 4)) .A 2 100#24 ⟨true, []⟩ (oeState.setF (.oe .A 2) R.oe.BLK_STS_PSTATE 4)) ∧
  ((fun (h : Half) (o : Fin 8) (s : State) =>
    (s.answers (.oe h o)) ∧ (s.pstate h o = 2)) .A 2 (oeState.setF (.oe .A 2) R.oe.BLK_STS_PSTATE 2)) ∧
  ((fun (h : Half) (o : Fin 8) (k : Fin 8) (s : State) =>
    (s.answers (.oe h o)) ∧ (s.pstate h o = 2) ∧ (bit (s.getF (.laser h o) R.laser.BRANCH_CLOSED_FIBRE) k.val = false)) .A 2 1 ((oeState.setF (.oe .A 2) R.oe.BLK_STS_PSTATE 2).setF (.laser .A 2) R.laser.BRANCH_CLOSED_FIBRE 0)) ∧
  ((fun (h : Half) (o : Fin 8) (s : State) =>
    (s.answers (.oe h o)) ∧ (s.pstate h o = 3)) .A 2 oeState) ∧
  ((fun (h : Half) (o : Fin 8) (s : State) =>
    (s.answers (.oe h o)) ∧ (s.pstate h o = 2 ∨ s.pstate h o = 3) ∧ ((oePorts h o).all (fun p => s.lstate p ≠ 2 && s.lstate p ≠ 3))) .A 2 (oeState.setL p17 0)) ∧
  ((fun (p : PortId) (s : State) =>
    (s.answers (s.lead p).page) ∧ (s.lstate (s.lead p) = 2) ∧ ((s.port (s.lead p)).asleep)) p17 (oeState.updPort p17 (fun x => { x with asleep := true }))) ∧
  ((fun (m : Master) (h : Half) (o : Fin 8) (s : State) =>
    (s.reaches m) ∧ (s.halfUp h) ∧ (s.die (dieOe h o) = .up) ∧ (s.isSet (.oe h o) R.hdr.BLK_STS_RESET_BUSY = false)) .cc .A 2 oeState) ∧
  ((fun (m : Master) (h : Half) (o : Fin 8) (s : State) =>
    (s.reaches m) ∧ (s.halfUp h) ∧ (s.die (dieOe h o) = .up) ∧ (s.isSet (.oe h o) R.hdr.BLK_STS_RESET_BUSY)) .cc .A 2 (oeState.setF (.oe .A 2) R.hdr.BLK_STS_RESET_BUSY 1)) ∧
  ((fun (m : Master) (h : Half) (o : Fin 8) (s : State) =>
    (s.reaches m) ∧ (s.halfUp h) ∧ (s.die (dieOe h o) = .fenced ∨ s.die (dieOe h o) = .lost)) .cc .A 2 (oeState.setDie (dieOe .A 2) .fenced)) ∧
  ((fun (h : Half) (x : OeStart) (s : State) =>
    (s.answers (.oe h x.oe)) ∧ (s.pstate h x.oe = 5)) .A ⟨2, [], []⟩ (oeState.setF (.oe .A 2) R.oe.BLK_STS_PSTATE 5)) := by
  refine ⟨?_, ?_, ?_, ?_, ?_, ?_, ?_, ?_, ?_, ?_, ?_, ?_, ?_, ?_, ?_, ?_, ?_, ?_, ?_⟩ <;> (beta_reduce; decide +kernel)

/-- The hypotheses of Obligations.FlitSending can be met, those of each clause in turn. -/
theorem test_witness_FlitSending :
  ((fun (p : PortId) (s : State) =>
    let q := s.lead p
    (s.answers q.page) ∧ (s.linkUp q) ∧ ((s.port q).alignDue ∨ 4095 ≤ (s.port q).alignGap)) p17 (oeState.updPort p17 (fun x => { x with alignDue := true }))) ∧
  ((fun (p : PortId) (k : Nat) (s : State) =>
    let q := s.lead p
    (s.answers q.page) ∧ (s.linkUp q) ∧ ((s.port q).alignDue = false) ∧ ((s.port q).alignGap < 4095) ∧ ((s.port q).replay = some k)) p17 5 ((oeState.setTx p17 5 6).updPort p17 (fun x => { x with replay := some 5, flits := [⟨5, false, [1, 2], 0, 0⟩] }))) ∧
  ((fun (p : PortId) (s : State) =>
    let q := s.lead p
    (s.answers q.page) ∧ (s.linkUp q) ∧ ((s.port q).alignDue = false) ∧ ((s.port q).alignGap < 4095) ∧ ((s.port q).replay = none)) p17 oeState) ∧
  ((fun (p : PortId) (s : State) =>
    let q := s.lead p
    (s.answers q.page) ∧ (s.linkUp q) ∧ (0 < (s.port q).sinceAck)) p17 (oeState.updPort p17 (fun x => { x with sinceAck := 2 }))) ∧
  ((fun (p : PortId) (s : State) =>
    let q := s.lead p
    (s.answers q.page) ∧ (s.linkUp q) ∧ (s.txA q ≠ s.txN q)) p17 ((oeState.setTx p17 5 6).updPort p17 (fun x => { x with flits := [⟨5, false, [1, 2], 0, 0⟩] }))) ∧
  ((fun (p : PortId) (ue : Bool) (s : State) =>
    let q := s.lead p
    (s.answers q.page) ∧ (ue)) p17 true oeState) := by
  refine ⟨?_, ?_, ?_, ?_, ?_, ?_⟩ <;> (beta_reduce; decide +kernel)

/-- The hypotheses of Obligations.FlitReceiving can be met, those of each clause in turn. -/
theorem test_witness_FlitReceiving :
  ((fun (p : PortId) (flit : List Byte) (s : State) =>
    let q := s.lead p
    (s.answers q.page) ∧ (s.linkUp q) ∧ (flitGood flit = false)) p17 [] oeState) ∧
  ((fun (p : PortId) (flit : List Byte) (s : State) =>
    let q := s.lead p
    (s.answers q.page) ∧ (s.linkUp q) ∧ (flitGood flit) ∧ ((s.port q).dropRx) ∧ ((hdrOf flit).kind < 2)) p17 (flitBytes ⟨0, 0, false, 0, false, false, false, 4, 0⟩ [1, 2, 3, 4] false) (oeState.updPort p17 (fun x => { x with dropRx := true }))) ∧
  ((fun (p : PortId) (flit : List Byte) (s : State) =>
    let q := s.lead p
    (s.answers q.page) ∧ (s.linkUp q) ∧ (flitGood flit) ∧ (((s.port q).dropRx && (hdrOf flit).kind < 2) = false) ∧ (s.noRoom q (hdrOf flit))) p17 (flitBytes ⟨0, 0, false, 0, false, false, false, 4, 0⟩ [1, 2, 3, 4] false) (oeState.updPort p17 (fun x => { x with rxReq := List.replicate 1024 1 }))) ∧
  ((fun (p : PortId) (flit : List Byte) (s : State) =>
    let q := s.lead p
    (s.answers q.page) ∧ (s.linkUp q) ∧ (flitGood flit) ∧ (2 ≤ (hdrOf flit).kind)) p17 (flitBytes ⟨0, 0, false, 2, false, false, false, 0, 0⟩ [] false) oeState) ∧
  ((fun (p : PortId) (flit : List Byte) (s : State) =>
    let q := s.lead p
    let x := hdrOf flit
    (s.answers q.page) ∧ (s.linkUp q) ∧ (flitGood flit) ∧ (x.kind < 2) ∧ ((s.port q).dropRx = false) ∧ (s.noRoom q x = false) ∧ ((s.takeHeader q true x).linkUp q)) p17 (flitBytes ⟨0, 0, false, 0, false, false, false, 4, 0⟩ [1, 2, 3, 4] false) oeState) ∧
  ((fun (p : PortId) (lanes : List (List Nat)) (s : State) =>
    (s.answers p.page) ∧ (s.linkUp (s.lead p))) p17 [] oeState) ∧
  ((fun (p : PortId) (s : State) =>
    let q := s.lead p
    (s.answers q.page) ∧ (s.linkUp q)) p17 oeState) ∧
  ((fun (m : Master) (p : PortId) (s : State) =>
    (s.reaches m) ∧ (s.answers p.page) ∧ (s.isSet .sec R.sec.SEC_CTL_INJ_DIS = false)) .cc p17 oeState) ∧
  ((fun (m : Master) (p : PortId) (s : State) =>
    (s.reaches m) ∧ (s.isSet .sec R.sec.SEC_CTL_INJ_DIS)) .cc p17 (oeState.setF .sec R.sec.SEC_CTL_INJ_DIS 1)) ∧
  ((fun (m : Master) (p : PortId) (s : State) =>
    (s.reaches m) ∧ (s.answers p.page) ∧ (s.isSet .sec R.sec.SEC_CTL_INJ_DIS = false)) .cc p17 oeState) ∧
  ((fun (m : Master) (p : PortId) (s : State) =>
    (s.reaches m) ∧ (s.isSet .sec R.sec.SEC_CTL_INJ_DIS)) .cc p17 (oeState.setF .sec R.sec.SEC_CTL_INJ_DIS 1)) := by
  refine ⟨?_, ?_, ?_, ?_, ?_, ?_, ?_, ?_, ?_, ?_, ?_⟩ <;> (beta_reduce; decide +kernel)

/-- The hypotheses of Obligations.LinkStates can be met, those of each clause in turn. -/
theorem test_witness_LinkStates :
  ((fun (p : PortId) (s : State) =>
    let q := s.lead p
    (s.answers q.page) ∧ (s.linkUp q) ∧ (s.isSet q.page R.oport.LINK_STS_XOFF_REQ ∨ s.isSet q.page R.oport.LINK_STS_XOFF_RSP ∨ (s.port q).stale)) p17 (oeState.updPort p17 (fun x => { x with stale := true }))) ∧
  ((fun (p : PortId) (lane : Fin 16) (s : State) =>
    let q := s.lead p
    (s.answers p.page) ∧ (s.linkUp q) ∧ (s.narrow q = false) ∧ (s.laneCh p R.oport.LANE_RX_CH lane.val ≠ 0xFF)) p17 3 ((oeState.setF p17.page R.oport.PORT_STS_WIDTH 16).setF p17.page (laneFld R.oport.LANE_RX_CH 3) 3)) ∧
  ((fun (p : PortId) (lane : Fin 16) (s : State) =>
    (s.narrow (s.lead p))) p17 3 oeState) ∧
  ((fun (p : PortId) (s : State) =>
    (s.answers p.page)) p17 oeState) ∧
  ((fun (p : PortId) (cause : BitVec 4) (width : Nat) (s : State) =>
    let q := s.lead p
    (s.answers q.page) ∧ (s.linkUp q)) p17 6#4 8 oeState) ∧
  ((fun (p : PortId) (s : State) =>
    let q := s.lead p
    (s.answers q.page) ∧ (s.isHeldLink q)) p17 ((oeState.setL p17 1).setF p17.page R.oport.LINK_STS_HELD 1)) ∧
  ((fun (p : PortId) (x : TrnParam) (s : State) =>
    (s.answers p.page) ∧ (s.lstate p = 1)) p17 ⟨0, 0, false, false, false, false, false, 1, 0, 7, 0⟩ (oeState.setL p17 1)) ∧
  ((fun (p : PortId) (x : TrnParam) (s : State) =>
    (s.answers p.page) ∧ (s.lstate p = 2)) p17 ⟨0, 0, false, false, false, false, false, 1, 0, 7, 0⟩ oeState) ∧
  ((fun (p : PortId) (v : Word) (s : State) =>
    (s.answers p.page) ∧ (s.lstate p = 1)) p17 0x1234#32 (oeState.setL p17 1)) ∧
  ((fun (p : PortId) (w : Nat) (resume : Bool) (s : State) =>
    (s.answers p.page) ∧ (s.lstate p = 1)) p17 8 true (oeState.setL p17 1)) ∧
  ((fun (p : PortId) (s : State) =>
    let q := s.lead p
    (s.answers q.page) ∧ (s.lstate q = 1) ∧ ((s.port q).fails = 0)) p17 (oeState.setL p17 1)) ∧
  ((fun (p : PortId) (s : State) =>
    let q := s.lead p
    (s.answers q.page) ∧ (s.lstate q = 1) ∧ ((s.port q).fails ≠ 0) ∧ ((s.port q).resets < 3)) p17 ((oeState.setL p17 1).updPort p17 (fun x => { x with fails := 1 }))) ∧
  ((fun (p : PortId) (s : State) =>
    let q := s.lead p
    (s.answers q.page) ∧ (s.lstate q = 1) ∧ ((s.port q).fails ≠ 0) ∧ (3 ≤ (s.port q).resets)) p17 ((oeState.setL p17 1).updPort p17 (fun x => { x with fails := 1, resets := 3 }))) ∧
  ((fun (p : PortId) (s : State) =>
    let q := s.lead p
    (s.answers q.page) ∧ (s.lstate q = 4)) p17 (oeState.setL p17 4)) ∧
  ((fun (p : PortId) (s : State) =>
    let q := s.lead p
    (s.answers q.page) ∧ (s.lstate q = 2)) p17 oeState) ∧
  ((fun (p : PortId) (s : State) =>
    let q := s.lead p
    (s.answers q.page) ∧ (s.lstate q = 2) ∧ ((s.port q).asleep)) p17 (oeState.updPort p17 (fun x => { x with asleep := true }))) ∧
  ((fun (p : PortId) (s : State) =>
    let q := s.lead p
    (s.answers q.page) ∧ (s.lstate q = 3) ∧ (s.pstate q.half q.oe ≠ 2)) p17 (oeState.setL p17 3)) ∧
  ((fun (p : PortId) (s : State) =>
    let q := s.lead p
    (s.answers q.page) ∧ (s.lstate q = 2) ∧ ((s.port q).waking)) p17 (oeState.updPort p17 (fun x => { x with waking := true }))) := by
  refine ⟨?_, ?_, ?_, ?_, ?_, ?_, ?_, ?_, ?_, ?_, ?_, ?_, ?_, ?_, ?_, ?_, ?_, ?_⟩ <;> (beta_reduce; decide +kernel)

/-- The hypotheses of Obligations.FabricRequests can be met, those of each clause in turn. -/
theorem test_witness_FabricRequests :
  ((fun (p : PortId) (m : ReqMsg) (q : Nat) (s : State) =>
    let y : ReqMsg := { m with opc := 1 }
    let t := s.takeMsg p (.req y)
    (s.answers p.page) ∧ (t.carries p) ∧ (t.isOwn m.dfid.toNat) ∧ (badReq y = false) ∧ (t.partFor (some (t.lead p)) p.half y = some q) ∧ (t.reqHeld (some (t.lead p)) p.half y = false) ∧ (y.once = false ∨ t.rcRuns y)) p17 (reqMsg 1 8 0x20000003000 []) 0 fabState) ∧
  ((fun (p : PortId) (m : ReqMsg) (s : State) =>
    let y : ReqMsg := { m with opc := 1 }
    let t := s.takeMsg p (.req y)
    (s.answers p.page) ∧ (t.carries p) ∧ (t.isOwn m.dfid.toNat) ∧ (badReq y)) p17 (reqMsg 1 0 0x20000003000 []) fabState) ∧
  ((fun (p : PortId) (m : ReqMsg) (s : State) =>
    let y : ReqMsg := { m with opc := 1 }
    let t := s.takeMsg p (.req y)
    (s.answers p.page) ∧ (t.carries p) ∧ (t.isOwn m.dfid.toNat) ∧ (badReq y = false) ∧ (t.partFor (some (t.lead p)) p.half y = none)) p17 { reqMsg 1 8 0x20000003000 [] with stag := 9 } fabState) ∧
  ((fun (p : PortId) (m : ReqMsg) (q : Nat) (x : Nat × RcEnt) (s : State) =>
    let y : ReqMsg := { m with opc := 1 }
    let t := s.takeMsg p (.req y)
    (s.answers p.page) ∧ (t.carries p) ∧ (t.isOwn m.dfid.toNat) ∧ (badReq y = false) ∧ (t.partFor (some (t.lead p)) p.half y = some q) ∧ (t.reqHeld (some (t.lead p)) p.half y = false) ∧ (y.once) ∧ (t.rcAhead y = some x) ∧ (x.1 = 0) ∧ (x.2.done)) p17 { reqMsg 1 8 0x20000003000 [] with once := true } 0 (0, { half := .A, sfid := 7, tag := 4, epoch := 0, done := true, status := 0, data := [], session := 1 }) { fabState with rcache := [{ half := .A, sfid := 7, tag := 4, epoch := 0, done := true, status := 0, data := [], session := 1 }] }) ∧
  ((fun (p : PortId) (m : ReqMsg) (s : State) =>
    let y : ReqMsg := { m with opc := 1 }
    let t := s.takeMsg p (.req y)
    (s.answers p.page) ∧ (t.carries p) ∧ (t.isOwn m.dfid.toNat) ∧ (t.reqHeld (some (t.lead p)) p.half y)) p17 (reqMsg 1 8 0x100 []) fabState) ∧
  ((fun (p : PortId) (m : ReqMsg) (q : Nat) (s : State) =>
    let y : ReqMsg := { m with opc := 2 }
    let t := s.takeMsg p (.req y)
    (s.answers p.page) ∧ (t.carries p) ∧ (t.isOwn m.dfid.toNat) ∧ (badReq y = false) ∧ (t.partFor (some (t.lead p)) p.half y = some q) ∧ (t.reqHeld (some (t.lead p)) p.half y = false) ∧ (y.once = false ∨ t.rcRuns y)) p17 (reqMsg 2 2 0x20000003000 [1, 2]) 0 fabState) ∧
  ((fun (p : PortId) (m : ReqMsg) (s : State) =>
    let y : ReqMsg := { m with opc := 2 }
    let t := s.takeMsg p (.req y)
    (s.answers p.page) ∧ (t.carries p) ∧ (t.isOwn m.dfid.toNat) ∧ (badReq y)) p17 (reqMsg 2 3 0x20000003000 [1, 2]) fabState) ∧
  ((fun (p : PortId) (m : ReqMsg) (s : State) =>
    let y : ReqMsg := { m with opc := 2 }
    let t := s.takeMsg p (.req y)
    (s.answers p.page) ∧ (t.carries p) ∧ (t.isOwn m.dfid.toNat) ∧ (badReq y = false) ∧ (t.partFor (some (t.lead p)) p.half y = none)) p17 { reqMsg 2 2 0x20000003000 [1, 2] with stag := 9 } fabState) ∧
  ((fun (p : PortId) (m : ReqMsg) (q : Nat) (x : Nat × RcEnt) (s : State) =>
    let y : ReqMsg := { m with opc := 2 }
    let t := s.takeMsg p (.req y)
    (s.answers p.page) ∧ (t.carries p) ∧ (t.isOwn m.dfid.toNat) ∧ (badReq y = false) ∧ (t.partFor (some (t.lead p)) p.half y = some q) ∧ (t.reqHeld (some (t.lead p)) p.half y = false) ∧ (y.once) ∧ (t.rcAhead y = some x) ∧ (x.1 = 0) ∧ (x.2.done)) p17 { reqMsg 2 2 0x20000003000 [1, 2] with once := true } 0 (0, { half := .A, sfid := 7, tag := 4, epoch := 0, done := true, status := 0, data := [], session := 1 }) { fabState with rcache := [{ half := .A, sfid := 7, tag := 4, epoch := 0, done := true, status := 0, data := [], session := 1 }] }) ∧
  ((fun (p : PortId) (m : ReqMsg) (s : State) =>
    let y : ReqMsg := { m with opc := 2 }
    let t := s.takeMsg p (.req y)
    (s.answers p.page) ∧ (t.carries p) ∧ (t.isOwn m.dfid.toNat) ∧ (t.reqHeld (some (t.lead p)) p.half y)) p17 (reqMsg 2 2 0x100 [1, 2]) fabState) ∧
  ((fun (p : PortId) (m : ReqMsg) (q : Nat) (s : State) =>
    let y : ReqMsg := { m with opc := 3 }
    let t := s.takeMsg p (.req y)
    (s.answers p.page) ∧ (t.carries p) ∧ (t.isOwn m.dfid.toNat) ∧ (badReq y = false) ∧ (t.partFor (some (t.lead p)) p.half y = some q) ∧ (t.reqHeld (some (t.lead p)) p.half y = false) ∧ (y.once = false ∨ t.rcRuns y)) p17 (reqMsg 3 8 0x20000003000 [1, 0, 0, 0, 0, 0, 0, 0]) 0 fabState) ∧
  ((fun (p : PortId) (m : ReqMsg) (s : State) =>
    let y : ReqMsg := { m with opc := 3 }
    let t := s.takeMsg p (.req y)
    (s.answers p.page) ∧ (t.carries p) ∧ (t.isOwn m.dfid.toNat) ∧ (badReq y)) p17 (reqMsg 3 8 0x20000003000 [1]) fabState) ∧
  ((fun (p : PortId) (m : ReqMsg) (s : State) =>
    let y : ReqMsg := { m with opc := 3 }
    let t := s.takeMsg p (.req y)
    (s.answers p.page) ∧ (t.carries p) ∧ (t.isOwn m.dfid.toNat) ∧ (badReq y = false) ∧ (t.partFor (some (t.lead p)) p.half y = none)) p17 { reqMsg 3 8 0x20000003000 [1, 0, 0, 0, 0, 0, 0, 0] with stag := 9 } fabState) ∧
  ((fun (p : PortId) (m : ReqMsg) (q : Nat) (x : Nat × RcEnt) (s : State) =>
    let y : ReqMsg := { m with opc := 3 }
    let t := s.takeMsg p (.req y)
    (s.answers p.page) ∧ (t.carries p) ∧ (t.isOwn m.dfid.toNat) ∧ (badReq y = false) ∧ (t.partFor (some (t.lead p)) p.half y = some q) ∧ (t.reqHeld (some (t.lead p)) p.half y = false) ∧ (y.once) ∧ (t.rcAhead y = some x) ∧ (x.1 = 0) ∧ (x.2.done)) p17 { reqMsg 3 8 0x20000003000 [1, 0, 0, 0, 0, 0, 0, 0] with once := true } 0 (0, { half := .A, sfid := 7, tag := 4, epoch := 0, done := true, status := 0, data := [], session := 1 }) { fabState with rcache := [{ half := .A, sfid := 7, tag := 4, epoch := 0, done := true, status := 0, data := [], session := 1 }] }) ∧
  ((fun (p : PortId) (m : ReqMsg) (s : State) =>
    let y : ReqMsg := { m with opc := 3 }
    let t := s.takeMsg p (.req y)
    (s.answers p.page) ∧ (t.carries p) ∧ (t.isOwn m.dfid.toNat) ∧ (t.reqHeld (some (t.lead p)) p.half y)) p17 (reqMsg 3 8 0x100 [1, 0, 0, 0, 0, 0, 0, 0]) fabState) ∧
  ((fun (p : PortId) (m : ReqMsg) (q : Nat) (s : State) =>
    let y : ReqMsg := { m with opc := 4 }
    let t := s.takeMsg p (.req y)
    (s.answers p.page) ∧ (t.carries p) ∧ (t.isOwn m.dfid.toNat) ∧ (badReq y = false) ∧ (t.partFor (some (t.lead p)) p.half y = some q) ∧ (t.reqHeld (some (t.lead p)) p.half y = false) ∧ (y.once = false ∨ t.rcRuns y)) p17 (reqMsg 4 2 0 [1, 2]) 0 { fabState with fctx := [(0, fctxInit)] }) ∧
  ((fun (p : PortId) (m : ReqMsg) (s : State) =>
    let y : ReqMsg := { m with opc := 4 }
    let t := s.takeMsg p (.req y)
    (s.answers p.page) ∧ (t.carries p) ∧ (t.isOwn m.dfid.toNat) ∧ (badReq y)) p17 (reqMsg 4 2 7 [1, 2]) fabState) ∧
  ((fun (p : PortId) (m : ReqMsg) (s : State) =>
    let y : ReqMsg := { m with opc := 4 }
    let t := s.takeMsg p (.req y)
    (s.answers p.page) ∧ (t.carries p) ∧ (t.isOwn m.dfid.toNat) ∧ (badReq y = false) ∧ (t.partFor (some (t.lead p)) p.half y = none)) p17 (reqMsg 4 2 0 [1, 2]) fabState) ∧
  ((fun (p : PortId) (m : ReqMsg) (q : Nat) (x : Nat × RcEnt) (s : State) =>
    let y : ReqMsg := { m with opc := 4 }
    let t := s.takeMsg p (.req y)
    (s.answers p.page) ∧ (t.carries p) ∧ (t.isOwn m.dfid.toNat) ∧ (badReq y = false) ∧ (t.partFor (some (t.lead p)) p.half y = some q) ∧ (t.reqHeld (some (t.lead p)) p.half y = false) ∧ (y.once) ∧ (t.rcAhead y = some x) ∧ (x.1 = 0) ∧ (x.2.done)) p17 { reqMsg 4 2 0 [1, 2] with once := true } 0 (0, { half := .A, sfid := 7, tag := 4, epoch := 0, done := true, status := 0, data := [], session := 1 }) { { fabState with rcache := [{ half := .A, sfid := 7, tag := 4, epoch := 0, done := true, status := 0, data := [], session := 1 }] } with fctx := [(0, fctxInit)] }) ∧
  ((fun (p : PortId) (vcReq : Bool) (m : ReqMsg) (s : State) =>
    let t := s.takeMsg p (.req m)
    (s.answers p.page) ∧ (t.carries p) ∧ (t.isOwn m.dfid.toNat) ∧ (knownOpc m.opc.toNat = false) ∧ (vcReq)) p17 true (reqMsg 5 2 0 []) fabState) ∧
  ((fun (p : PortId) (vcReq : Bool) (m : ReqMsg) (s : State) =>
    let t := s.takeMsg p (.rsp { (s.rspTo m 0 false false m.data) with opc := m.opc, dfid := m.dfid, sfid := m.sfid, hops := m.hops })
    (s.answers p.page) ∧ (t.carries p) ∧ (t.isOwn m.dfid.toNat) ∧ (knownOpc m.opc.toNat = false) ∧ (vcReq = false)) p17 false (reqMsg 5 2 0 []) fabState) := by
  refine ⟨?_, ?_, ?_, ?_, ?_, ?_, ?_, ?_, ?_, ?_, ?_, ?_, ?_, ?_, ?_, ?_, ?_, ?_, ?_, ?_, ?_⟩ <;> (beta_reduce; decide +kernel)

/-- The hypotheses of Obligations.FabricSessions can be met, those of each clause in turn. -/
theorem test_witness_FabricSessions :
  ((fun (p : PortId) (w : Waggle) (s : State) =>
    (s.answers (s.lead p).page) ∧ (s.linkUp (s.lead p)) ∧ (s.isBypass (s.lead p) = false)) p17 (wag7 1 0) fabState) ∧
  ((fun (p : PortId) (m : ReqMsg) (w : Waggle) (s : State) =>
    let t := s.takeMsg p (.req { m with opc := 8 })
    (s.answers p.page) ∧ (t.carries p) ∧ (t.isOwn m.dfid.toNat)) p17 (reqMsg 8 64 0 []) (wag7 2 0) fabState) ∧
  ((fun (p : PortId) (m : ReqMsg) (w : Waggle) (s : State) =>
    let t := s.takeMsg p (.req { m with opc := 8 })
    (s.answers p.page) ∧ (t.carries p) ∧ (t.isOwn m.dfid.toNat)) p17 (reqMsg 8 64 0 []) (wag7 3 0) fabState) ∧
  ((fun (p : PortId) (m : ReqMsg) (w : Waggle) (s : State) =>
    let t := s.takeMsg p (.req { m with opc := 8 })
    (s.answers p.page) ∧ (t.carries p) ∧ (t.isOwn m.dfid.toNat)) p17 (reqMsg 8 64 0 []) (wag7 4 0xB) fabState) ∧
  ((fun (p : PortId) (w : Waggle) (e : Nat × PEntry) (s : State) =>
    let t := s.takeMsg p (s.waggleMsg 0 1 w)
    (s.answers p.page) ∧ (t.entry w.fid.toNat = some e)) p17 (wag7 6 0) (0, { fid := 7, uid := 9, session := 1, cls := 0, caps := 0xFF, tags := [3], ver := 0x12, st := 2, ports := [17], used := 0 }) fabState) ∧
  ((fun (p : PortId) (s : State) =>
    (s.answers (s.lead p).page) ∧ (s.linkUp (s.lead p)) ∧ ((s.port (s.lead p)).hello = false) ∧ (s.isBypass (s.lead p) = false)) p17 fabState) ∧
  ((fun (h : Half) (fid : BitVec 16) (e : Nat × PEntry) (s : State) =>
    (s.entry fid.toNat = some e) ∧ (e.2.st = ptOPENING)) .A 7#16 (0, { fid := 7, uid := 9, session := 1, cls := 0, caps := 0xFF, tags := [3], ver := 0x12, st := 1, ports := [17], used := 0 }) { fabState with partners := [(0, { fid := 7, uid := 9, session := 1, cls := 0, caps := 0xFF, tags := [3], ver := 0x12, st := 1, ports := [17], used := 0 })] }) := by
  refine ⟨?_, ?_, ?_, ?_, ?_, ?_, ?_⟩ <;> (beta_reduce; decide +kernel)

/-- The hypotheses of Obligations.FabricAnswers can be met, those of each clause in turn. -/
theorem test_witness_FabricAnswers :
  ((fun (p : PortId) (m : RspMsg) (r : FReq) (s : State) =>
    let y : RspMsg := { m with opc := 0x81 }
    let t := s.takeMsg p (.rsp y)
    (s.answers p.page) ∧ (t.carries p) ∧ (t.isOwn m.dfid.toNat) ∧ (m.rsvd = 0) ∧ (m.len.toNat = m.data.length) ∧ (m.data.length ≤ 128 ∧ (m.status = 0 → m.data.length = r.msg.len.toNat)) ∧ (t.matching y = some r) ∧ (r.msg.opc ||| 0x80 = 0x81) ∧ (m.retry = false)) p17 (rspMsg 0x81 [1, 2, 3, 4, 5, 6, 7, 8]) ({ msg := { reqMsg 1 8 0x20000003000 [] with dfid := 7, sfid := 5, epoch := 1, len := 8 }, part := 0, owner := .cmd .A 0 0, port := some 17, touched := false, retry := false }) (askState 1 false)) ∧
  ((fun (p : PortId) (m : RspMsg) (r : FReq) (s : State) =>
    let y : RspMsg := { m with opc := 0x82 }
    let t := s.takeMsg p (.rsp y)
    (s.answers p.page) ∧ (t.carries p) ∧ (t.isOwn m.dfid.toNat) ∧ (m.rsvd = 0) ∧ (m.len.toNat = m.data.length) ∧ (m.data.length = 0) ∧ (t.matching y = some r) ∧ (r.msg.opc ||| 0x80 = 0x82) ∧ (m.retry = false)) p17 (rspMsg 0x82 []) ({ msg := { reqMsg 2 8 0x20000003000 [] with dfid := 7, sfid := 5, epoch := 1, len := 8 }, part := 0, owner := .cmd .A 0 0, port := some 17, touched := false, retry := false }) (askState 2 false)) ∧
  ((fun (p : PortId) (m : RspMsg) (r : FReq) (s : State) =>
    let y : RspMsg := { m with opc := 0x83 }
    let t := s.takeMsg p (.rsp y)
    (s.answers p.page) ∧ (t.carries p) ∧ (t.isOwn m.dfid.toNat) ∧ (m.rsvd = 0) ∧ (m.len.toNat = m.data.length) ∧ (m.data.length = 8 ∨ (m.data.length = 0 ∧ m.status ≠ 0)) ∧ (t.matching y = some r) ∧ (r.msg.opc ||| 0x80 = 0x83) ∧ (m.retry = false)) p17 (rspMsg 0x83 [1, 2, 3, 4, 5, 6, 7, 8]) ({ msg := { reqMsg 3 8 0x20000003000 [] with dfid := 7, sfid := 5, epoch := 1, len := 8 }, part := 0, owner := .cmd .A 0 0, port := some 17, touched := false, retry := false }) (askState 3 false)) ∧
  ((fun (p : PortId) (m : RspMsg) (r : FReq) (s : State) =>
    let y : RspMsg := { m with opc := 0x84 }
    let t := s.takeMsg p (.rsp y)
    (s.answers p.page) ∧ (t.carries p) ∧ (t.isOwn m.dfid.toNat) ∧ (m.rsvd = 0) ∧ (m.len.toNat = m.data.length) ∧ (m.data.length = 0) ∧ (t.matching y = some r) ∧ (r.msg.opc ||| 0x80 = 0x84) ∧ (m.retry = false)) p17 (rspMsg 0x84 []) ({ msg := { reqMsg 4 8 0x20000003000 [] with dfid := 7, sfid := 5, epoch := 1, len := 8 }, part := 0, owner := .cmd .A 0 0, port := some 17, touched := false, retry := false }) (askState 4 false)) ∧
  ((fun (p : PortId) (m : RspMsg) (r : FReq) (s : State) =>
    let y : RspMsg := { m with opc := 0x82 }
    let t := s.takeMsg p (.rsp y)
    (s.answers p.page) ∧ (t.carries p) ∧ (t.isOwn m.dfid.toNat) ∧ (m.rsvd = 0) ∧ (m.len.toNat = 0) ∧ (m.data = []) ∧ (t.matching y = some r) ∧ (r.msg.opc = 2) ∧ (m.retry)) p17 { rspMsg 0x82 [] with status := 0xC, retry := true } ({ msg := { reqMsg 2 8 0x20000003000 [] with dfid := 7, sfid := 5, epoch := 1, len := 8 }, part := 0, owner := .cmd .A 0 0, port := some 17, touched := false, retry := false }) (askState 2 false)) ∧
  ((fun (p : PortId) (m : RspMsg) (s : State) =>
    let y : RspMsg := { m with opc := 0x82 }
    let t := s.takeMsg p (.rsp y)
    (s.answers p.page) ∧ (t.carries p) ∧ (t.isOwn m.dfid.toNat) ∧ (m.rsvd = 0) ∧ (m.len.toNat = 0) ∧ (m.data = []) ∧ (t.matching y = none)) p17 (rspMsg 0x82 []) fabState) ∧
  ((fun (p : PortId) (m : RspMsg) (r : FReq) (s : State) =>
    let y : RspMsg := { m with opc := 0x10 }
    let t := s.takeMsg p (.rsp y)
    (s.answers p.page) ∧ (t.carries p) ∧ (t.isOwn m.dfid.toNat) ∧ (t.matching y = some r)) p17 (rspMsg 0x10 []) ({ msg := { reqMsg 1 8 0x20000003000 [] with dfid := 7, sfid := 5, epoch := 1, len := 8 }, part := 0, owner := .cmd .A 0 0, port := some 17, touched := false, retry := false }) (askState 1 false)) ∧
  ((fun (p : PortId) (m : RspMsg) (s : State) =>
    let y : RspMsg := { m with opc := 0x10 }
    let t := s.takeMsg p (.rsp y)
    (s.answers p.page) ∧ (t.carries p) ∧ (t.isOwn m.dfid.toNat) ∧ (t.matching y = none)) p17 (rspMsg 0x10 []) fabState) ∧
  ((fun (tag : BitVec 15) (e : Nat × FReq) (s : State) =>
    (s.reqs.find? (fun e => e.1 = tag.toNat) = some e)) 4#15 (4, { msg := { reqMsg 1 8 0x20000003000 [] with dfid := 7, sfid := 5, epoch := 1, len := 8 }, part := 0, owner := .cmd .A 0 0, port := some 17, touched := false, retry := false }) (askState 1 false)) ∧
  ((fun (tag : BitVec 15) (late : Bool) (e : Nat × FReq) (s : State) =>
    (s.reqs.find? (fun e => e.1 = tag.toNat) = some e) ∧ (e.2.retry)) 4#15 true (4, { ({ msg := { reqMsg 1 8 0x20000003000 [] with dfid := 7, sfid := 5, epoch := 1, len := 8 }, part := 0, owner := .cmd .A 0 0, port := some 17, touched := false, retry := false } : FReq) with retry := true }) (askState 1 true)) ∧
  ((fun (p : PortId) (m : FabMsg) (s : State) =>
    let t := s.takeMsg p m
    (s.isOwn (dfidOf m) = false) ∧ (s.answers p.page) ∧ (t.fidOf ≠ none) ∧ (t.carries p) ∧ (t.isOwn (dfidOf m) = false)) p17 (.req { reqMsg 1 8 0x20000003000 [] with dfid := 9 }) fabState) ∧
  ((fun (h : Half) (e : Nat × PortSt) (s : State) =>
    let old := fun (off : Nat) (l : List FabMsg) => (if off = 0 then l else l.drop 1).any s.isTransit
    (s.ports.find? (fun e => e.1 / 64 = halfNo h && (old e.2.offReq e.2.txReq || old e.2.offRsp e.2.txRsp)) = some e)) .A (17, { portInit with txReq := [.req { reqMsg 1 8 0x20000003000 [] with dfid := 9 }] }) (fabState.setPort p17 { portInit with txReq := [.req { reqMsg 1 8 0x20000003000 [] with dfid := 9 }] })) ∧
  ((fun (m : Master) (h : Half) (value : Word) (passed : List (BitVec 15)) (s : State) =>
    (s.reaches m) ∧ (s.answers (.comb h)) ∧ (1 ≤ bits value.toNat 13 0) ∧ (bits value.toNat 13 0 ≤ 10000)) .cc .A 100#32 [4#15] (askState 1 false)) ∧
  ((fun (m : Master) (h : Half) (value : Word) (passed : List (BitVec 15)) (s : State) =>
    (s.reaches m) ∧ (1 ≤ bits value.toNat 13 0 → 10000 < bits value.toNat 13 0)) .cc .A 0#32 [] upState) := by
  refine ⟨?_, ?_, ?_, ?_, ?_, ?_, ?_, ?_, ?_, ?_, ?_, ?_, ?_, ?_⟩ <;> (beta_reduce; decide +kernel)

/-- The hypotheses of Obligations.FabricRings can be met, those of each clause in turn. -/
theorem test_witness_FabricRings :
  ((fun (m : Master) (h : Half) (p : Fin 8) (value : Word) (s : State) =>
    (s.reaches m) ∧ (s.answers (.comb h)) ∧ (bit value.toNat 0 = false)) .cc .A 0 0x40#32 upState) ∧
  ((fun (m : Master) (h : Half) (p : Fin 8) (value : Word) (s : State) =>
    let t := s.setF (.comb h) (R.comb.PF_CTX_LO_ADDR.ix p.val) (bits value.toNat 31 6)
    (s.reaches m) ∧ (s.answers (.comb h)) ∧ (bit value.toNat 0) ∧ (t.ctxBusy h p.val = false)) .cc .A 0 0x41#32 upState) ∧
  ((fun (m : Master) (h : Half) (p : Fin 8) (value : Word) (s : State) =>
    let t := s.setF (.comb h) (R.comb.PF_CTX_LO_ADDR.ix p.val) (bits value.toNat 31 6)
    (s.reaches m) ∧ (s.answers (.comb h)) ∧ (bit value.toNat 0) ∧ (t.ctxBusy h p.val)) .cc .A 0 0x41#32 { upState with fctx := [(0, { fctxInit with fly := [⟨0, 3⟩] })] }) ∧
  ((fun (m : Master) (h : Half) (p : Fin 8) (value : Word) (hr : HostRead) (s : State) =>
    (s.reaches m) ∧ (s.answers (.comb h)) ∧ (s.loaded h p.val = false)) .cc .A 0 1#32 .unused upState) ∧
  ((fun (m : Master) (h : Half) (p : Fin 8) (value : Word) (hr : HostRead) (s : State) =>
    (s.reaches m) ∧ (s.answers (.comb h)) ∧ (s.loaded h p.val) ∧ (2 ^ bits (s.fctxOf h p.val).raw 131 128 ≤ bits value.toNat 15 0)) .cc .A 0 1#32 .unused { upState with fctx := [(0, fctxInit)] }) ∧
  ((fun (m : Master) (h : Half) (p : Fin 8) (value : Word) (hr : HostRead) (s : State) =>
    (s.reaches m) ∧ (s.answers (.comb h)) ∧ (s.loaded h p.val) ∧ (bits value.toNat 15 0 < 2 ^ bits (s.fctxOf h p.val).raw 131 128)) .cc .A 0 1#32 .unused { fabState with fctx := [(0, { fctxInit with raw := 2 ^ 128 * 4 + 2 ^ 132 * 4 + 0x20000003000 + 2 ^ 64 * 0x20000004000 })] }) := by
  refine ⟨?_, ?_, ?_, ?_, ?_, ?_⟩ <;> (beta_reduce; decide +kernel)

/-- The hypotheses of Obligations.CollectiveMessages can be met, those of each clause in turn. -/
theorem test_witness_CollectiveMessages :
  ((fun (p : PortId) (m : CollMsg) (c : CollSt) (s : State) =>
    let y : CollMsg := { m with opc := 0x20 }
    let t := s.takeMsg p (.coll y)
    (s.answers p.page) ∧ (t.carries p) ∧ (t.isOwn m.dfid.toNat) ∧ (m.rsvd = 0) ∧ (m.len.toNat = m.data.length) ∧ (m.data ≠ []) ∧ (m.data.length ≤ 128) ∧ (c.accepts y) ∧ (t.running y = some c)) p17 (collMsg7 0x20 [1, 2, 3, 4]) ({ half := .A, q := 3, slot := 0, part := 0, raw := collWord 2 2, rank := 0, fids := [5, 7], going := true, ready := [], got := [], hold := [], free := 0, bytes := 0 }) collRun) ∧
  ((fun (p : PortId) (m : CollMsg) (c : CollSt) (s : State) =>
    let y : CollMsg := { m with opc := 0x20 }
    let t := s.takeMsg p (.coll y)
    (s.answers p.page) ∧ (t.carries p) ∧ (t.isOwn m.dfid.toNat) ∧ (m.rsvd = 0) ∧ (m.len.toNat = m.data.length) ∧ (m.data ≠ []) ∧ (m.data.length ≤ 128) ∧ (c.accepts y = false) ∧ (t.running y = some c)) p17 { collMsg7 0x20 [1, 2, 3, 4] with op := 0 } ({ half := .A, q := 3, slot := 0, part := 0, raw := collWord 2 2, rank := 0, fids := [5, 7], going := true, ready := [], got := [], hold := [], free := 0, bytes := 0 }) collRun) ∧
  ((fun (p : PortId) (m : CollMsg) (s : State) =>
    let y : CollMsg := { m with opc := 0x20 }
    let t := s.takeMsg p (.coll y)
    (s.answers p.page) ∧ (t.carries p) ∧ (t.isOwn m.dfid.toNat) ∧ (t.running y = none)) p17 (collMsg7 0x20 [1, 2, 3, 4]) fabState) ∧
  ((fun (p : PortId) (m : CollMsg) (c : CollSt) (s : State) =>
    let y : CollMsg := { m with opc := 0x21 }
    let t := s.takeMsg p (.coll y)
    (s.answers p.page) ∧ (t.carries p) ∧ (t.isOwn m.dfid.toNat) ∧ (m.rsvd = 0) ∧ (m.len = 0) ∧ (c.fids.contains m.sfid.toNat) ∧ (t.running y = some c)) p17 (collMsg7 0x21 []) ({ half := .A, q := 3, slot := 0, part := 0, raw := collWord 2 2, rank := 0, fids := [5, 7], going := true, ready := [], got := [], hold := [], free := 0, bytes := 0 }) collRun) ∧
  ((fun (p : PortId) (m : CollMsg) (s : State) =>
    let y : CollMsg := { m with opc := 0x21 }
    let t := s.takeMsg p (.coll y)
    (s.answers p.page) ∧ (t.carries p) ∧ (t.isOwn m.dfid.toNat) ∧ (m.rsvd = 0) ∧ (m.len = 0) ∧ (t.swarms.find? (fun e => e.1 = m.swarm.toNat) = none) ∧ (t.readys.contains (m.swarm.toNat, m.cseq.toNat, m.sfid.toNat) = false) ∧ (t.running y = none)) p17 (collMsg7 0x21 []) fabState) ∧
  ((fun (p : PortId) (m : CollMsg) (c : CollSt) (s : State) =>
    let y : CollMsg := { m with opc := 0x22 }
    let t := s.takeMsg p (.coll y)
    (s.answers p.page) ∧ (t.carries p) ∧ (t.isOwn m.dfid.toNat) ∧ (m.rsvd = 0) ∧ (m.len = 0) ∧ (c.fids.contains m.sfid.toNat) ∧ (t.running y = some c)) p17 (collMsg7 0x22 []) ({ half := .A, q := 3, slot := 0, part := 0, raw := collWord 2 2, rank := 0, fids := [5, 7], going := true, ready := [], got := [], hold := [], free := 0, bytes := 0 }) collRun) ∧
  ((fun (p : PortId) (m : CollMsg) (s : State) =>
    let y : CollMsg := { m with opc := 0x22 }
    let t := s.takeMsg p (.coll y)
    (s.answers p.page) ∧ (t.carries p) ∧ (t.isOwn m.dfid.toNat) ∧ (m.rsvd = 0) ∧ (m.len = 0) ∧ (t.swarms.find? (fun e => e.1 = m.swarm.toNat) = none) ∧ (t.aborted.contains (m.swarm.toNat, m.cseq.toNat) = false) ∧ (t.running y = none)) p17 (collMsg7 0x22 []) fabState) ∧
  ((fun (r : QRef) (slot : BitVec 16) (c : CollSt) (s : State) =>
    (s.collAt r.half r.q.val slot.toNat = some c)) ⟨.A, 3⟩ 0#16 ({ half := .A, q := 3, slot := 0, part := 0, raw := collWord 2 2, rank := 0, fids := [5, 7], going := true, ready := [], got := [], hold := [], free := 0, bytes := 0 }) collRun) := by
  refine ⟨?_, ?_, ?_, ?_, ?_, ?_, ?_, ?_⟩ <;> (beta_reduce; decide +kernel)

/-- The hypotheses of Obligations.FunctionResets can be met, those of each clause in turn. -/
theorem test_witness_FunctionResets :
  ((fun (h : Half) (s : State) =>
    (s.answers (.pcie h))) .A pcieState) ∧
  ((fun (h : Half) (s : State) =>
    (s.answers (.pcie h) = false)) .A State.reset) ∧
  ((fun (f : Fn) (s : State) =>
    let q : Page := .pcie (s.ownPort f)
    (s.answers q) ∧ (s.isSet q R.pcie.LINK_STS_DL_UP)) .f0 pcieState) ∧
  ((fun (f : Fn) (s : State) =>
    let q : Page := .pcie (s.ownPort f)
    (s.answers q) ∧ (s.isSet q R.pcie.LINK_STS_DL_UP)) .f0 pcieState) ∧
  ((fun (f : Fn) (s : State) =>
    let q : Page := .pcie (s.ownPort f)
    (s.answers q) ∧ (s.isSet q R.pcie.LINK_STS_DL_UP)) .f0 pcieState) ∧
  ((fun (f : Fn) (s : State) =>
    let q : Page := .pcie (s.ownPort f)
    (s.answers q) ∧ (s.isSet q R.pcie.LINK_STS_DL_UP) ∧ ((s.fnst f).d3)) .f0 { pcieState with fn0 := { pcieState.fn0 with d3 := true } }) ∧
  ((fun (f : Fn) (o : DoeObj) (s : State) =>
    let q : Page := .pcie (s.ownPort f)
    (s.answers q) ∧ (s.isSet q R.pcie.LINK_STS_DL_UP) ∧ ((s.fnst f).doe = none)) .f0 (.discovery 0) pcieState) ∧
  ((fun (f : Fn) (s : State) =>
    let q : Page := .pcie (s.ownPort f)
    (s.answers q) ∧ (s.isSet q R.pcie.LINK_STS_DL_UP)) .f0 pcieState) ∧
  ((fun (f : Fn) (w : CfgWrite) (s : State) =>
    let q : Page := .pcie (s.ownPort f)
    (s.answers q) ∧ (s.isSet q R.pcie.LINK_STS_DL_UP)) .f0 (.memorySpace true) pcieState) := by
  refine ⟨?_, ?_, ?_, ?_, ?_, ?_, ?_, ?_, ?_⟩ <;> (beta_reduce; decide +kernel)

/-- The hypotheses of Obligations.HostLinksAndAccess can be met, those of each clause in turn. -/
theorem test_witness_HostLinksAndAccess :
  ((fun (h : Half) (s : State) =>
    (s.answers (.pcie h)) ∧ (s.isSet (.pcie h) R.pcie.LINK_STS_DL_UP)) .A pcieState) ∧
  ((fun (h : Half) (flit : Bool) (rate : BitVec 4) (width : BitVec 5) (s : State) =>
    (s.answers (.pcie h)) ∧ (s.portPerst h = false) ∧ (s.isSet (.pcie h) R.pcie.LINK_STS_DL_UP = false)) .A true 6#4 16#5 (pcieState.setF (.pcie .A) R.pcie.LINK_STS_DL_UP 0)) ∧
  ((fun (h : Half) (s : State) =>
    (s.answers (.pcie h)) ∧ (s.portPerst h = false) ∧ (s.isSet (.pcie h) R.pcie.LINK_STS_DL_UP = false) ∧ ((s.hport h).wasUp)) .A ((pcieState.setF (.pcie .A) R.pcie.LINK_STS_DL_UP 0).setHport .A { pcieState.hport .A with wasUp := true })) ∧
  ((fun (m : Master) (h : Half) (s : State) =>
    (s.reaches m) ∧ (s.answers (.pcie h)) ∧ (s.isSet (.pcie h) R.pcie.LINK_STS_DL_UP) ∧ (s.isSet (.pcie (otherHalf h)) R.pcie.HOST_ROLE_CARRIES_OTHER)) .cc .A (pcieState.setF (.pcie .B) R.pcie.HOST_ROLE_CARRIES_OTHER 1)) ∧
  ((fun (m : Master) (h : Half) (s : State) =>
    (s.reaches m) ∧ (s.answers (.pcie h)) ∧ ((s.isSet (.pcie h) R.pcie.LINK_STS_DL_UP && s.isSet (.pcie (otherHalf h)) R.pcie.HOST_ROLE_CARRIES_OTHER) = false)) .cc .A pcieState) ∧
  ((fun (f : Fn) (offset len : Nat) (u : Upset) (s : State) =>
    (s.cfgOpen f) ∧ (s.memOpen f = false ∨ 2 ^ s.getF (.pcie (s.ownPort f)) R.pcie.BAR2_SIZE_LOG2 < offset + len ∨ 4096 < len)) .f0 0 5000 .none pcieState) ∧
  ((fun (f : Fn) (offset len : Nat) (u : Upset) (s : State) =>
    (s.cfgOpen f) ∧ (s.memOpen f) ∧ (offset + len ≤ 2 ^ s.getF (.pcie (s.ownPort f)) R.pcie.BAR2_SIZE_LOG2) ∧ (len ≤ 4096) ∧ ((linesOf (s.bar2Addr f offset) len).any (fun e => !s.mapped e.1))) .f0 0 8 .none ((pcieState.setF (.pcie .A) R.pcie.BAR2_SIZE_LOG2 36).setF (.pcie .A) R.pcie.BAR2_BASE_HI_ADDR 0x80000)) ∧
  ((fun (f : Fn) (offset len : Nat) (u : Upset) (s : State) =>
    (s.cfgOpen f) ∧ (s.memOpen f) ∧ (offset + len ≤ 2 ^ s.getF (.pcie (s.ownPort f)) R.pcie.BAR2_SIZE_LOG2) ∧ (len ≤ 4096) ∧ ((linesOf (s.bar2Addr f offset) len).all (fun e => s.mapped e.1))) .f0 0 8 .none (bar2State)) ∧
  ((fun (f : Fn) (offset : Nat) (data : List Byte) (poisoned : Bool) (s : State) =>
    (s.memOpen f = false ∨ 2 ^ s.getF (.pcie (s.ownPort f)) R.pcie.BAR2_SIZE_LOG2 < offset + data.length)) .f0 0 [] false upState) ∧
  ((fun (f : Fn) (offset : Nat) (data : List Byte) (poisoned : Bool) (s : State) =>
    (s.memOpen f) ∧ (offset + data.length ≤ 2 ^ s.getF (.pcie (s.ownPort f)) R.pcie.BAR2_SIZE_LOG2)) .f0 0 [1, 2] false bar2State) ∧
  ((fun (h : Half) (id : Nat) (b : List Byte) (s : State) =>
    (s.portRead h id)) .A 7 [1] (pcieState.setHport .A { pcieState.hport .A with reads := [.read .f0 7 0 1] })) ∧
  ((fun (h : Half) (id : Nat) (s : State) =>
    (s.portRead h id)) .A 7 (pcieState.setHport .A { pcieState.hport .A with reads := [.read .f0 7 0 1] })) ∧
  ((fun (h : Half) (id : Nat) (s : State) =>
    (s.portRead h id)) .A 7 (pcieState.setHport .A { pcieState.hport .A with reads := [.read .f0 7 0 1] })) ∧
  ((fun (h : Half) (id : Nat) (s : State) =>
    (s.portRead h id)) .A 7 (pcieState.setHport .A { pcieState.hport .A with reads := [.read .f0 7 0 1] })) ∧
  ((fun (f : Fn) (vec : Fin 2048) (s : State) =>
    (s.memOpen f)) .f0 3 pcieState) := by
  refine ⟨?_, ?_, ?_, ?_, ?_, ?_, ?_, ?_, ?_, ?_, ?_, ?_, ?_, ?_, ?_⟩ <;> (beta_reduce; decide +kernel)

/-- The hypotheses of Obligations.UpdatesAndRecovery can be met, those of each clause in turn. -/
theorem test_witness_UpdatesAndRecovery :
  ((fun (i : Fin 32) (writeOk : Bool) (s : State) =>
    let j : Fin 48 := Fin.ofNat 48 i.val
    let b := s.inMsg j
    (s.answers (mbxPage j)) ∧ (s.isSet (mbxPage j) R.mbx.MBX_STS_IN_FULL) ∧ (msgOp b = 0x60) ∧ ((s.waitingOut j).length < 8) ∧ (s.halted = false) ∧ (i.val < 4) ∧ (msgRsvd b = 0) ∧ (msgLen b = 14)) 0 true (reqIn 0 0x60 14 [] upState)) ∧
  ((fun (i : Fin 32) (s : State) =>
    let j : Fin 48 := Fin.ofNat 48 i.val
    let b := s.inMsg j
    (s.answers (mbxPage j)) ∧ (s.isSet (mbxPage j) R.mbx.MBX_STS_IN_FULL) ∧ (msgOp b = 0x61) ∧ ((s.waitingOut j).length < 8) ∧ (s.halted = false) ∧ (i.val < 4) ∧ (msgRsvd b = 0) ∧ (msgLen b = 2)) 0 (reqIn 0 0x61 2 [0x200] upState)) ∧
  ((fun (i : Fin 32) (s : State) =>
    let j : Fin 48 := Fin.ofNat 48 i.val
    let b := s.inMsg j
    (s.answers (mbxPage j)) ∧ (s.isSet (mbxPage j) R.mbx.MBX_STS_IN_FULL) ∧ (msgOp b = 0x62) ∧ ((s.waitingOut j).length < 8) ∧ (s.halted = false) ∧ (i.val < 4) ∧ (msgRsvd b = 0) ∧ (msgLen b = 2)) 0 (reqIn 0 0x62 2 [] upState)) ∧
  ((fun (r : Region) (offset : Nat) (data : List Byte) (s : State) =>
    (s.reached .i3c) ∧ (data ≠ []) ∧ (data.length ≤ 1024) ∧ (offset + data.length ≤ regionSize r)) .control 0 [1, 2] i3cState) ∧
  ((fun (r : Region) (offset : Nat) (data : List Byte) (f : Fn) (s : State) =>
    (s.reached (.pcie f))) .control 0 [1, 2] .f0 pcieState) ∧
  ((fun (r : Region) (writeOk : Bool) (s : State) =>
    (s.reached .i3c)) .control true i3cState) ∧
  ((fun (r : Region) (writeOk : Bool) (f : Fn) (s : State) =>
    (s.reached (.pcie f))) .control true .f0 pcieState) := by
  refine ⟨?_, ?_, ?_, ?_, ?_, ?_, ?_⟩ <;> (beta_reduce; decide +kernel)

/-- The hypotheses of Obligations.DebugAndTap can be met, those of each clause in turn. -/
theorem test_witness_DebugAndTap :
  ((fun (i : Fin 32) (s : State) =>
    let j : Fin 48 := Fin.ofNat 48 i.val
    let b := s.inMsg j
    (s.answers (mbxPage j)) ∧ (s.isSet (mbxPage j) R.mbx.MBX_STS_IN_FULL) ∧ (msgOp b = 0x63) ∧ ((s.waitingOut j).length < 8) ∧ (s.halted = false) ∧ (i.val < 4) ∧ (msgRsvd b = 0) ∧ (msgLen b = 0)) 0 (reqIn 0 0x63 0 [] upState)) ∧
  ((fun (i : Fin 32) (s : State) =>
    let j : Fin 48 := Fin.ofNat 48 i.val
    let b := s.inMsg j
    (s.answers (mbxPage j)) ∧ (s.isSet (mbxPage j) R.mbx.MBX_STS_IN_FULL) ∧ (msgOp b = 0x64) ∧ ((s.waitingOut j).length < 8) ∧ (s.halted = false) ∧ (i.val < 4) ∧ (msgRsvd b = 0) ∧ (msgLen b = 158)) 0 (reqIn 0 0x64 158 [] upState)) ∧
  ((fun (m : Master) (s : State) =>
    (s.reaches m) ∧ (s.answers .sec)) .cc upState) ∧
  ((fun (rising tms tdi : Bool) (s : State) =>
    (s.pins.vAon)) true false true bootable) ∧
  ((fun (rising tms tdi : Bool) (s : State) =>
    (s.pins.vAon = false)) true false true { upState with pins := { upState.pins with vAon := false } }) := by
  refine ⟨?_, ?_, ?_, ?_, ?_⟩ <;> (beta_reduce; decide +kernel)

/-- The hypotheses of Obligations.Attestation can be met, those of each clause in turn. -/
theorem test_witness_Attestation :
  ((fun (r : SpdmReq) (s : State) =>
    (s.spdmHere r.transport)) ⟨.doe .f0, 0x12, 0, 1, 0, 64, [], false, true, true⟩ (spdmState 3)) ∧
  ((fun (r : SpdmReq) (s : State) =>
    (s.spdmHere r.transport) ∧ (r.version = 0x12 ∨ r.version = 0x13) ∧ (1 ≤ s.spdmStage r.transport)) ⟨.doe .f0, 0x12, 0, 1, 0, 64, [], false, true, true⟩ (spdmState 3)) ∧
  ((fun (r : SpdmReq) (s : State) =>
    (s.spdmHere r.transport) ∧ (r.version = 0x12 ∨ r.version = 0x13) ∧ (2 ≤ s.spdmStage r.transport) ∧ (r.asymOk) ∧ (r.hashOk)) ⟨.doe .f0, 0x12, 0, 1, 0, 64, [], false, true, true⟩ (spdmState 3)) ∧
  ((fun (r : SpdmReq) (s : State) =>
    (s.spdmHere r.transport) ∧ (r.version = 0x12 ∨ r.version = 0x13) ∧ (2 ≤ s.spdmStage r.transport) ∧ ((r.asymOk && r.hashOk) = false)) ⟨.doe .f0, 0x12, 0, 1, 0, 64, [], false, false, true⟩ (spdmState 3)) ∧
  ((fun (r : SpdmReq) (s : State) =>
    (s.spdmHere r.transport) ∧ (r.version = 0x12 ∨ r.version = 0x13) ∧ (3 ≤ s.spdmStage r.transport)) ⟨.doe .f0, 0x12, 0, 1, 0, 64, [], false, true, true⟩ (spdmState 3)) ∧
  ((fun (r : SpdmReq) (s : State) =>
    (s.spdmHere r.transport) ∧ (r.version = 0x12 ∨ r.version = 0x13) ∧ (3 ≤ s.spdmStage r.transport)) ⟨.doe .f0, 0x12, 0, 1, 0, 64, [], false, true, true⟩ (spdmState 3)) ∧
  ((fun (r : SpdmReq) (s : State) =>
    (s.spdmHere r.transport) ∧ (r.version = 0x12 ∨ r.version = 0x13) ∧ (3 ≤ s.spdmStage r.transport)) ⟨.doe .f0, 0x12, 0, 1, 0, 64, [], false, true, true⟩ (spdmState 3)) ∧
  ((fun (r : SpdmReq) (s : State) =>
    (s.spdmHere r.transport) ∧ (r.version = 0x12 ∨ r.version = 0x13) ∧ (3 ≤ s.spdmStage r.transport)) ⟨.doe .f0, 0x12, 0, 1, 0, 64, [], false, true, true⟩ (spdmState 3)) ∧
  ((fun (r : SpdmReq) (s : State) =>
    (s.spdmHere r.transport) ∧ (r.version ≠ 0x12) ∧ (r.version ≠ 0x13)) ⟨.doe .f0, 0x11, 0, 1, 0, 64, [], false, true, true⟩ (spdmState 3)) ∧
  ((fun (r : SpdmReq) (s : State) =>
    (s.spdmHere r.transport) ∧ (r.version = 0x12 ∨ r.version = 0x13) ∧ (s.spdmStage r.transport < 3)) ⟨.doe .f0, 0x12, 0, 1, 0, 64, [], false, true, true⟩ (spdmState 2)) := by
  refine ⟨?_, ?_, ?_, ?_, ?_, ?_, ?_, ?_, ?_, ?_⟩ <;> (beta_reduce; decide +kernel)

/-- The hypotheses of Obligations.LinkKeys can be met, those of each clause in turn. -/
theorem test_witness_LinkKeys :
  ((fun (p : PortId) (kind : BitVec 8) (i : BitVec 16) (whole : Option KxMsg) (t : State) (s : State) =>
    let q := s.lead p
    (s.answers q.page) ∧ (s.linkUp q) ∧ (s.kxJoin q kind.toNat = some t)) p17 0 0 none (oeState.updPort p17 (fun x => { x with kx := { x.kx with st := 1 } })) (oeState.updPort p17 (fun x => { x with kx := { x.kx with st := 1 } }))) ∧
  ((fun (p : PortId) (kind : BitVec 8) (i : BitVec 16) (whole : Option KxMsg) (s : State) =>
    let q := s.lead p
    (s.answers q.page) ∧ (s.linkUp q) ∧ (s.kxJoin q kind.toNat = none)) p17 0 0 none oeState) ∧
  ((fun (p : PortId) (n : BitVec 16) (s : State) =>
    let q := s.lead p
    (s.answers q.page) ∧ ([1, 2, 6, 7].contains (s.port q).kx.st) ∧ ((s.port q).kx.acked < n.toNat) ∧ (n.toNat ≤ ((s.port q).kx.msg.length + 11) / 12)) p17 1 (oeState.updPort p17 (fun x => { x with kx := { x.kx with st := 1, msg := [1] } }))) ∧
  ((fun (p : PortId) (c : BitVec 64) (s : State) =>
    let q := s.lead p
    (s.answers q.page) ∧ ([1, 2, 6, 7].contains (s.port q).kx.st)) p17 20 (oeState.updPort p17 (fun x => { x with kx := { x.kx with st := 1 } }))) ∧
  ((fun (p : PortId) (reason : BitVec 8) (s : State) =>
    let q := s.lead p
    (s.answers q.page) ∧ ([1, 2, 6, 7].contains (s.port q).kx.st)) p17 2 (oeState.updPort p17 (fun x => { x with kx := { x.kx with st := 1 } }))) ∧
  ((fun (p : PortId) (s : State) =>
    let q := s.lead p
    (s.answers q.page) ∧ ([1, 2, 6, 7].contains (s.port q).kx.st)) p17 (oeState.updPort p17 (fun x => { x with kx := { x.kx with st := 2, sentSw := true, msg := [1] } }))) ∧
  ((fun (p : PortId) (s : State) =>
    let q := s.lead p
    (s.answers q.page) ∧ ((s.port q).kx.st = 1 ∨ (s.port q).kx.st = 2)) p17 (oeState.updPort p17 (fun x => { x with kx := { x.kx with st := 1 } }))) ∧
  ((fun (p : PortId) (s : State) =>
    let q := s.lead p
    (s.answers q.page) ∧ (s.linkUp q) ∧ ((s.port q).kx.st = 4)) p17 (oeState.updPort p17 (fun x => { x with kx := { x.kx with st := 4 } }))) ∧
  ((fun (p : PortId) (s : State) =>
    let q := s.lead p
    (s.answers q.page) ∧ (s.linkUp q) ∧ ((s.port q).kx.st = 8)) p17 (oeState.updPort p17 (fun x => { x with kx := { x.kx with st := 8 } }))) ∧
  ((fun (p : PortId) (s : State) =>
    let q := s.lead p
    (s.answers q.page) ∧ (s.linkUp q) ∧ ((s.port q).kx.st = 3)) p17 (oeState.updPort p17 (fun x => { x with kx := { x.kx with st := 3 } }))) ∧
  ((fun (p : PortId) (s : State) =>
    let q := s.lead p
    (s.answers q.page) ∧ (s.linkUp q) ∧ (kxStall (s.port q).kx)) p17 (oeState.updPort p17 (fun x => { x with kx := { x.kx with st := 2 } }))) := by
  refine ⟨?_, ?_, ?_, ?_, ?_, ?_, ?_, ?_, ?_, ?_, ?_⟩ <;> (beta_reduce; decide +kernel)

/-- The hypotheses of Obligations.StepTakesFrontCommand can be met, those of each clause in turn. -/
theorem test_witness_StepTakesFrontCommand :
  (let s := { State.reset with pending := [Instr.nop .A 0 .none] }
   s.pending = .nop .A 0 .none :: []) ∧ State.reset.pending = [] := by decide

/-- The hypotheses of Obligations.QueueIsDrained can be met, those of each clause in turn. -/
theorem test_witness_QueueIsDrained :
  (queueWf { State.reset with pending := [.latchedLowRead .host0 ⟨0x1108, .low⟩, .badSizeAccess .keeper 2 4 true] }) := by decide

/-- The hypotheses of Obligations.UnansweredPages can be met, those of each clause in turn. -/
theorem test_witness_UnansweredPages :
  (pageOf 0x7FFF = none ∧ 0x7FFF < 0x800000) ∧ (pageOf 0x10000000 = none) ∧
  (State.reset.die (dieOf .keeper) ≠ .up) ∧
  (pageHalf (.oe .B 7) = some .B ∧ State.reset.die (dieComb .B) ≠ .up) ∧
  (upState.die (dieOf (.cell .B 287)) = .up ∧ pageHalf (.cell .B 287) = some .B ∧ upState.die (dieComb .B) = .up) := by decide +kernel

/-- The hypotheses of Obligations.Acknowledgements can be met, those of each clause in turn. -/
theorem test_witness_Acknowledgements :
  (let s := oeState.setTx p17 65534 3
   let t := oeState.setTx p17 0 65535
   1 ≤ dist16 (s.txA p17) 65535 ∧ dist16 (s.txA p17) 65535 ≤ dist16 (s.txA p17) (s.txN p17) ∧
   1 ≤ dist16 (s.txA p17) 3 ∧ dist16 (s.txA p17) 3 ≤ dist16 (s.txA p17) (s.txN p17) ∧
   dist16 (s.txA p17) (s.txN p17) < dist16 (s.txA p17) 4 ∧ dist16 (s.txA p17) (s.txN p17) < dist16 (s.txA p17) 65533 ∧
   1 ≤ dist16 (t.txA p17) 65535 ∧ dist16 (t.txA p17) 65535 ≤ dist16 (t.txA p17) (t.txN p17)) := by decide +kernel

/-- The hypotheses of Obligations.RegisterFields can be met, those of each clause in turn. -/
theorem test_witness_RegisterFields :
  (R.comb.COALESCED_COUNT.lo ≤ R.comb.COALESCED_COUNT.hi ∧ R.comb.COALESCED_COUNT.hi < 32) ∧
  (R.keeper.STRAPS_PRI_SEL.hi < R.keeper.STRAPS_BRDID.lo ∧ R.keeper.STRAPS_BRDID.hi < 32) ∧
  (fldAddr (.comb .A) R.comb.COALESCED_COUNT ≠ fldAddr (.comb .B) R.comb.COALESCED_COUNT) ∧ Page.comb .A ≠ Page.comb .B := by decide +kernel

/-- The hypotheses of Obligations.DeviceMemoryBytes can be met, those of each clause in turn. -/
theorem test_witness_DeviceMemoryBytes :
  (7 + 1 ≤ 8 ∨ 8 + 1 ≤ 7) ∧ (8 + 4 ≤ 12) ∧ 0 < 1 := by decide

/-- The hypotheses of Obligations.FlitHeaders can be met, those of each clause in turn. -/
theorem test_witness_FlitHeaders :
  (let x : FlitHdr := { seq := 65535, ack := 65535, nak := true, kind := 3, xReq := true, xRsp := true, enc := true, plen := 240, nmsg := 15 }
   x.seq < 2 ^ 16 ∧ x.ack < 2 ^ 16 ∧ x.kind < 4 ∧ x.plen < 2 ^ 8 ∧ x.nmsg < 2 ^ 4) := by decide

/-- The hypotheses of Obligations.ExactConversions can be met, those of each clause in turn. -/
theorem test_witness_ExactConversions :
  (fpOf 0 = some fp32 ∧ 0x807FFFFF < 2 ^ (fp32.eb + fp32.mb + 1) ∧ decodeFp fp32 0x807FFFFF ≠ .nan) ∧
  (fpOf 2 = some fp16 ∧ 0xFC00 < 2 ^ (fp16.eb + fp16.mb + 1) ∧ decodeFp fp16 0xFC00 ≠ .nan) ∧
  (fpOf 3 = some e4m3 ∧ 0xFE < 2 ^ (e4m3.eb + e4m3.mb + 1) ∧ decodeFp e4m3 0xFE ≠ .nan ∧ e4m3.nanCode = some 0x7F) ∧
  (fpOf 9 = some e2m1 ∧ 0xF < 2 ^ (e2m1.eb + e2m1.mb + 1) ∧ decodeFp e2m1 0xF ≠ .nan) := by decide +kernel

/-- The hypotheses of Obligations.DebugMasterIsolation can be met, those of each clause in turn. -/
theorem test_witness_DebugMasterIsolation :
  ((Instr.lockAcquire .debug .sec).wf ∧ (Instr.lockAcquire .debug .sec).master = some .debug ∧ State.reset.reaches .debug = false) ∧
  ((Instr.latchedLowRead .debug ⟨0x1108, .low⟩).wf ∧ (Instr.latchedLowRead .debug ⟨0x1108, .low⟩).master = some .debug) := by decide

/-- The hypotheses of Obligations.LineSplitting can be met, those of each clause in turn. -/
theorem test_witness_LineSplitting :
  (100, 28) ∈ linesOf 100 400 ∧ 2 + 1 < (linesOf 100 400).length ∧ (0 < 1) := by decide

/-- The hypotheses of Obligations.TagsOfAHalf can be met, those of each clause in turn. -/
theorem test_witness_TagsOfAHalf :
  State.reset.freeTag .B = some 16384 ∧ (askState 1 false).freeTag .A = some 0 := by decide +kernel

/-! ## Ill-formed commands are refused -/

theorem test_illFormed_aligned_access : (Instr.badSizeAccess .keeper 8 8 true).wf = false ∧ (Instr.badSizeAccess .keeper 8 4 true).wf = false := by decide
theorem test_illFormed_no_low_word : (Instr.latchedLowRead .host0 ⟨0x100110C, .low⟩).wf = false ∧ (Instr.latchedLowRead .host0 ⟨0x7000, .wide⟩).wf = false := by decide
theorem test_illFormed_empty_line : (LineReq.wf { half := .A, src := .dma, write := false, addr := 0, len := 0, data := [], part := none, hint := 0, upset := .none }) = false := by decide
theorem test_illFormed_two_lines : (LineReq.wf { half := .A, src := .dma, write := false, addr := 127, len := 2, data := [], part := none, hint := 0, upset := .none }) = false := by decide
theorem test_illFormed_data_of_a_read :
    (LineReq.wf { half := .A, src := .dma, write := false, addr := 0, len := 1, data := [0], part := none, hint := 0, upset := .none }) = false := by decide
theorem test_illFormed_short_write :
    (LineReq.wf { half := .A, src := .dma, write := true, addr := 0, len := 2, data := [0], part := none, hint := 0, upset := .none }) = false := by decide
theorem test_illFormed_refused : exec (.badSizeAccess .keeper 8 8 true) upState = .refused .illFormed := rfl

/-! ## Worked examples and tables of the spec -/

/-- 04, worked example: 0x0_0110_9000_5A40 lies in row 5 of half B; the three modes. -/
theorem test_address_decode :
    upState.place 0x001109000_5A40 = .hbm .B 0x1090005A40 ∧ 0x1090005A40 / rowSize = 5 ∧
    decodeRow 0 5 (0x1090005A40 % rowSize) = (6, 0x150005A40) ∧ decodeRow 1 5 (0x1090005A40 % rowSize) = (6, 0x145557A40) ∧
    decodeRow 2 5 (0x1090005A40 % rowSize) = (9, 0x161555A40) ∧ pageOf 0x08026000 = some (.hbmc .B 6) := by decide +kernel

/-- 02, worked example: the A elements 0.9, -0.3, 0.06 and 0.5 in units of the block's scale. -/
theorem test_lb4_rounding :
    lb4Round .rne 0xE66666 (-25) = (5, false) ∧ lb4Round .rne 0x99999A (-26) = (2, false) ∧ lb4Round .rne 0xF5C28F (-29) = (0, false) ∧
    lb4Round .rne 1 (-2) = (3, false) := by decide +kernel

/-- 02, worked example: the group pre-sums to P = 0 and Q = 0.25, and the pass ends at 0x3EB504F3. -/
theorem test_lb4_group :
    accLb4 0 (-34) 1 [(0x5, 0x6), (0xA, 0x6), (0x0, 0x3), (0x3, 0x5)] ⟨0, 0, false, false, false⟩ = ⟨0, 2 ^ 32, false, false, false⟩ ∧
    toFp fp32 .rne .sat (.fin false (2 ^ 32 * s2Const).toNat (-34 - 64)) = (0x3EB504F3, 0) := by decide +kernel

/-- 02 Table 2.3: the largest numbers of E4M3 and E5M2, and their smallest. -/
theorem test_fp8_values :
    toFp e4m3 .rne .sat (.fin false 448 0) = (0x7E, 0) ∧ toFp e5m2 .rne .sat (.fin false 57344 0) = (0x7B, 0) ∧
    toFp e4m3 .rne .sat (.fin false 1 (-9)) = (1, 0) ∧ toFp e5m2 .rne .sat (.fin true 1 (-16)) = (0x81, 0) := by decide +kernel

/-- 07 Table 7.5: flit 0x0005 lies 261 ahead of 0xFF00. -/
theorem test_sequence_distance : dist16 0xFF00 0x0005 = 261 := by decide

/-- 01 R28: the map of BAR0. -/
theorem test_pages : pageOf 0 = some .keeper ∧ pageOf 0x1001000 = some (.comb .A) ∧ pageOf 0x8001000 = some (.comb .B) := by decide

/-- 00: CRC-32C of the ASCII digits 1 to 9. -/
theorem test_crc32c : crc32c [0x31, 0x32, 0x33, 0x34, 0x35, 0x36, 0x37, 0x38, 0x39] = 0xE3069283 := by decide +kernel

end Sys2Proof.Tests
end

/-! SUPPORT and statements: a step takes the front command, and every command answers a next state with the queue as it was (00 R1, R8). -/

namespace Sys2Proof.Proofs

open Sys2Proof.Machine

/-! ## One step -/

theorem step_of_pending_nil {s : State} (h : s.pending = []) : step s = .next s := by
  simp [step, h]

theorem step_of_pending_cons {s : State} {c : Instr} {t : List Instr} (h : s.pending = c :: t) :
    step s = exec c { s with pending := t } := by
  simp [step, h]

/-- Settles O49, by the two cases of a step. -/
theorem stepTakesFrontCommand : Obligations.StepTakesFrontCommand :=
  ⟨fun _ _ _ => step_of_pending_cons, fun _ => step_of_pending_nil⟩

/-! ## What a command answers -/

/-- The answer is a next state with the queue of s. -/
def KeepsQueue (s : State) (r : Res) : Prop := ∃ t, r = .next t ∧ t.pending = s.pending

/-- A command with an effect of its own: `onQueue` puts the queue back. -/
theorem keepsQueue_onQueue (t s : State) : KeepsQueue s (.next (t.onQueue s)) := ⟨_, rfl, rfl⟩

/-- An access of a master, which is nothing where the master does not reach the pages (13 R405). -/
theorem keepsQueue_access (m : Master) (t s : State) : KeepsQueue s (if s.reaches m then .next (t.onQueue s) else .next s) := by
  split
  · exact keepsQueue_onQueue t s
  · exact ⟨s, rfl, rfl⟩

/-- A command that its meaning refuses unless it is of its row's kind. -/
theorem keepsQueue_of_wf {s : State} {r : Res} {c : Instr} (hc : c.wf = true) (h : KeepsQueue s r) :
    KeepsQueue s (if !c.wf then .refused .illFormed else r) := by
  rwa [hc, Bool.not_true, if_neg Bool.false_ne_true]

/-- No well-formed command stops the block: each answers a next state and leaves the queue. The first three cases check their kind, the next are
the accesses of a master, every other command has its effect at once. -/
theorem exec_keepsQueue (c : Instr) (s : State) (hc : c.wf = true) : KeepsQueue s (exec c s) := by
  cases c
  case badSizeAccess => exact keepsQueue_of_wf hc (keepsQueue_access ..)
  case latchedLowRead => exact keepsQueue_of_wf hc (keepsQueue_access ..)
  case memoryAccess => exact keepsQueue_of_wf hc (keepsQueue_onQueue ..)
  case registerWrite | blockReset | errInjWrite | lockAcquire | lockRelease | doorbellSet | doorbellUnmask | retireReq | cellReset |
      queueDoorbell | enable | pause | resume | drain | disable | queueReset | qCmdBad | semAdd | semVal | qctBaseWrite | seqQuiesce |
      seqRun | terminate | restart | ilvWrite | hbmRetrain | retrainFull | hingeLinkReset | ucieDisable | shut | unshut | oeReqOff |
      oeReqDark | oeReqDim | oeReqActive | oeReset | monSel | research | spareGo | dropRx | crcTx | fabTmo | pfCtxLoad | fcrDb |
      giveback | mbxSend | mbxAck | mbxRsend | mbxRack | inSlotWrite | outSlotWrite | fdbSet | ccRestartWrite | capReq | fmax | halfRstA |
      halfRstB | cfgNext | runNow | injDis | errCons | errRingCtl =>
    exact keepsQueue_access ..
  all_goals exact keepsQueue_onQueue ..

/-! ## The queue runs to its end -/

/-- One step of a well-formed queue takes one command off it. -/
theorem step_of_queueWf (s : State) (h : queueWf s = true) :
    ∃ t, step s = .next t ∧ t.pending = s.pending.tail ∧ queueWf t = true := by
  cases hp : s.pending with
  | nil => exact ⟨s, step_of_pending_nil hp, hp, h⟩
  | cons c rest =>
    have hwf : c.wf = true ∧ rest.all Instr.wf = true := by simpa [queueWf, hp] using h
    obtain ⟨t, ht, hq⟩ := exec_keepsQueue c { s with pending := rest } hwf.1
    exact ⟨t, (step_of_pending_cons hp).trans ht, hq, by rw [queueWf, hq]; exact hwf.2⟩

theorem run_succ_of_next {M : Host.Core} {s t : M.State} (k : Nat) (h : M.step s = .next t) : M.run (k + 1) s = M.run k t := by
  simp only [Host.Core.run, h]

/-- As many steps as commands wait empty the queue. -/
theorem run_of_queueWf (k : Nat) (s : State) (hk : s.pending.length = k) (h : queueWf s = true) :
    ∃ t : State, Host.Core.run Sys2Proof.core k s = .next t ∧ t.pending = [] := by
  induction k generalizing s with
  | zero => exact ⟨s, rfl, List.length_eq_zero_iff.mp hk⟩
  | succ k ih =>
    obtain ⟨t, ht, hq, hwf⟩ := step_of_queueWf s h
    obtain ⟨u, hu, hend⟩ := ih t (by rw [hq, List.length_tail, hk, Nat.add_sub_cancel]) hwf
    exact ⟨u, (run_succ_of_next (M := Sys2Proof.core) k ht).trans hu, hend⟩

/-- Settles O50, by induction on the number of waiting commands. -/
theorem queueIsDrained : Obligations.QueueIsDrained :=
  ⟨step_of_queueWf, fun s => run_of_queueWf _ s rfl⟩

end Sys2Proof.Proofs

/-! SUPPORT and statement: strings of bytes in device memory (00 R7, 04 R113). -/

namespace Sys2Proof.Proofs

open Sys2Proof.Machine

/-- Storing a byte changes the list of bytes alone. -/
theorem wr_eq_bytes (m : Mem) (a : Nat) (v : Byte) : m.wr a v = { m with bytes := (m.wr a v).bytes } := by
  unfold Mem.wr
  split <;> rfl

/-- Storing a string of bytes changes the list of bytes alone. -/
theorem wrN_eq_bytes (m : Mem) (a : Nat) (b : List Byte) : m.wrN a b = { m with bytes := (m.wrN a b).bytes } := by
  induction b generalizing m a with
  | nil => rfl
  | cons v t ih =>
    calc (m.wr a v).wrN (a + 1) t
        = { m.wr a v with bytes := ((m.wr a v).wrN (a + 1) t).bytes } := ih _ _
      _ = { m with bytes := ((m.wr a v).wrN (a + 1) t).bytes } := by rw [wr_eq_bytes m a v]

/-- A byte outside a stored string reads as before. -/
theorem rd_wrN_of_outside (m : Mem) (a j : Nat) (b : List Byte) (h : j < a ∨ a + b.length ≤ j) :
    (m.wrN a b).rd j = m.rd j := by
  induction b generalizing m a with
  | nil => rfl
  | cons v t ih =>
    simp only [List.length_cons] at h
    calc ((m.wr a v).wrN (a + 1) t).rd j = (m.wr a v).rd j := ih _ _ (by omega)
      _ = m.rd j := Laws.rd_wr_of_ne m a j v (by omega)

/-- Bytes outside a stored string read as before. -/
theorem rdN_wrN_of_outside (m : Mem) (a j n : Nat) (b : List Byte) (h : j + n ≤ a ∨ a + b.length ≤ j) :
    (m.wrN a b).rdN j n = m.rdN j n := by
  induction n generalizing j with
  | zero => rfl
  | succ n ih => rw [Mem.rdN, Mem.rdN, rd_wrN_of_outside m a j b (by omega), ih (j + 1) (by omega)]

/-- A stored string reads back. -/
theorem rdN_wrN_self (m : Mem) (a : Nat) (b : List Byte) : (m.wrN a b).rdN a b.length = b := by
  induction b generalizing m a with
  | nil => rfl
  | cons v t ih =>
    have hhead : ((m.wr a v).wrN (a + 1) t).rd a = v :=
      (rd_wrN_of_outside _ _ _ _ (.inl a.lt_succ_self)).trans (Laws.rd_wr_self m a v)
    rw [Mem.wrN, List.length_cons, Mem.rdN, hhead, ih]

@[simp] theorem length_bytesOf (n v : Nat) : (bytesOf n v).length = n := by
  induction n generalizing v with
  | zero => rfl
  | succ n ih => simp [bytesOf, ih]

/-- n bytes hold a number modulo 2^(8 n). -/
theorem natOf_bytesOf (n v : Nat) : natOf (bytesOf n v) = v % 2 ^ (8 * n) := by
  induction n generalizing v with
  | zero => simp [bytesOf, natOf, Nat.mod_one]
  | succ n ih =>
    rw [bytesOf, natOf, ih, Nat.mul_succ, Nat.pow_add, Nat.mul_comm (2 ^ (8 * n)), Nat.mod_mul, BitVec.toNat_ofNat]

theorem bytesOf_head (n v : Nat) (h : 0 < n) : ∃ t, bytesOf n v = BitVec.ofNat 8 v :: t := by
  cases n with
  | zero => omega
  | succ n => exact ⟨_, rfl⟩

/-- Settles O54: a stored string is read byte by byte, and a byte outside it is none of those written. -/
theorem deviceMemoryBytes : Obligations.DeviceMemoryBytes := by
  unfold Obligations.DeviceMemoryBytes
  refine ⟨fun s => rdN_wrN_self s.mem, fun s => rdN_wrN_of_outside s.mem, fun s a n v => ?_, fun s a n v hn => ?_,
    fun s a b => ⟨rfl, wrN_eq_bytes s.mem a b⟩⟩
  · have back := rdN_wrN_self s.mem a (bytesOf n v)
    rw [length_bytesOf] at back
    rw [State.rd, State.wr_mem, back, natOf_bytesOf]
  · obtain ⟨t, ht⟩ := bytesOf_head n v hn
    have back := rdN_wrN_self s.mem a (bytesOf n v)
    rw [ht, List.length_cons, Mem.rdN] at back
    rw [State.rd, State.wr_mem, ht, Mem.rdN, Mem.rdN, (List.cons.inj back).1]

end Sys2Proof.Proofs

/-! SUPPORT and statement: fields of registers, and the reset of a block's registers (00 R8, R9; 01 R33, R34). -/

namespace Sys2Proof.Proofs

open Sys2Proof.Machine

/-! ## Bits of a word -/

theorem testBit_bits (v hi lo i : Nat) : (bits v hi lo).testBit i = (decide (i < hi + 1 - lo) && v.testBit (lo + i)) := by
  simp [bits, Nat.testBit_mod_two_pow, Nat.testBit_div_two_pow, Nat.add_comm]

theorem bits_lt (v hi lo : Nat) : bits v hi lo < 2 ^ (hi + 1 - lo) := Nat.mod_lt _ (Nat.two_pow_pos _)

/-- A word with k bits from lo replaced, by its three parts: those above, the new ones, those below. -/
theorem replaced_eq_parts (w lo k n : Nat) :
    w - w / 2 ^ lo % 2 ^ k * 2 ^ lo + n % 2 ^ k * 2 ^ lo =
      2 ^ lo * (2 ^ k * (w / 2 ^ lo / 2 ^ k) + n % 2 ^ k) + w % 2 ^ lo := by
  have hw : w = 2 ^ lo * (2 ^ k * (w / 2 ^ lo / 2 ^ k)) + w / 2 ^ lo % 2 ^ k * 2 ^ lo + w % 2 ^ lo := by
    conv_lhs => rw [← Nat.div_add_mod w (2 ^ lo), ← Nat.div_add_mod (w / 2 ^ lo) (2 ^ k)]
    ring
  rw [Nat.mul_add, Nat.mul_comm (2 ^ lo) (n % 2 ^ k)]
  omega

/-- A word with bits [hi:lo] replaced: the new number's bits inside, the old word's outside. -/
theorem testBit_putBits (w : Word) (hi lo n i : Nat) (hhi : hi < 32) :
    (putBits w hi lo n).toNat.testBit i = if lo ≤ i ∧ i ≤ hi then n.testBit (i - lo) else w.toNat.testBit i := by
  have hlow : w.toNat % 2 ^ lo < 2 ^ lo := Nat.mod_lt _ (Nat.two_pow_pos _)
  have hnew : n % 2 ^ (hi + 1 - lo) < 2 ^ (hi + 1 - lo) := Nat.mod_lt _ (Nat.two_pow_pos _)
  rw [putBits, bits, BitVec.toNat_ofNat, replaced_eq_parts, Nat.testBit_mod_two_pow, Nat.testBit_two_pow_mul_add _ hlow,
    Nat.testBit_two_pow_mul_add _ hnew]
  simp only [Nat.testBit_mod_two_pow, Nat.testBit_div_two_pow]
  by_cases h32 : i < 32
  · by_cases hbelow : i < lo
    · simp [h32, hbelow, show ¬ lo ≤ i by omega]
    · by_cases hin : i ≤ hi
      · simp [h32, hbelow, hin, show lo ≤ i by omega, show i - lo < hi + 1 - lo by omega]
      · have hidx : i - lo - (hi + 1 - lo) + (hi + 1 - lo) + lo = i := by omega
        simp [h32, hbelow, hin, show ¬ i - lo < hi + 1 - lo by omega, hidx]
  · have hw : w.toNat.testBit i = false :=
      Nat.testBit_lt_two_pow (w.isLt.trans_le (Nat.pow_le_pow_right (by omega) (by omega)))
    simp [h32, hw, show ¬ i ≤ hi by omega]

/-- Replaced bits read as the number stored, modulo the width. -/
theorem bits_putBits_self (w : Word) (hi lo n : Nat) (hlo : lo ≤ hi) (hhi : hi < 32) :
    bits (putBits w hi lo n).toNat hi lo = n % 2 ^ (hi + 1 - lo) := by
  refine Nat.eq_of_testBit_eq fun i => ?_
  rw [testBit_bits, testBit_putBits w hi lo n _ hhi, Nat.testBit_mod_two_pow]
  by_cases hi' : i < hi + 1 - lo
  · simp [hi', show lo + i ≤ hi by omega]
  · simp [hi']

/-- Bits of another place read as before. -/
theorem bits_putBits_of_disjoint (w : Word) (hi lo hi' lo' n : Nat) (hhi : hi < 32) (h : hi < lo' ∨ hi' < lo) :
    bits (putBits w hi lo n).toNat hi' lo' = bits w.toNat hi' lo' := by
  refine Nat.eq_of_testBit_eq fun i => ?_
  rw [testBit_bits, testBit_bits, testBit_putBits w hi lo n _ hhi]
  by_cases hi'' : i < hi' + 1 - lo'
  · rw [if_neg (by omega)]
  · simp [hi'']

/-! ## Fields -/

/-- A field reads as the number stored in it, modulo its width. -/
theorem getF_setF_self (s : State) (p : Page) (f : Fld) (n : Nat) (hlo : f.lo ≤ f.hi) (hhi : f.hi < 32) :
    (s.setF p f n).getF p f = n % 2 ^ (f.hi + 1 - f.lo) := by
  rw [State.getF, State.setF, Laws.reg_setReg_self, bits_putBits_self _ _ _ _ hlo hhi]

/-- A store to a field leaves the fields of every other register, and those of its own that share no bit with it. -/
theorem getF_setF_of_disjoint (s : State) (p q : Page) (f g : Fld) (n : Nat) (hf : f.hi < 32)
    (h : fldAddr p f ≠ fldAddr q g ∨ f.hi < g.lo ∨ g.hi < f.lo) : (s.setF p f n).getF q g = s.getF q g := by
  by_cases ha : fldAddr q g = fldAddr p f
  · have hdisj : f.hi < g.lo ∨ g.hi < f.lo := h.resolve_left fun hne => hne ha.symm
    rw [State.getF, State.getF, State.setF, ha, Laws.reg_setReg_self, bits_putBits_of_disjoint _ _ _ _ _ _ hf hdisj]
  · rw [State.getF, State.getF, State.setF, Laws.reg_setReg_of_ne _ _ _ _ ha]

/-- A saturating count stops at the field's largest value. -/
theorem getF_addSat_self (s : State) (p : Page) (f : Fld) (n : Nat) (hlo : f.lo ≤ f.hi) (hhi : f.hi < 32) :
    (s.addSat p f n).getF p f = min (s.getF p f + n) (2 ^ f.width - 1) := by
  rw [State.addSat, getF_setF_self s p f _ hlo hhi, satAdd]
  refine Nat.mod_eq_of_lt ((Nat.min_le_right _ _).trans_lt ?_)
  exact Nat.sub_lt (Nat.two_pow_pos _) Nat.one_pos

/-! ## Taking entries off a map -/

/-- A key whose entries all stay reads as before. -/
theorem mget_filter_of_kept {β : Type} (d : β) (m : List (Nat × β)) (q : Nat × β → Bool) (k : Nat) (h : ∀ v, q (k, v) = true) :
    mget d (m.filter q) k = mget d m k := by
  induction m with
  | nil => rfl
  | cons e t ih =>
    obtain ⟨a, w⟩ := e
    by_cases ha : a = k
    · subst ha
      simp [h, mget]
    · by_cases hq : q (a, w) <;> simp [hq, mget, ha, ih]

/-- A key whose entries all go reads as unlisted. -/
theorem mget_filter_of_dropped {β : Type} (d : β) (m : List (Nat × β)) (q : Nat × β → Bool) (k : Nat) (h : ∀ v, q (k, v) = false) :
    mget d (m.filter q) k = d := by
  induction m with
  | nil => rfl
  | cons e t ih =>
    obtain ⟨a, w⟩ := e
    by_cases ha : a = k
    · subst ha
      simp [h, ih]
    · by_cases hq : q (a, w) <;> simp [hq, mget, ha, ih]

/-- A block reset returns the registers of its page from 0x100 to their reset values. -/
theorem reg_resetBlockRegs_of_inside (s : State) (p : Page) (a : Nat) (h : pageBase p + 0x100 ≤ a ∧ a < pageBase p + 0x1000) :
    (s.resetBlockRegs p).reg a = resetValue a :=
  mget_filter_of_dropped _ _ _ _ fun _ => by simp [h]

/-- A block reset leaves every other register. -/
theorem reg_resetBlockRegs_of_outside (s : State) (p : Page) (a : Nat) (h : ¬ (pageBase p + 0x100 ≤ a ∧ a < pageBase p + 0x1000)) :
    (s.resetBlockRegs p).reg a = s.reg a :=
  mget_filter_of_kept _ _ _ _ fun _ => decide_eq_true h

/-- Settles O53: a store to a field replaces the bits of the field in its word, and a block reset takes the registers of its page from 0x100
off the list. -/
theorem registerFields : Obligations.RegisterFields := by
  unfold Obligations.RegisterFields
  refine ⟨getF_setF_self, fun s p q f g n hf _ => getF_setF_of_disjoint s p q f g n hf, getF_addSat_self, fun s p o ho => ?_,
    fun s p q o hpq ho => ?_⟩
  · split
    · exact reg_resetBlockRegs_of_inside s p _ (by omega)
    · exact reg_resetBlockRegs_of_outside s p _ (by omega)
  · refine reg_resetBlockRegs_of_outside s p _ fun ⟨hlow, hhigh⟩ => ?_
    exact Laws.pageBase_ne p q (pageBase q + o - pageBase p) o (by omega) ho hpq (by omega)

end Sys2Proof.Proofs

/-! SUPPORT and statement: accesses to BAR0 (00 R8 to R10; 01 R29 to R36; 09 R289, R302 to R304; 13 R405). -/

namespace Sys2Proof.Proofs

open Sys2Proof.Machine

/-! ## The command of a master that reaches the pages -/

theorem exec_badSizeAccess {m : Master} {addr size : Nat} {write : Bool} {s : State} (hw : badAccess addr size = true)
    (hm : s.reaches m = true) :
    exec (.badSizeAccess m addr size write) s = .next ((badSizeAccess m addr size write s).onQueue s) := by
  change execBadSizeAccess .. = _
  simp [execBadSizeAccess, Instr.wf, hw, hm]

theorem exec_latchedLowRead {m : Master} {r : LowRead} {s : State} (hw : lowWord r.addr = true) (hm : s.reaches m = true) :
    exec (.latchedLowRead m r) s = .next ((latchedLowRead m r s).onQueue s) := by
  change execLatchedLowRead .. = _
  simp [execLatchedLowRead, Instr.wf, hw, hm]

theorem exec_registerWrite {m : Master} {addr : Nat} {wide : Bool} {value : BitVec 64} {s : State} (hm : s.reaches m = true) :
    exec (.registerWrite m addr wide value) s = .next ((registerWrite m addr wide value s).onQueue s) := if_pos hm

theorem exec_blockReset {m : Master} {p : Page} {s : State} (hm : s.reaches m = true) :
    exec (.blockReset m p) s = .next ((blockReset m p s).onQueue s) := if_pos hm

theorem exec_blockResetDone (p : Page) (s : State) : exec (.blockResetDone p) s = .next ((blockResetDone p s).onQueue s) := rfl

theorem exec_lockAcquire {m : Master} {p : Page} {s : State} (hm : s.reaches m = true) :
    exec (.lockAcquire m p) s = .next ((lockAcquire m p s).onQueue s) := if_pos hm

theorem exec_lockRelease {m : Master} {p : Page} {s : State} (hm : s.reaches m = true) :
    exec (.lockRelease m p) s = .next ((lockRelease m p s).onQueue s) := if_pos hm

/-- A host reaches the pages: the debug port alone may not (13 R405). -/
theorem reaches_of_isHost {m : Master} {s : State} (h : isHost m = true) : s.reaches m = true := by
  cases m with
  | host0 | host1 => rfl
  | cc | keeper | seqA | seqB | mgmt | debug => exact absurd h Bool.false_ne_true

/-! ## Reads of a 64-bit register (00 R8) -/

/-- A read of an offset within a page shows the page's register. -/
theorem readBar_of_page {s : State} {m : Master} {a : Nat} {p : Page} (hp : pageOf a = some p) :
    s.readBar m a = s.view p (a % 0x1000) := by
  simp [State.readBar, hp]

theorem latchedLowRead_low {m : Master} {addr : Nat} {p : Page} {s : State} (hp : pageOf addr = some p) (ha : s.answers p = true) :
    latchedLowRead m ⟨addr, .low⟩ s =
      (({ s with latch := mput s.latch (latchKey m addr) (s.view p (addr % 0x1000 + 4)) } : State).drawn 2).emit
        (.readValue m addr (s.view p (addr % 0x1000)).toNat) := by
  simp [latchedLowRead, hp, ha, readBar_of_page hp]

theorem latchedLowRead_high_of_latched {m : Master} {addr : Nat} {p : Page} {s : State} (hp : pageOf addr = some p)
    (ha : s.answers p = true) (hl : mhas s.latch (latchKey m addr) = true) :
    latchedLowRead m ⟨addr, .high⟩ s =
      ({ s with latch := merase s.latch (latchKey m addr) } : State).emit
        (.readValue m (addr + 4) (mget (0 : Word) s.latch (latchKey m addr)).toNat) := by
  simp [latchedLowRead, hp, ha, hl]

theorem latchedLowRead_high_of_not_latched {m : Master} {addr : Nat} {p : Page} {s : State} (hp : pageOf addr = some p)
    (ha : s.answers p = true) (hl : mhas s.latch (latchKey m addr) = false) :
    latchedLowRead m ⟨addr, .high⟩ s = (s.drawn 2).emit (.readValue m (addr + 4) (s.view p (addr % 0x1000 + 4)).toNat) := by
  simp [latchedLowRead, hp, ha, hl]

theorem latchedLowRead_wide {m : Master} {addr : Nat} {p : Page} {s : State} (hp : pageOf addr = some p) :
    latchedLowRead m ⟨addr, .wide⟩ s =
      (s.drawn 2).emit (.readValue m addr
        ((s.view p (addr % 0x1000)).toNat + 2 ^ 32 * (s.view p (addr % 0x1000 + 4)).toNat)) := by
  simp [latchedLowRead, hp, readBar_of_page hp]

/-! ## Writes (00 R8, R9; 01 R33; 09 R309) -/

theorem registerWrite_of_misaligned {m : Master} {addr : Nat} {wide : Bool} {value : BitVec 64} {s : State}
    (h : addr % (if wide then 8 else 4) ≠ 0) : registerWrite m addr wide value s = s := if_pos h

theorem registerWrite_wide {m : Master} {addr : Nat} {value : BitVec 64} {s : State} (h : addr % 8 = 0) :
    registerWrite m addr true value s =
      (s.barWrite m addr (value.toNat % 2 ^ 32)).barWrite m (addr + 4) (value.toNat / 2 ^ 32) := by
  simp [registerWrite, h]

/-- A write outside the MSI-X table of an offset within a page goes to the page. -/
theorem barWrite_of_page {s : State} {m : Master} {a v : Nat} {p : Page} (hx : a < 0x800000 ∨ 0x808000 ≤ a) (hp : pageOf a = some p) :
    s.barWrite m a v = s.pageWrite m p (a % 0x1000) v := by
  have hmsix : ¬ (0x800000 ≤ a ∧ a < 0x808000) := by omega
  simp [State.barWrite, hmsix, hp]

/-- A 32-bit write at offset o of a page is one write of the page. -/
theorem registerWrite_of_page {m : Master} {p : Page} {o : Nat} {value : BitVec 64} {s : State} (hp : pageOf (pageBase p + o) = some p)
    (ho : (pageBase p + o) % 0x1000 = o) (h4 : (pageBase p + o) % 4 = 0) (hx : pageBase p + o < 0x800000 ∨ 0x808000 ≤ pageBase p + o) :
    registerWrite m (pageBase p + o) false value s = s.pageWrite m p o (value.toNat % 2 ^ 32) := by
  calc registerWrite m (pageBase p + o) false value s
      = s.barWrite m (pageBase p + o) (value.toNat % 2 ^ 32) := by simp [registerWrite, h4]
    _ = s.pageWrite m p o (value.toNat % 2 ^ 32) := by rw [barWrite_of_page hx hp, ho]

section
variable {s : State} {m : Master} {p : Page} {o v : Nat} (ha : s.answers p = true) (hocc : occupied p o = true)
include ha hocc

/-- A write that nothing stops acts by the access codes. -/
theorem pageWrite_of_taken (hb : s.isSet p R.hdr.BLK_STS_RESET_BUSY = false) (hf : foreignPage m p = false)
    (hh : s.writeHeld p o = false) (hi : writeIgnored m p o v = false) :
    s.pageWrite m p o v = (s.codeWrite p o v).writeActs s p o v := by
  simp [State.pageWrite, ha, hocc, hb, hf, hh, hi]

/-- A write to a block in reset is STATE_ERR (01 R33). -/
theorem pageWrite_of_resetBusy (hlow : 0x100 ≤ o) (hb : s.isSet p R.hdr.BLK_STS_RESET_BUSY = true) :
    s.pageWrite m p o v = s.stateErr p := by
  simp [State.pageWrite, ha, hocc, hlow, hb]

/-- A write of the host to an internal page is rejected. -/
theorem pageWrite_of_foreign (hb : s.isSet p R.hdr.BLK_STS_RESET_BUSY = false) (hf : foreignPage m p = true) :
    s.pageWrite m p o v = s.pageReject m p := by
  simp [State.pageWrite, ha, hocc, hb, hf]

end

/-! ## The end of a block reset (01 R33) -/

theorem blockResetDone_cell {h : Half} {c : Fin 288} {s : State} (ha : s.answers (.cell h c) = true)
    (hb : s.isSet (.cell h c) R.hdr.BLK_STS_RESET_BUSY = true) :
    blockResetDone (.cell h c) s =
      ((s.setF (.cell h c) R.hdr.BLK_STS_RESET_BUSY 0).cellState h c.val (s.cst h c.val)).freeLock (.cell h c) := by
  simp [blockResetDone, ha, hb]

theorem blockResetDone_ucie {h : Half} {k : Fin 32} {s : State} (ha : s.answers (.ucie h k) = true)
    (hb : s.isSet (.ucie h k) R.hdr.BLK_STS_RESET_BUSY = true) :
    blockResetDone (.ucie h k) s =
      (let t := (s.setF (.ucie h k) R.hdr.BLK_STS_RESET_BUSY 0).setReady (.ucie h k)
       (if t.isSet (.ucie h k) ucieEn then t.trainModule h k else t).freeLock (.ucie h k)) := by
  simp [blockResetDone, ha, hb]

theorem blockResetDone_hinge {h : Half} {b : Fin 16} {s : State} (ha : s.answers (.hinge h b) = true)
    (hb : s.isSet (.hinge h b) R.hdr.BLK_STS_RESET_BUSY = true) :
    blockResetDone (.hinge h b) s =
      ((s.setF (.hinge h b) R.hdr.BLK_STS_RESET_BUSY 0).setReady (.hinge h b)).freeLock (.hinge h b) := by
  simp [blockResetDone, ha, hb]

/-! ## Locks (09 R302, R303) -/

theorem lockAcquire_of_free {m : Master} {p : Page} {s : State} (ha : s.answers p = true) (hl : s.getF p R.hdr.LOCK_OWNER = 0) :
    lockAcquire m p s =
      (s.setF p R.hdr.LOCK_OWNER (masterId m)).emit (.readValue m (pageBase p + 0x20) (masterId m)) := by
  simp [lockAcquire, ha, hl]

theorem lockAcquire_of_held {m : Master} {p : Page} {s : State} (ha : s.answers p = true) (hl : s.getF p R.hdr.LOCK_OWNER ≠ 0) :
    lockAcquire m p s = s.emit (.readValue m (pageBase p + 0x20) (s.getF p R.hdr.LOCK_OWNER)) := by
  simp [lockAcquire, ha, hl]

theorem lockRelease_of_holder {m : Master} {p : Page} {s : State} (ha : s.answers p = true)
    (hl : s.getF p R.hdr.LOCK_OWNER = masterId m) : lockRelease m p s = s.setF p R.hdr.LOCK_OWNER 0 := by
  simp [lockRelease, ha, hl]

theorem lockRelease_of_other {m : Master} {p : Page} {s : State} (ha : s.answers p = true)
    (hl : s.getF p R.hdr.LOCK_OWNER ≠ masterId m) : lockRelease m p s = s.err p 1 := by
  simp [lockRelease, ha, hl]

/-- Settles O16, clause by clause from the lemmas on reads, writes, block resets and locks above. -/
theorem registerAccesses : Obligations.RegisterAccesses := by
  unfold Obligations.RegisterAccesses
  refine ⟨?badRead, ?badWrite, ?low, ?highLatched, ?highPresent, ?wideRead, ?taken, ?busy, ?foreign, ?wide, ?misaligned,
    ?resetCell, ?resetHinge, ?resetUcie, ?resetOe, ?doneCell, ?doneUcie, ?doneHinge, ?acquireFree, ?acquireHeld, ?releaseHolder,
    ?releaseOther⟩
  case badRead => exact fun _ _ _ _ hw hm => exec_badSizeAccess hw hm
  case badWrite => exact fun _ _ _ _ hw hm => exec_badSizeAccess hw hm
  case low =>
    intro m addr p s hw hm hp ha
    rw [exec_latchedLowRead hw hm, latchedLowRead_low hp ha, latchKey]
  case highLatched =>
    intro m addr p s hw hm hp ha hl
    rw [exec_latchedLowRead hw hm, latchedLowRead_high_of_latched hp ha hl]
  case highPresent =>
    intro m addr p s hw hm hp ha hl
    rw [exec_latchedLowRead hw hm, latchedLowRead_high_of_not_latched hp ha hl]
  case wideRead =>
    intro m addr p s hw hm hp _
    rw [exec_latchedLowRead hw hm, latchedLowRead_wide hp]
  case taken =>
    intro m p o value s hm hp ho h4 hx ha hocc hb hf hh hi
    rw [exec_registerWrite hm, registerWrite_of_page hp ho h4 hx, pageWrite_of_taken ha hocc hb hf hh hi]
  case busy =>
    intro m p o value s hm hp ho h4 hx ha hocc hlow hb
    rw [exec_registerWrite hm, registerWrite_of_page hp ho h4 hx, pageWrite_of_resetBusy ha hocc hlow hb, State.stateErr]
  case foreign =>
    intro m i o value s hhost hi hp ho h4 hx ha hocc hb
    have hm : s.reaches m = true := reaches_of_isHost hhost
    have hf : foreignPage m (.mbx i) = true := by simp [foreignPage, State.foreign, hhost, hi]
    rw [exec_registerWrite hm, registerWrite_of_page hp ho h4 (.inl hx), pageWrite_of_foreign ha hocc hb hf, State.pageReject]
  case wide =>
    intro m addr value s hm h8
    rw [exec_registerWrite hm, registerWrite_wide h8]
  case misaligned =>
    intro m addr wide value s hm h
    rw [exec_registerWrite hm, registerWrite_of_misaligned h]
  case resetCell => exact fun _ _ _ _ hm => exec_blockReset hm
  case resetHinge => exact fun _ _ _ _ hm => exec_blockReset hm
  case resetUcie => exact fun _ _ _ _ hm => exec_blockReset hm
  case resetOe => exact fun _ _ _ _ hm => exec_blockReset hm
  case doneCell =>
    intro h c s ha hb
    rw [exec_blockResetDone, blockResetDone_cell ha hb]
  case doneUcie =>
    intro h k s ha hb
    rw [exec_blockResetDone, blockResetDone_ucie ha hb]
  case doneHinge =>
    intro h b s ha hb
    rw [exec_blockResetDone, blockResetDone_hinge ha hb]
  case acquireFree =>
    intro m p s hm ha hl
    rw [exec_lockAcquire hm, lockAcquire_of_free ha hl]
  case acquireHeld =>
    intro m p s hm ha hl
    rw [exec_lockAcquire hm, lockAcquire_of_held ha hl]
  case releaseHolder =>
    intro m p s hm ha hl
    rw [exec_lockRelease hm, lockRelease_of_holder ha hl]
  case releaseOther =>
    intro m p s hm ha hl
    rw [exec_lockRelease hm, lockRelease_of_other ha hl]

end Sys2Proof.Proofs

/-! SUPPORT and statement: pages that no block occupies, and pages that cannot answer (01 R29, R30). -/

namespace Sys2Proof.Proofs

open Sys2Proof.Machine

/-! ## Writes that leave the state -/

/-- A write whose words change nothing leaves the state, whether its master reaches the pages or not. -/
theorem exec_registerWrite_of_keeps {m : Master} {a : Nat} {wide : Bool} {value : BitVec 64} {s : State}
    (h : registerWrite m a wide value s = s) : exec (.registerWrite m a wide value) s = .next s := by
  by_cases hm : s.reaches m = true
  · rw [exec_registerWrite hm, h, State.onQueue_self]
  · exact if_neg hm

/-- A write whose words are dropped is dropped: the low word, and the high word that an aligned 64-bit write has. -/
theorem registerWrite_of_dropped {m : Master} {a : Nat} {wide : Bool} {value : BitVec 64} {s : State}
    (hlow : ∀ v, s.barWrite m a v = s) (hhigh : a % 8 = 0 → ∀ v, s.barWrite m (a + 4) v = s) :
    registerWrite m a wide value s = s := by
  cases wide with
  | false =>
    by_cases h4 : a % 4 = 0
    · simp [registerWrite, h4, hlow]
    · exact registerWrite_of_misaligned h4
  | true =>
    by_cases h8 : a % 8 = 0
    · rw [registerWrite_wide h8, hlow, hhigh h8]
    · exact registerWrite_of_misaligned h8

/-! ## Offsets that no block occupies (01 R29) -/

/-- The two words of an aligned 64-bit access lie in one page. -/
theorem pageOf_highWord {a : Nat} (h8 : a % 8 = 0) : pageOf (a + 4) = pageOf a := by
  have hunit : (a + 4) / 0x1000 = a / 0x1000 := by omega
  rw [Laws.pageOf_unit (a + 4), hunit, ← Laws.pageOf_unit a]

theorem readBar_of_unoccupied {s : State} {m : Master} {a : Nat} (hp : pageOf a = none) (hx : a < 0x800000 ∨ 0x808100 ≤ a) :
    s.readBar m a = 0 := by
  have hmsix : 0x800000 ≤ a → ¬ a < 0x808100 := by omega
  cases hf : masterFn m <;> simp +contextual [State.readBar, hp, hf, hmsix]

theorem barWrite_of_unoccupied {s : State} {m : Master} {a v : Nat} (hp : pageOf a = none) (hx : a < 0x800000 ∨ 0x808000 ≤ a) :
    s.barWrite m a v = s := by
  have hmsix : ¬ (0x800000 ≤ a ∧ a < 0x808000) := by omega
  simp [State.barWrite, hmsix, hp]

/-- A write to an unoccupied page outside the MSI-X structures is ignored. -/
theorem exec_registerWrite_of_unoccupied {m : Master} {a : Nat} {wide : Bool} {value : BitVec 64} {s : State} (hp : pageOf a = none)
    (hx : a < 0x800000 ∨ 0x808100 ≤ a) : exec (.registerWrite m a wide value) s = .next s :=
  exec_registerWrite_of_keeps <| registerWrite_of_dropped
    (fun _ => barWrite_of_unoccupied hp (by omega))
    (fun h8 _ => barWrite_of_unoccupied ((pageOf_highWord h8).trans hp) (by omega))

/-! ## Pages that cannot answer (01 R30) -/

theorem answers_iff (s : State) (p : Page) :
    s.answers p = true ↔ s.die (dieOf p) = .up ∧ ∀ h, pageHalf p = some h → s.die (dieComb h) = .up := by
  unfold State.answers
  cases pageHalf p <;> simp

/-- A page is silent while its die, or the comb die of its half, is not up. -/
theorem answers_eq_false {s : State} {p : Page}
    (h : s.die (dieOf p) ≠ .up ∨ ∃ h, pageHalf p = some h ∧ s.die (dieComb h) ≠ .up) : s.answers p = false := by
  refine Bool.eq_false_iff.mpr fun ha => ?_
  obtain ⟨hdie, hcomb⟩ := (answers_iff s p).mp ha
  rcases h with h | ⟨half, hhalf, h⟩
  · exact h hdie
  · exact h (hcomb half hhalf)

theorem view_of_silent {s : State} {p : Page} {o : Nat} (ha : s.answers p = false) : s.view p o = 0xFFFFFFFF := by
  simp [State.view, ha]

theorem pageWrite_of_silent {s : State} {m : Master} {p : Page} {o v : Nat} (ha : s.answers p = false) : s.pageWrite m p o v = s := by
  simp [State.pageWrite, ha]

theorem barWrite_of_silent {s : State} {m : Master} {p : Page} {o v : Nat} (ho : o < 0x1000) (ha : s.answers p = false) :
    s.barWrite m (pageBase p + o) v = s := by
  have hmsix := Laws.pageBase_msix p
  have hunit := Laws.pageBase_unit p
  rw [barWrite_of_page (by omega) (Laws.pageOf_pageBase p o ho), pageWrite_of_silent ha]

/-- A write to a silent page is dropped. -/
theorem exec_registerWrite_of_silent {m : Master} {p : Page} {o : Nat} {wide : Bool} {value : BitVec 64} {s : State} (ho : o < 0x1000)
    (ha : s.answers p = false) : exec (.registerWrite m (pageBase p + o) wide value) s = .next s := by
  have hunit := Laws.pageBase_unit p
  exact exec_registerWrite_of_keeps <| registerWrite_of_dropped
    (fun _ => barWrite_of_silent ho ha)
    (fun h8 _ => barWrite_of_silent (o := o + 4) (by omega) ha)

/-! ## BLK_ID of a page that answers (01 R31) -/

theorem cellView_zero (s : State) (h : Half) (c : Nat) : s.cellView h c 0 = none := by
  unfold State.cellView
  split <;> rfl

theorem readReg_zero (s : State) (p : Page) : s.readReg p 0 = BitVec.ofNat 32 (blkId p) := by
  rw [State.readReg, if_pos rfl]

/-- A page that answers shows its BLK_ID at offset 0: what a block shows in place of a stored word lies elsewhere. -/
theorem view_zero {s : State} {p : Page} (ha : s.answers p = true) : s.view p 0 = BitVec.ofNat 32 (blkId p) := by
  rw [← readReg_zero s p]
  cases p with
  | cell h c => simp [State.view, ha, cellView_zero]
  | _ => simp [State.view, ha, State.fabView, State.winView, State.calView, State.oportView]

/-- Settles O51: an access of an unoccupied page meets no block, a silent page answers for every offset alike, and one that is up again shows
its BLK_ID. -/
theorem unansweredPages : Obligations.UnansweredPages := by
  unfold Obligations.UnansweredPages
  refine ⟨fun m a wide v s hp hx => ?unoccupied, fun m p o wide v s ho hdown => ?silent, fun p s hdie hcomb => ?up⟩
  case unoccupied => exact ⟨readBar_of_unoccupied hp hx, exec_registerWrite_of_unoccupied hp hx⟩
  case silent =>
    have ha := answers_eq_false hdown
    have hread : s.readBar m (pageBase p + o) = 0xFFFFFFFF := by
      rw [readBar_of_page (Laws.pageOf_pageBase p o ho), view_of_silent ha]
    exact ⟨hread, exec_registerWrite_of_silent ho ha⟩
  case up =>
    have ha := (answers_iff s p).mpr ⟨hdie, hcomb⟩
    rw [readBar_of_page (Laws.pageOf_base p), Laws.pageBase_unit, view_zero ha]

end Sys2Proof.Proofs

/-! SUPPORT and statement: the state before V_AON rises (01 R33; 03 R93; 04 R129; 09 R288; 11 Table 11.8). -/

namespace Sys2Proof.Proofs

open Sys2Proof.Machine

/-- At reset no register is listed: each reads its reset value. -/
theorem reg_reset (a : Nat) : State.reset.reg a = resetValue a := rfl

/-- At reset no byte is listed and no row is undefined: each byte reads 0. -/
theorem memRd_reset (a : Nat) : State.reset.mem.rd a = 0 := rfl

theorem rd_reset (a n : Nat) : State.reset.rd a n = List.replicate n 0 := by
  induction n generalizing a with
  | zero => rfl
  | succ n ih => exact congrArg₂ List.cons (memRd_reset a) (ih (a + 1))

/-- No table of fields gives the lock's register a reset value other than 0. -/
theorem fieldReset_lock (p : Page) : fieldReset p R.hdr.LOCK_OWNER.off = 0 := by
  cases p <;> rfl

/-- LOCK lies in the header, where no page has a reset value of its own. -/
theorem resetValue_lock (p : Page) : resetValue (fldAddr p R.hdr.LOCK_OWNER) = 0 := by
  have ho : R.hdr.LOCK_OWNER.off < 0x1000 := by decide
  unfold resetValue fldAddr
  rw [Laws.pageOf_pageBase p _ ho, Laws.pageBase_mod p _ ho]
  simp only [fieldReset_lock]
  cases p with
  | ctrlch h => cases h <;> rfl
  | _ => rfl

theorem getF_lock_reset (p : Page) : State.reset.getF p R.hdr.LOCK_OWNER = 0 := by
  rw [State.getF, reg_reset, resetValue_lock]
  rfl

/-- Settles O60: nothing is listed at reset, so each register, byte, semaphore and die reads as an unlisted one does. -/
theorem resetState : Obligations.ResetState := by
  unfold Obligations.ResetState
  have hbar2 : State.reset.getF (.pcie .A) R.pcie.BAR2_SIZE_LOG2 = 36 := by decide +kernel
  exact ⟨rfl, rfl, reg_reset, rd_reset, fun _ => rfl, getF_lock_reset, fun _ => rfl, rfl, rfl, rfl, hbar2⟩

end Sys2Proof.Proofs

/-! SUPPORT and statement: doorbells, error injection, and the commands of the error rings (01 R35, R36; 14 R425 to R432). -/

namespace Sys2Proof.Proofs

open Sys2Proof.Machine

/-! ## The command, of a master that reaches the pages or of the hardware -/

theorem exec_doorbellSet {m : Master} {p : Page} {bits : Word} {s : State} (hm : s.reaches m = true) :
    exec (.doorbellSet m p bits) s = .next ((doorbellSet m p bits s).onQueue s) := if_pos hm

theorem exec_doorbellUnmask {m : Master} {p : Page} {mask : Word} {s : State} (hm : s.reaches m = true) :
    exec (.doorbellUnmask m p mask) s = .next ((doorbellUnmask m p mask s).onQueue s) := if_pos hm

theorem exec_errInjWrite {m : Master} {p : Page} {value : Word} {s : State} (hm : s.reaches m = true) :
    exec (.errInjWrite m p value) s = .next ((errInjWrite m p value s).onQueue s) := if_pos hm

theorem exec_errCons {m : Master} {h : Half} {value : Word} {s : State} (hm : s.reaches m = true) :
    exec (.errCons m h value) s = .next ((errCons m h value s).onQueue s) := if_pos hm

theorem exec_errRingCtl {m : Master} {h : Half} {value : Word} {s : State} (hm : s.reaches m = true) :
    exec (.errRingCtl m h value) s = .next ((errRingCtl m h value s).onQueue s) := if_pos hm

theorem exec_injectionFire (p : Page) (s : State) : exec (.injectionFire p) s = .next ((injectionFire p s).onQueue s) := rfl

theorem exec_coalesceWindowEnd (p : Page) (b : Fin 32) (s : State) :
    exec (.coalesceWindowEnd p b) s = .next ((coalesceWindowEnd p b s).onQueue s) := rfl

theorem exec_errorRingDrain (h : Half) (s : State) : exec (.errorRingDrain h) s = .next ((errorRingDrain h s).onQueue s) := rfl

/-! ## Doorbells (01 R36) -/

section
variable {s : State} {m : Master} {p : Page} (ha : s.answers p = true) (hf : foreignPage m p = false)
include ha hf

/-- A write of DB_SET to a page with doorbells sets the bits and rings where one is unmasked. -/
theorem doorbellSet_of_taken {bits : Word} (hocc : occupied p 0x28 = true) : doorbellSet m p bits s = s.pushBell p bits.toNat := by
  simp [doorbellSet, ha, hocc, hf]

/-- A write of DB_MASK to a page with doorbells stores the mask and rings where it unmasks a pending bit. -/
theorem doorbellUnmask_of_taken {mask : Word} (hocc : occupied p 0x2C = true) :
    doorbellUnmask m p mask s =
      (let t := s.setF p R.hdr.DB_MASK_MASK mask.toNat
       if s.getF p R.hdr.DB_MASK_MASK &&& (mask.toNat ^^^ 0xFFFFFFFF) &&& t.getF p R.hdr.DB_STS_STS ≠ 0 then t.bell p else t) := by
  simp [doorbellUnmask, ha, hocc, hf]

end

/-! ## Error injection (01 R35, 14 R429) -/

theorem errInjWrite_of_enabled {m : Master} {p : Page} {value : Word} {s : State} (ha : s.answers p = true)
    (hf : foreignPage m p = false) (hdis : s.isSet .sec R.sec.SEC_CTL_INJ_DIS = false) :
    errInjWrite m p value s =
      s.setFs p [(R.hdr.ERR_INJ_ARM, bits value.toNat 31 31), (R.hdr.ERR_INJ_BIT, bits value.toNat 4 0)] := by
  simp [errInjWrite, ha, hf, hdis]

/-- While injection is disabled a write of ERR_INJ is ignored, and a silent page drops it. -/
theorem errInjWrite_of_disabled {m : Master} {p : Page} {value : Word} {s : State} (hf : foreignPage m p = false)
    (hdis : s.isSet .sec R.sec.SEC_CTL_INJ_DIS = true) : errInjWrite m p value s = s := by
  simp [errInjWrite, hf, hdis]

section
variable {p : Page} {s : State} (ha : s.answers p = true) (harm : s.isSet p R.hdr.ERR_INJ_ARM = true)
include ha harm

/-- An RSVD bit has no event: firing clears ARM alone. -/
theorem injectionFire_of_reserved (hdata : (waitsForData p).contains (s.getF p R.hdr.ERR_INJ_BIT) = false)
    (hrsvd : bit (errBits p) (s.getF p R.hdr.ERR_INJ_BIT) = false) : injectionFire p s = s.disarm p := by
  simp [injectionFire, -List.contains_eq_mem, ha, harm, hdata, hrsvd]

/-- Bit 2 is the marker itself. -/
theorem injectionFire_of_marker (hbit : s.getF p R.hdr.ERR_INJ_BIT = 2) (hdata : (waitsForData p).contains 2 = false)
    (hhas : bit (errBits p) 2 = true) : injectionFire p s = (s.disarm p).setF p R.hdr.ERR_STS_INJECTED 1 := by
  simp [injectionFire, -List.contains_eq_mem, ha, harm, hbit, hdata, hhas]

end

/-! The bits of a page are those of its kind, whatever its number. -/

theorem bit_errBits_clk_nine (h : Half) : bit (errBits (.clk h)) 9 = true := by
  change bit (errBits (.clk .A)) 9 = true
  decide +kernel

theorem bit_errBits_oport_eight (h : Half) (i : Fin 64) : bit (errBits (.oport h i)) 8 = true := by
  change bit (errBits (.oport .A 0)) 8 = true
  decide +kernel

theorem bit_errBits_laser_eight (h : Half) (o : Fin 8) : bit (errBits (.laser h o)) 8 = true := by
  change bit (errBits (.laser .A 0)) 8 = true
  decide +kernel

/-- Bit 9 of a clock page, the loss of its reference, takes the path of the events that no block treats further. -/
theorem injectionFire_clk_nine {h : Half} {s : State} (ha : s.answers (.clk h) = true) (harm : s.isSet (.clk h) R.hdr.ERR_INJ_ARM = true)
    (hbit : s.getF (.clk h) R.hdr.ERR_INJ_BIT = 9) :
    injectionFire (.clk h) s = ((s.disarm (.clk h)).err (.clk h) 9 { inj := true }).drawn 1 := by
  simp [injectionFire, waitsForData, State.injCost, ha, harm, hbit, bit_errBits_clk_nine]

/-- Bit 8 of an optical port is its loss of light, as LOSS_OF_LIGHT brings it. -/
theorem injectionFire_oport_eight {h : Half} {i : Fin 64} {s : State} (ha : s.answers (.oport h i) = true)
    (harm : s.isSet (.oport h i) R.hdr.ERR_INJ_ARM = true) (hbit : s.getF (.oport h i) R.hdr.ERR_INJ_BIT = 8) :
    injectionFire (.oport h i) s = (s.disarm (.oport h i)).lightLost ⟨h, i⟩ true := by
  simp [injectionFire, waitsForData, ha, harm, hbit, bit_errBits_oport_eight]

/-- Bit 8 of a laser tile, the trigger of a spare, is a fade whose hand-over is real (06 R209). -/
theorem injectionFire_laser_eight {h : Half} {o : Fin 8} {s : State} (ha : s.answers (.laser h o) = true)
    (harm : s.isSet (.laser h o) R.hdr.ERR_INJ_ARM = true) (hbit : s.getF (.laser h o) R.hdr.ERR_INJ_BIT = 8) :
    injectionFire (.laser h o) s = (s.disarm (.laser h o)).injectFade h o := by
  simp [injectionFire, waitsForData, ha, harm, hbit, bit_errBits_laser_eight]

/-! ## The error rings (14 R425, R426, R431, R432) -/

theorem errorRingDrain_of_open {h : Half} {s : State} (hup : s.halfUp h = true) (hopen : s.ringOpen h = true) :
    errorRingDrain h s =
      (let s := drainRing h (s.ring h).held.length s
       let lost := s.getF (.comb h) R.comb.ERR_RING_STS_LOST
       if lost ≠ 0 && (s.ring h).held.isEmpty && s.ringOpen h then
         (s.setF (.comb h) R.comb.ERR_RING_STS_LOST 0).fwRecord (.comb h) false { count := lost }
       else s) := by
  unfold errorRingDrain
  rw [hup, hopen, Bool.and_self, if_neg (by decide)]

section
variable {m : Master} {h : Half} {value : Word} {s : State} (ha : s.answers (.comb h) = true)
  (hbusy : s.isSet (.comb h) R.hdr.BLK_STS_RESET_BUSY = false)
include ha hbusy

theorem errCons_of_written (hw : (value.toNat + 2 ^ 32 - s.getF (.comb h) R.comb.ERR_CONS_CONS) % 2 ^ 32 ≤ s.ringUsed h) :
    errCons m h value s = (s.setF (.comb h) R.comb.ERR_CONS_CONS value.toNat).ringSts h := by
  simp only [errCons, ha, hbusy, gt_iff_lt, Nat.not_lt.mpr hw, decide_false]
  rfl

theorem errCons_of_beyond (hw : s.ringUsed h < (value.toNat + 2 ^ 32 - s.getF (.comb h) R.comb.ERR_CONS_CONS) % 2 ^ 32) :
    errCons m h value s = s.setF (.comb h) R.comb.ERR_RING_STS_CFG_BAD 1 := by
  simp only [errCons, ha, hbusy, gt_iff_lt, hw, decide_true]
  rfl

/-- A running ring keeps its size: another LOG2 is STATE_ERR. -/
theorem errRingCtl_of_running (hen : s.isSet (.comb h) R.comb.ERR_RING_CTL_ENABLE = true)
    (hlog : bits value.toNat 4 0 ≠ s.getF (.comb h) R.comb.ERR_RING_CTL_LOG2) : errRingCtl m h value s = s.stateErr (.comb h) := by
  simp [errRingCtl, ha, hbusy, hen, hlog]

/-- A stopped ring takes its size, and starts where it is asked to and can. -/
theorem errRingCtl_of_stopped (hen : s.isSet (.comb h) R.comb.ERR_RING_CTL_ENABLE = false) :
    errRingCtl m h value s =
      (let t := (s.setF (.comb h) R.comb.ERR_RING_CTL_LOG2 (bits value.toNat 4 0)).ringSts h
       if bit value.toNat 31 = false then t
       else if t.ringOk h (bits value.toNat 4 0) then t.setF (.comb h) R.comb.ERR_RING_CTL_ENABLE 1
       else t.setF (.comb h) R.comb.ERR_RING_STS_CFG_BAD 1) := by
  simp [errRingCtl, ha, hbusy, hen]

end

/-- Settles O17, clause by clause from the lemmas on doorbells, injection and the rings above. -/
theorem doorbellsAndInjection : Obligations.DoorbellsAndInjection := by
  unfold Obligations.DoorbellsAndInjection
  refine ⟨?set, ?unmask, ?arm, ?disabled, ?marker, ?reserved, ?clock, ?light, ?fade, ?window, ?drain, ?cons, ?consBeyond, ?ringStop,
    ?ringStart, ?ringRunning⟩
  case set =>
    intro m p bits s hm ha hocc hf
    rw [exec_doorbellSet hm, doorbellSet_of_taken ha hf hocc, State.pushBell]
  case unmask =>
    intro m p mask s hm ha hocc hf
    rw [exec_doorbellUnmask hm, doorbellUnmask_of_taken ha hf hocc]
  case arm =>
    intro m p value s hm ha hf hdis
    rw [exec_errInjWrite hm, errInjWrite_of_enabled ha hf hdis]
  case disabled =>
    intro m p value s hm hf hdis
    rw [exec_errInjWrite hm, errInjWrite_of_disabled hf hdis]
  case marker =>
    intro p s ha harm hbit hdata hhas
    rw [exec_injectionFire, injectionFire_of_marker ha harm hbit hdata hhas]
  case reserved =>
    intro p s ha harm hrsvd hdata
    rw [exec_injectionFire, injectionFire_of_reserved ha harm hdata hrsvd]
  case clock =>
    intro h s ha harm hbit
    rw [exec_injectionFire, injectionFire_clk_nine ha harm hbit]
  case light =>
    intro h i s ha harm hbit
    rw [exec_injectionFire, injectionFire_oport_eight ha harm hbit]
  case fade =>
    intro h o s ha harm hbit
    rw [exec_injectionFire, injectionFire_laser_eight ha harm hbit]
  case window => exact fun p b s => exec_coalesceWindowEnd p b s
  case drain =>
    intro h s hup hopen
    rw [exec_errorRingDrain, errorRingDrain_of_open hup hopen]
  case cons =>
    intro m h value s hm ha hbusy hw
    rw [exec_errCons hm, errCons_of_written ha hbusy hw]
  case consBeyond =>
    intro m h value s hm ha hbusy hw
    rw [exec_errCons hm, errCons_of_beyond ha hbusy hw]
  case ringStop =>
    intro m h value s hm ha hbusy hen hoff
    rw [exec_errRingCtl hm, errRingCtl_of_stopped ha hbusy hen, if_pos hoff]
  case ringStart =>
    intro m h value s hm ha hbusy hen hon
    rw [exec_errRingCtl hm, errRingCtl_of_stopped ha hbusy hen, if_neg (by simp [hon])]
  case ringRunning =>
    intro m h value s hm ha hbusy hen hlog
    rw [exec_errRingCtl hm, errRingCtl_of_running ha hbusy hen hlog, State.stateErr]

end Sys2Proof.Proofs

/-! SUPPORT and statement: the exact value of a code converts back to the code (02 R44, R58; Tables 2.3, 2.6). -/

namespace Sys2Proof.Proofs

open Sys2Proof.Machine

/-! ## The parts of a code (02 Table 2.3) -/

/-- The sign bit of a code, at its place. -/
def signCode (f : FpFmt) (neg : Bool) : Nat := if neg then 2 ^ (f.eb + f.mb) else 0

/-- The magnitude of a code: what is left without its sign. -/
def magCode (f : FpFmt) (c : Nat) : Nat := c % 2 ^ (f.eb + f.mb)

/-- The exponent field that gives a magnitude its unit in the last place: subnormals have that of field 1. -/
def ulpField (f : FpFmt) (g : Nat) : Nat := max (g / 2 ^ f.mb) 1

/-- The power of two of that unit. -/
def ulpExp (f : FpFmt) (g : Nat) : Int := (ulpField f g : Int) - f.bias - f.mb

/-- The significand of a magnitude, with the hidden bit of a normal one. -/
def significand (f : FpFmt) (g : Nat) : Nat := if g / 2 ^ f.mb = 0 then g % 2 ^ f.mb else 2 ^ f.mb + g % 2 ^ f.mb

/-- Above the largest finite magnitude a format has its infinity and then NaNs, or one NaN code, or nothing. -/
def topCodes (f : FpFmt) : Bool :=
  decide (2 ^ f.mb ≤ f.maxCode) &&
    match f.infCode, f.nanCode with
    | some i, _ => i = f.maxCode + 1
    | none, some n => n = f.maxCode + 1 && 2 ^ (f.eb + f.mb) = f.maxCode + 2
    | none, none => 2 ^ (f.eb + f.mb) = f.maxCode + 1

/-- Every format of Table 2.2 is of one of the three kinds. -/
theorem topCodes_of_fpOf {k : Nat} {f : FpFmt} (h : fpOf k = some f) : topCodes f = true := by
  unfold fpOf at h
  split at h
  case h_11 => exact absurd h (by simp)
  all_goals
    obtain rfl := Option.some.inj h
    decide

theorem signCode_add_magCode {f : FpFmt} {c : Nat} (hc : c < 2 ^ (f.eb + f.mb + 1)) :
    signCode f (bit c (f.eb + f.mb)) + magCode f c = c := by
  have hq : c / 2 ^ (f.eb + f.mb) < 2 := Nat.div_lt_of_lt_mul (by rwa [← Nat.pow_succ])
  have hdiv := Nat.div_add_mod c (2 ^ (f.eb + f.mb))
  unfold signCode magCode bit
  generalize c / 2 ^ (f.eb + f.mb) = q at hq hdiv ⊢
  interval_cases q <;> simpa using hdiv

/-- A normal magnitude's significand has mb + 1 bits, a subnormal's at most mb. -/
theorem significand_cases (f : FpFmt) (g : Nat) :
    (g < 2 ^ f.mb ∧ significand f g = g ∧ ulpField f g = 1) ∨
      (2 ^ f.mb ≤ g ∧ significand f g = 2 ^ f.mb + g % 2 ^ f.mb ∧ ulpField f g = g / 2 ^ f.mb) := by
  have hpos : 0 < 2 ^ f.mb := Nat.two_pow_pos _
  rcases Nat.lt_or_ge g (2 ^ f.mb) with h | h
  · have h0 : g / 2 ^ f.mb = 0 := Nat.div_eq_of_lt h
    exact .inl ⟨h, by rw [significand, if_pos h0, Nat.mod_eq_of_lt h], by rw [ulpField, h0]; rfl⟩
  · have h1 : 0 < g / 2 ^ f.mb := Nat.div_pos h hpos
    exact .inr ⟨h, by rw [significand, if_neg (by omega)], by rw [ulpField]; omega⟩

theorem significand_lt (f : FpFmt) (g : Nat) : significand f g < 2 ^ f.mb * 2 := by
  have hmod : g % 2 ^ f.mb < 2 ^ f.mb := Nat.mod_lt _ (Nat.two_pow_pos _)
  rcases significand_cases f g with ⟨hg, hs, -⟩ | ⟨-, hs, -⟩ <;> omega

/-- The significand of a normal magnitude has its leading bit at mb. -/
theorem log2_significand {f : FpFmt} {g : Nat} (hs : 2 ^ f.mb ≤ significand f g) : Nat.log2 (significand f g) = f.mb := by
  have hpos : 0 < 2 ^ f.mb := Nat.two_pow_pos _
  exact (Nat.log2_eq_iff (by omega)).mpr ⟨hs, significand_lt f g⟩

/-! ## Decoding (02 R44) -/

/-- The two forms of a finite value, subnormal and normal, are one: the significand at its unit. -/
theorem fin_of_field (f : FpFmt) (neg : Bool) (g : Nat) :
    (if g / 2 ^ f.mb = 0 then Num.fin neg (g % 2 ^ f.mb) (1 - (f.bias : Int) - f.mb)
      else .fin neg (2 ^ f.mb + g % 2 ^ f.mb) ((g / 2 ^ f.mb : Nat) - (f.bias : Int) - f.mb)) =
    .fin neg (significand f g) (ulpExp f g) := by
  unfold significand ulpExp ulpField
  split
  case isTrue h => simp [h]
  case isFalse h => rw [Nat.max_eq_left (Nat.pos_of_ne_zero h)]

/-- A code that is no NaN is an infinity, or its value is its significand at its unit. -/
theorem decodeFp_cases {f : FpFmt} {c : Nat} (hf : topCodes f = true) (hn : decodeFp f c ≠ .nan) :
    (f.infCode = some (magCode f c) ∧ decodeFp f c = .inf (bit c (f.eb + f.mb))) ∨
      (magCode f c ≤ f.maxCode ∧
        decodeFp f c = .fin (bit c (f.eb + f.mb)) (significand f (magCode f c)) (ulpExp f (magCode f c))) := by
  have hex : c / 2 ^ f.mb % 2 ^ f.eb = magCode f c / 2 ^ f.mb := by
    rw [magCode, Nat.add_comm, Nat.pow_add, Nat.mod_mul_right_div_self]
  have hmn : c % 2 ^ f.mb = magCode f c % 2 ^ f.mb := by
    rw [magCode, Nat.add_comm, Nat.pow_add, Nat.mod_mul_right_mod]
  have hmag : c % 2 ^ (f.eb + f.mb) = magCode f c := rfl
  have hlt : magCode f c < 2 ^ (f.eb + f.mb) := Nat.mod_lt _ (Nat.two_pow_pos _)
  unfold decodeFp at hn ⊢
  simp only [hex, hmn, hmag, fin_of_field] at hn ⊢
  unfold topCodes at hf
  rcases hi : f.infCode with _ | i
  case some =>
    simp only [hi, Bool.and_eq_true, decide_eq_true_eq] at hn hf ⊢
    obtain ⟨-, rfl⟩ := hf
    rcases Nat.lt_trichotomy (magCode f c) (f.maxCode + 1) with h | h | h
    · exact .inr ⟨Nat.lt_succ_iff.mp h, by rw [if_neg h.ne, if_neg h.asymm]⟩
    · exact .inl ⟨by rw [h], if_pos h⟩
    · exact absurd (by rw [if_neg h.ne', if_pos h]) hn
  case none =>
    rcases hk : f.nanCode with _ | n
    case none =>
      simp only [hi, hk, Bool.and_eq_true, decide_eq_true_eq] at hf ⊢
      exact .inr ⟨by omega, trivial⟩
    case some =>
      simp only [hi, hk, Bool.and_eq_true, decide_eq_true_eq] at hn hf ⊢
      by_cases h : magCode f c = n
      · exact absurd (if_pos h) hn
      · exact .inr ⟨by omega, if_neg h⟩

/-! ## Rounding and encoding (02 R56 to R58) -/

/-- A value that is a multiple of the step is not rounded, whatever the mode. -/
theorem rquant_self (mode : RMode) (m : Nat) (e : Int) : rquant mode m e e = m := by
  simp [rquant]

/-- The step of a conversion is the unit that the value was decoded with. -/
theorem ulpExp_eq_step (f : FpFmt) {g : Nat} (hg : significand f g ≠ 0) :
    max ((Nat.log2 (significand f g) : Int) + ulpExp f g - f.mb) (1 - (f.bias : Int) - f.mb) = ulpExp f g := by
  unfold ulpExp
  rcases significand_cases f g with ⟨hlt, hs, hu⟩ | ⟨hge, hs, hu⟩
  · have hlog : Nat.log2 (significand f g) < f.mb := (Nat.log2_lt hg).mpr (hs.symm ▸ hlt)
    rw [hu]
    omega
  · have hlog := log2_significand (f := f) (g := g) (by omega)
    have hone : 1 ≤ ulpField f g := Nat.le_max_right ..
    omega

/-- A magnitude up to the largest finite one has no larger unit, and counted in its unit no larger value. -/
theorem significand_le_max {f : FpFmt} {g : Nat} (hf : topCodes f = true) (hg : g ≤ f.maxCode) :
    ulpField f g ≤ f.maxCode / 2 ^ f.mb ∧
      significand f g ≤ (2 ^ f.mb + f.maxCode % 2 ^ f.mb) * 2 ^ (f.maxCode / 2 ^ f.mb - ulpField f g) := by
  simp only [topCodes, Bool.and_eq_true, decide_eq_true_eq] at hf
  obtain ⟨hmax, -⟩ := hf
  have hle : ulpField f g ≤ f.maxCode / 2 ^ f.mb :=
    max_le (Nat.div_le_div_right hg) (Nat.div_pos hmax (Nat.two_pow_pos _))
  refine ⟨hle, ?_⟩
  have hlt := significand_lt f g
  rcases Nat.eq_or_lt_of_le hle with heq | hne
  · rw [heq, Nat.sub_self, Nat.pow_zero, Nat.mul_one]
    rcases significand_cases f g with ⟨h, hs, -⟩ | ⟨-, hs, hu⟩
    · omega
    · have h1 := Nat.div_add_mod g (2 ^ f.mb)
      have h2 := Nat.div_add_mod f.maxCode (2 ^ f.mb)
      rw [← hu, heq] at h1
      omega
  · calc significand f g ≤ 2 ^ f.mb * 2 ^ 1 := hlt.le
      _ ≤ (2 ^ f.mb + f.maxCode % 2 ^ f.mb) * 2 ^ (f.maxCode / 2 ^ f.mb - ulpField f g) :=
        Nat.mul_le_mul (Nat.le_add_right ..) (Nat.pow_le_pow_right (by decide) (by omega))

/-- No finite code overflows. -/
theorem not_magGt_maxMag {f : FpFmt} {g : Nat} (hf : topCodes f = true) (hg : g ≤ f.maxCode) :
    magGt (significand f g) (ulpExp f g) (maxMag f).1 (maxMag f).2 = false := by
  obtain ⟨hfield, hle⟩ := significand_le_max hf hg
  have hmin : min (ulpExp f g) (maxMag f).2 = ulpExp f g := min_eq_left (by simp only [ulpExp, maxMag]; omega)
  have hexp : ((maxMag f).2 - ulpExp f g).toNat = f.maxCode / 2 ^ f.mb - ulpField f g := by
    simp only [ulpExp, maxMag]
    omega
  simp only [magGt, hmin, hexp, sub_self, Int.toNat_zero, Nat.pow_zero, Nat.mul_one, decide_eq_false_iff_not, Nat.not_lt]
  exact hle

/-- The magnitude comes back from its significand and its unit. -/
theorem encodeMag_significand (f : FpFmt) (g : Nat) : encodeMag f (significand f g) (ulpExp f g) = g := by
  have hdiv := Nat.div_add_mod g (2 ^ f.mb)
  unfold encodeMag
  rcases significand_cases f g with ⟨hlt, hs, -⟩ | ⟨hge, hs, hu⟩
  · rw [hs, if_pos hlt]
  · have hlog := log2_significand (f := f) (g := g) (by omega)
    have hfield : (ulpExp f g + (0 : Nat) + f.mb + f.bias).toNat = g / 2 ^ f.mb := by
      rw [ulpExp, hu]
      omega
    rw [if_neg (by omega)]
    simp only [hlog, Nat.sub_self, hfield, Nat.pow_zero, Nat.div_one]
    rw [hs, Nat.mul_comm]
    omega

/-- A zero of either sign is its sign bit. -/
theorem toFp_zero (f : FpFmt) (mode : RMode) (o : OMode) (neg : Bool) (e : Int) :
    toFp f mode o (.fin neg 0 e) = (signCode f neg, 0) := by
  simp [toFp, signCode]

/-- Converting a finite code's value gives the code, without a flag. -/
theorem toFp_significand {f : FpFmt} {g : Nat} (mode : RMode) (o : OMode) (neg : Bool) (hf : topCodes f = true) (hg : g ≤ f.maxCode) :
    toFp f mode o (.fin neg (significand f g) (ulpExp f g)) = (signCode f neg + g, 0) := by
  have henc := encodeMag_significand f g
  by_cases h0 : significand f g = 0
  · have hz : g = 0 := by rw [← henc, h0, encodeMag, if_pos (Nat.two_pow_pos _)]
    rw [h0, toFp_zero, hz, Nat.add_zero]
  · simp [toFp, signCode, h0, ulpExp_eq_step f h0, rquant_self, not_magGt_maxMag hf hg, henc]

/-- A format with an infinity keeps it. -/
theorem toFp_inf {f : FpFmt} {i : Nat} (mode : RMode) (o : OMode) (neg : Bool) (hi : f.infCode = some i) :
    toFp f mode o (.inf neg) = (signCode f neg + i, 0) := by
  simp [toFp, signCode, hi]

/-- Settles O56: a code's value is an infinity or a multiple of its unit, and neither is changed by a conversion. -/
theorem exactConversions : Obligations.ExactConversions := by
  unfold Obligations.ExactConversions
  refine ⟨?value, ?nan⟩
  case value =>
    intro k c f mode o hk hc hn
    have hf := topCodes_of_fpOf hk
    rcases decodeFp_cases hf hn with ⟨hinf, hd⟩ | ⟨hle, hd⟩
    · rw [hd, toFp_inf mode o _ hinf, signCode_add_magCode hc]
    · rw [hd, toFp_significand mode o _ hf hle, signCode_add_magCode hc]
  case nan =>
    intro k n f mode o _ hn
    simp [toFp, hn]

end Sys2Proof.Proofs

/-! SUPPORT and statements: the scalar-class instructions of a cell (02 Table 2.14, R66 to R71). -/

namespace Sys2Proof.Proofs

open Sys2Proof.Machine Sys2Proof.Laws

/-! ## An instruction that meets no error -/

/-- No cause of the list is met. -/
def NoCause (l : List (Bool × Nat)) : Prop := ∀ q ∈ l, q.1 = false

@[simp] theorem noCause_nil : NoCause [] := fun _ h => absurd h List.not_mem_nil

@[simp] theorem noCause_cons {b : Bool} {n : Nat} {l : List (Bool × Nat)} : NoCause ((b, n) :: l) ↔ b = false ∧ NoCause l :=
  List.forall_mem_cons

/-- Without a cause the instruction goes on (02 R74). -/
theorem guard_of_noCause {i : Iss} {l : List (Bool × Nat)} {ok : State → State} {s t : State} (hl : NoCause l) (hok : ok s = t) :
    i.guard (causes l) ok s = t := by
  have hnil : causes l = [] := by
    rw [causes, List.filter_eq_nil_iff.mpr fun q hq => by simp [hl q hq], List.map_nil]
  rw [Iss.guard, hnil, ← hok]
  rfl

/-- Clean reads of cell store leave the instruction as it is (02 R39, R80). -/
theorem readCell_of_clean {s : State} {h : Half} {c : Fin 288} {e : HwEvent} {fail : Bool → State → State} {ok : State → State}
    (hr : readsClean s h c e = true) : (issOf s h c e).readCell fail ok (fetched s h c) = ok (fetched s h c) := by
  simp only [readsClean, Bool.and_eq_true, decide_eq_true_eq, Bool.not_eq_true'] at hr
  obtain ⟨⟨⟨hue, hce⟩, h9⟩, h10⟩ := hr
  have he : (issOf s h c e).e = e := rfl
  have hp : cellPage (issOf s h c e).h (issOf s h c e).c = cellPage h c.val := rfl
  simp [Iss.readCell, he, hp, hue, hce, h9, h10]

/-- The same for an instruction of a unit. -/
theorem readCs_of_clean {s : State} {h : Half} {c : Fin 288} {e : HwEvent} {u : CUnit} {d : InFl} {ok : State → State}
    (hr : readsClean s h c e = true) : (issOf s h c e).readCs u d ok (fetched s h c) = ok (fetched s h c) :=
  readCell_of_clean hr

/-- The answer of an instruction that issues now, from what it does to the fetched state (02 R66). -/
theorem next_of_issues {op : Nat} {s t : State} {h : Half} {c : Fin 288} {e : HwEvent} {act : Iss → State → State}
    (hi : issues op s h c e = true) (hk : knownOps.contains op = true) (ht : act (issOf s h c e) (fetched s h c) = t) :
    (.next ((issue op h c e act s).onQueue s) : Res) = .next (t.onQueue s) := by
  rw [issue_runs hi hk, ht]

/-! ## NOP, SOP, SLI, SLD, SST, SRD (02 R68, R69) -/

/-- Settles O1: each instruction meets no cause, and what it goes on with is the result. -/
theorem cellScalarInstructions : Obligations.CellScalarInstructions := by
  unfold Obligations.CellScalarInstructions
  refine ⟨?nop, ?sop, ?sli, ?sld, ?sst, ?srd⟩
  case nop =>
    intro h c e s i hi hten hz
    refine next_of_issues hi rfl ?_
    unfold nopAct
    exact guard_of_noCause (by simp [i, hten, hz]) rfl
  case sop =>
    intro h c e s i hi hten hz hfn
    refine next_of_issues hi rfl ?_
    unfold sopAct
    exact guard_of_noCause (by simp [i, hten, hz, hfn]) rfl
  case sli =>
    intro h c e s i hi hten hz
    refine next_of_issues hi rfl ?_
    unfold sliAct
    exact guard_of_noCause (by simp [i, hten, hz]) rfl
  case sld =>
    intro h c e s i a hi hten hz ha hr
    refine next_of_issues hi rfl ?_
    unfold sldAct
    exact guard_of_noCause (by simp [i, hten, hz, show sAddr i % 8 = 0 from ha]) (readCell_of_clean hr)
  case sst =>
    intro h c e s i a old hi hten hz ha
    refine next_of_issues hi rfl ?_
    unfold sstAct
    exact guard_of_noCause (by simp [i, hten, hz, show sAddr i % 8 = 0 from ha]) rfl
  case srd =>
    intro h c e s i hi hten hz hsrc
    refine next_of_issues hi rfl ?_
    unfold srdAct
    refine guard_of_noCause (by simp [i, hten, hz, hsrc.trans (by decide : 3 < 9)]) ?_
    have hcases : bits i.w 95 92 = 0 ∨ bits i.w 95 92 = 1 ∨ bits i.w 95 92 = 2 := by omega
    rcases hcases with h0 | h0 | h0
    all_goals
      simp only [i, h0] at h0 ⊢
      rfl

/-! ## LOOP, BR, END, SIGNAL, WAIT, FENCE (02 R68, R70, R71; 03 R93 to R95) -/

/-- Once every unit is idle the instruction goes on. -/
theorem idle_of_unitsIdle {i : Iss} {ok : State → State} {s : State} (hidle : unitsIdle i.x = true) : i.idle ok s = ok s := if_pos hidle

/-- Settles O2: each instruction meets no cause, and what it goes on with is the result. -/
theorem cellControlInstructions : Obligations.CellControlInstructions := by
  unfold Obligations.CellControlInstructions
  refine ⟨?loop, ?br, ?endPart, ?endNow, ?signal, ?wait, ?fence⟩
  case loop =>
    intro h c e s i first stop encl n hi hten hz hlen hstop
    refine next_of_issues hi rfl ?_
    unfold loopAct
    have hnest : (decide (i.x.loops.length ≥ 4) || decide (stop > encl)) = false := by simp [hlen, hstop]
    exact guard_of_noCause (noCause_cons.mpr ⟨by simp [i, hten, hz], noCause_cons.mpr ⟨hnest, noCause_nil⟩⟩) rfl
  case br =>
    intro h c e s i taken t lim hi hten hz hcnd hlo hhi
    refine next_of_issues hi rfl ?_
    unfold brAct
    have hinside : (!(decide (lim.1 ≤ t) && decide (t < lim.2))) = false := by simp [hlo, hhi]
    exact guard_of_noCause (noCause_cons.mpr ⟨by simp [i, hten, hz, hcnd], noCause_cons.mpr ⟨hinside, noCause_nil⟩⟩)
      (apply_ite _ _ _ _).symm
  case endPart =>
    intro h c e s i hi hten hz hidle
    refine next_of_issues hi rfl ?_
    unfold endAct
    exact guard_of_noCause (by simp [i, hten, hz]) (idle_of_unitsIdle hidle)
  case endNow => exact fun _ _ _ hidle => if_pos hidle
  case signal =>
    intro h c e s i sem hi hten hz hsc hsem hstores
    refine next_of_issues hi rfl ?_
    unfold signalAct
    have hin : (fetched s h c).semIn i.h i.k.part (bits i.w 100 85) = true := hsem
    exact guard_of_noCause (by rcases hsc with hsc | hsc <;> simp [i, hten, hz, hsc, hin]) (if_pos hstores)
  case wait =>
    intro h c e s i sem hi hten hz hsem
    refine next_of_issues hi rfl ?_
    unfold waitAct
    have hin : (fetched s h c).semIn i.h i.k.part (bits i.w 100 85) = true := hsem
    exact guard_of_noCause (by simp [i, hten, hz, hin]) rfl
  case fence =>
    intro h c e s i hi hten hz hsc hidle
    refine next_of_issues hi rfl ?_
    unfold fenceAct
    exact guard_of_noCause (by simp [i, hten, hz, hsc]) (idle_of_unitsIdle hidle)

end Sys2Proof.Proofs

/-! SUPPORT and statement: the vector unit's instructions (02 Table 2.13, R57, R62, R66, R72). -/

namespace Sys2Proof.Proofs

open Sys2Proof.Machine Sys2Proof.Laws

/-- Settles O3: each instruction meets no cause and no error in its reads, and what it goes on with is its entry. -/
theorem cellVectorInstructions : Obligations.CellVectorInstructions := by
  unfold Obligations.CellVectorInstructions
  refine ⟨?elementwise, ?vfill, ?vun, ?trans, ?cvt, ?quant, ?red⟩
  case elementwise =>
    intro h c e s op i hiss f n bc ld l1 l2 n2 a b2 d sb fl int t hi hz hbc hov hf hld hl1 hl2 hd1 hd2 hr
    have hrun (hk : knownOps.contains op = true) : (.next ((issue op h c e (vecAct op) s).onQueue s) : Res) = .next (t.onQueue s) := by
      refine next_of_issues hi hk ?_
      subst hiss
      unfold vecAct
      exact guard_of_noCause (by simpa [f, n, n2, bc, ld, l1, l2, hz, hbc, hov, hf, hld, hl1, hd1] using And.intro hl2 hd2)
        (readCs_of_clean hr)
    refine ⟨?vadd, ?vsub, ?vmul, ?vmax, ?vmin, ?vfma⟩
    all_goals
      intro hop
      subst hop
      exact hrun rfl
  case vfill =>
    intro h c e s i f n ld v hi hz hf hld
    refine next_of_issues hi rfl ?_
    unfold vfillAct
    exact guard_of_noCause (by simp [i, f, n, ld, hz, hf, hld]) rfl
  case vun =>
    intro h c e s i f fn n ld l1 o a r hi hz hfn hov hf hint hld hl1 hd hr
    refine next_of_issues hi rfl ?_
    unfold vunAct
    exact guard_of_noCause (by simpa [i, f, fn, n, ld, l1, hz, hfn, hov, hf, hld, hl1, hd] using hint) (readCs_of_clean hr)
  case trans =>
    intro h c e s i f n ld l1 a hi hz hf hld hl1 hd hr
    have hfmt : f ≠ 0 → f ≠ 1 → f = 2 := by omega
    refine next_of_issues hi rfl ?_
    unfold transAct
    exact guard_of_noCause (by simpa [i, f, n, ld, l1, hz, hld, hl1, hd] using hfmt) (readCs_of_clean hr)
  case cvt =>
    intro h c e s i nb fs fd ld l1 b r hi hz hov hfs hfd hblk hld hl1 hd hsame hr
    refine next_of_issues hi rfl ?_
    unfold cvtAct
    exact guard_of_noCause (by simpa [i, nb, fs, fd, ld, l1, hz, hov, hfs, hfd, hblk, hld, hl1, hd] using hsame) (readCs_of_clean hr)
  case quant =>
    intro h c e s i nb fs fd ld l1 b old r scl hi hz1 hz2 hfs hblk hld hl1 hd hr
    have hfmt : fs ≠ 0 → fs ≠ 1 → fs = 2 := by omega
    refine next_of_issues hi rfl ?_
    unfold quantAct
    exact guard_of_noCause (by simpa [i, nb, fs, fd, ld, l1, hz1, hz2, hblk, hld, hl1, hd] using hfmt) (readCs_of_clean hr)
  case red =>
    intro h c e s i m ax fn ld l1 n b d r hi hz hax hld hl1 hd hr
    refine next_of_issues hi rfl ?_
    unfold redAct
    exact guard_of_noCause (by simpa [i, m, ax, n, ld, l1, hz, hax, hl1] using And.intro hld hd) (readCs_of_clean hr)

end Sys2Proof.Proofs

/-! SUPPORT and statement: MMA (02 Table 2.11, R49, R50, R62, R66, R73). -/

namespace Sys2Proof.Proofs

open Sys2Proof.Machine Sys2Proof.Laws

/-- Settles O4: MMA meets no cause, no parity error and no error in its reads; a dense A has no group that could be bad. -/
theorem cellMatrixInstruction : Obligations.CellMatrixInstruction := by
  unfold Obligations.CellMatrixInstruction
  refine ⟨?mma, ?dense⟩
  case mma =>
    intro h c e s i fa fb steps u la lb lc na nb hi hz hpair hspa hla hlb hlc hoa hob hpar harm hr
    have hsparse : bit i.w 15 = true → fa ≠ 3 → fa ≠ 4 → fa ≠ 5 → fa ≠ 6 → fa ≠ 10 → fa = 11 := by tauto
    refine next_of_issues hi rfl ?_
    unfold mmaAct
    exact guard_of_noCause
      (by simpa [i, fa, fb, steps, la, lb, lc, na, nb, hz, hpair, hla, hlb, hlc, hoa, hob] using hsparse)
      ((if_neg hpar).trans ((if_neg (Bool.eq_false_iff.mp harm)).trans (readCs_of_clean hr)))
  case dense =>
    intro i la lb lc fa fb steps acc u s a b res
    rfl

end Sys2Proof.Proofs

/-! SUPPORT and statement: the load/store unit's instructions (02 Table 2.12, R66, R67; 04 R119, R128). -/

namespace Sys2Proof.Proofs

open Sys2Proof.Machine Sys2Proof.Laws

/-! ## Rows in memory (02 R67, 04 R119) -/

/-- A store whose rows lie in the partition's windows takes its bytes and queues them. -/
theorem sendRows_of_inside {i : Iss} {ca hint n : Nat} {rows : List Nat} {s : State} (hrow : i.badRow s n rows = none) :
    i.sendRows ca hint n rows s =
      (let b := csBytes i.x (some .lsu) i.stamp ca (n * rows.length)
       s.enqueue i .lsu i.x (InFl.mk none [] ((List.range rows.length).map (fun r => (nth 0 rows r, (b.drop (n * r)).take n))) hint
        false 0 0 [])) := by
  simp only [Iss.sendRows, hrow]

/-- A load whose rows lie in the partition's windows and are read without error queues the bytes for cell store. -/
theorem landRows_of_read {i : Iss} {ca hint n : Nat} {rows : List Nat} {s : State} (hrow : i.badRow s n rows = none)
    (hread : (i.loadRows hint n rows s).2.1 = false) (he : i.e ≠ .loadUE) :
    i.landRows ca hint n rows s =
      (i.loadRows hint n rows s).1.enqueue i .lsu i.x
        (InFl.mk none (csLines i.x (some .lsu) i.stamp ca (i.loadRows hint n rows s).2.2) [] hint true 0 0
          (rows.map (fun a => (a, n)))) := by
  simp [Iss.landRows, hrow, hread, he]

/-- Settles O5: each instruction meets no cause, its reads and rows meet no error, and what it goes on with is its entry. -/
theorem cellMemoryInstructions : Obligations.CellMemoryInstructions := by
  unfold Obligations.CellMemoryInstructions
  refine ⟨?store, ?load, ?scatter, ?gather, ?prefetch, ?move⟩
  case store =>
    intro h c e s i rows n ca base al b hi hz hhint hca hbase hr hrow
    refine next_of_issues hi rfl ?_
    unfold rowsAct
    exact guard_of_noCause (by simpa [i, rows, ca, hz, hhint, hca] using hbase) ((readCs_of_clean hr).trans (sendRows_of_inside hrow))
  case load =>
    intro h c e s i rows n ca base al r hi hz hhint hca hbase hrow hread he
    refine next_of_issues hi rfl ?_
    unfold rowsAct
    exact guard_of_noCause (by simpa [i, rows, ca, hz, hhint, hca] using hbase) (landRows_of_read hrow hread he)
  case scatter =>
    intro h c e s i rows n ca ia base ib al b hi hz hhint hca hia hbase hr hrow
    refine next_of_issues hi rfl ?_
    unfold indexedAct
    exact guard_of_noCause (by simpa [i, rows, ca, ia, hz, hhint, hca, hia] using hbase)
      ((readCs_of_clean hr).trans (sendRows_of_inside hrow))
  case gather =>
    intro h c e s i rows n ca ia base ib al r hi hz hhint hca hia hbase hr hrow hread he
    refine next_of_issues hi rfl ?_
    unfold indexedAct
    exact guard_of_noCause (by simpa [i, rows, ca, ia, hz, hhint, hca, hia] using hbase)
      ((readCs_of_clean hr).trans (landRows_of_read hrow hread he))
  case prefetch =>
    intro h c e s i base fill hi hz hhint
    refine next_of_issues hi rfl ?_
    unfold prefetchAct
    exact guard_of_noCause (by simp [i, hz, hhint]) rfl
  case move =>
    intro h c e s i n ld l1 hi hz hld hl1 hr
    refine next_of_issues hi rfl ?_
    unfold moveAct
    exact guard_of_noCause (by simp [i, n, ld, l1, hz, hld, hl1]) (readCs_of_clean hr)

end Sys2Proof.Proofs

/-! SUPPORT and statement: completion, scrub, retirement, swap and reset of a cell (02 R39, R66, R75 to R80; 01 R33). -/

namespace Sys2Proof.Proofs

open Sys2Proof.Machine

/-! ## The command -/

theorem exec_retireReq {m : Master} {h : Half} {c : Fin 288} {s : State} (hm : s.reaches m = true) :
    exec (.retireReq m h c) s = .next ((retireReq m h c s).onQueue s) := if_pos hm

theorem exec_cellReset {m : Master} {h : Half} {c : Fin 288} {s : State} (hm : s.reaches m = true) :
    exec (.cellReset m h c) s = .next ((cellReset m h c s).onQueue s) := if_pos hm

theorem exec_instructionComplete (h : Half) (c : Fin 288) (u : CUnit) (s : State) :
    exec (.instructionComplete h c u) s = .next ((instructionComplete h c u s).onQueue s) := rfl

theorem exec_cellStoreScrub (h : Half) (c : Fin 288) (line : Fin 65536) (u : Upset) (s : State) :
    exec (.cellStoreScrub h c line u) s = .next ((cellStoreScrub h c line u s).onQueue s) := rfl

theorem exec_swapStart (h : Half) (c : Fin 288) (bistFail : List (Fin 288)) (s : State) :
    exec (.swapStart h c bistFail) s = .next ((swapStart h c bistFail s).onQueue s) := rfl

/-! ## What each does -/

section
variable {m : Master} {h : Half} {c : Fin 288} {s : State} (ha : s.answers (cellPage h c.val) = true)
include ha

/-- A spare, GATED or in BIST, is retired at once (02 R76). -/
theorem retireReq_of_spare (hst : s.cst h c.val ≤ 1) : retireReq m h c s = s.retireCell h c.val := by
  rcases Nat.le_one_iff_eq_zero_or_eq_one.mp hst with h0 | h1
  · simp only [retireReq, ha, h0, if_true]
  · simp only [retireReq, ha, h1, if_true]

/-- A RETIRED cell has nothing to retire (02 Table 2.17). -/
theorem retireReq_of_retired (hst : s.cst h c.val = 5) : retireReq m h c s = s.err (cellPage h c.val) 0 { status := 1 } := by
  simp only [retireReq, ha, hst, if_true, State.stateErr]

/-- Any other cell is marked, and takes its place for the swap where no part holds it (02 R76, R79). -/
theorem retireReq_of_inUse (hlo : 2 ≤ s.cst h c.val) (hhi : s.cst h c.val ≤ 4) :
    retireReq m h c s =
      (let t := s.setCell h c.val { s.cell h c.val with retire := true }
       if (s.cell h c.val).ctx.isNone then t.queueSwap h c.val else t) := by
  have hcases : s.cst h c.val = 2 ∨ s.cst h c.val = 3 ∨ s.cst h c.val = 4 := by omega
  rcases hcases with hst | hst | hst <;> simp only [retireReq, ha, hst, if_true]

theorem cellReset_of_ready (hbusy : s.isSet (cellPage h c.val) R.hdr.BLK_STS_RESET_BUSY = false) :
    cellReset m h c s = s.resetCell h c.val := by
  simp [cellReset, ha, hbusy]

/-- A cell in reset takes no other reset (01 R33). -/
theorem cellReset_of_resetBusy (hbusy : s.isSet (cellPage h c.val) R.hdr.BLK_STS_RESET_BUSY = true) :
    cellReset m h c s = s.err (cellPage h c.val) 0 { status := 1 } := by
  simp [cellReset, ha, hbusy, State.stateErr]

/-- A swap that is due fences and retires the cell, and a mapped cell's logical ID goes to a spare (02 R77, R79). -/
theorem swapStart_of_due {bistFail : List (Fin 288)} (hmark : (s.cell h c.val).swap = true ∨ (s.cell h c.val).retire = true)
    (hdue : s.swapDue h c.val = true) (hst : s.cst h c.val ≠ 5)
    (hbusy : s.isSet (cellPage h c.val) R.hdr.BLK_STS_RESET_BUSY = false) :
    swapStart h c bistFail s =
      (let t := (s.fence (cellPage h c.val)).retireCell h c.val
       if s.isSet (cellPage h c.val) R.cell.CELL_ID_MAPPED then
         t.trySpares h (s.logicalId h c.val) (bistFail.map (·.val)) (s.spares h (c.val / 72))
       else t) := by
  have hmarked : ((s.cell h c.val).swap || (s.cell h c.val).retire) = true := Bool.or_eq_true_iff.mpr hmark
  simp [swapStart, ha, hmarked, hdue, hst, hbusy]

end

/-- Settles O19: the lemmas above, a scrub by what the upset is, and completion by whether the instruction has a token. -/
theorem cellControlCommands : Obligations.CellControlCommands := by
  unfold Obligations.CellControlCommands
  refine ⟨?complete, ?loadError, ?scrub, ?retireSpare, ?retireRetired, ?retireInUse, ?swap, ?reset, ?resetBusy⟩
  case complete =>
    intro h c u e t s hq ha hheld hload
    rw [exec_instructionComplete, instructionComplete]
    cases htok : e.tok <;>
      simp only [hq, ha, hheld, hload, htok, Bool.not_true, Bool.or_self, if_neg Bool.false_ne_true]
  case loadError =>
    intro h c u e t s hq ha hheld hload harm
    rw [exec_instructionComplete, instructionComplete]
    simp only [hq, ha, hheld, hload, harm, Bool.not_true, Bool.or_self, if_neg Bool.false_ne_true, Bool.and_self, if_true]
  case scrub =>
    intro h c line u s ha hlo hhi
    rw [exec_cellStoreScrub]
    cases u <;> simp [cellStoreScrub, ha, hlo, hhi]
  case retireSpare =>
    intro m h c s hm ha hst
    rw [exec_retireReq hm, retireReq_of_spare ha hst]
  case retireRetired =>
    intro m h c s hm ha hst
    rw [exec_retireReq hm, retireReq_of_retired ha hst]
  case retireInUse =>
    intro m h c s hm ha hlo hhi
    rw [exec_retireReq hm, retireReq_of_inUse ha hlo hhi]
  case swap =>
    intro h c bistFail s ha hmark hdue hst hbusy
    rw [exec_swapStart, swapStart_of_due ha hmark hdue hst hbusy]
  case reset =>
    intro m h c s hm ha hbusy
    rw [exec_cellReset hm, cellReset_of_ready ha hbusy]
  case resetBusy =>
    intro m h c s hm ha hbusy
    rw [exec_cellReset hm, cellReset_of_resetBusy ha hbusy]

end Sys2Proof.Proofs

/-! SUPPORT and statement: a queue's doorbell and commands, the end of PAUSING and DRAINING, aging (03 R81, R83, R84, R90, R101 to R103). -/

namespace Sys2Proof.Proofs

open Sys2Proof.Machine

/-! ## A command and its effect -/

/-- A command of the hardware answers its effect. -/
theorem next_of_effect {s t u : State} (h : t = u) : (.next (t.onQueue s) : Res) = .next (u.onQueue s) := by rw [h]

/-- A command of a master that reaches the pages answers its effect (13 R405). -/
theorem next_of_reaches {m : Master} {s t u : State} (hm : s.reaches m = true) (h : t = u) :
    (if s.reaches m then .next (t.onQueue s) else .next s : Res) = .next (u.onQueue s) := by
  rw [if_pos hm, h]

/-! ## The doorbell (03 R84, Table 3.13) -/

section
variable {m : Master} {r : QRef} {value : Word} {s : State} (ha : s.answers (.seq r.half) = true)
include ha

/-- A queue that takes doorbells stores a TAIL that lies in its ring. -/
theorem queueDoorbell_of_open (hst : [qACTIVE, qPAUSING, qPAUSED, qHALTED].contains (s.queue r.half r.q.val).st = true) :
    queueDoorbell m r value s =
      if value.toNat % 65536 ≥ 2 ^ (s.queue r.half r.q.val).ctx.dlog then s.err (.seq r.half) 10
      else s.setQueue r.half r.q.val { s.queue r.half r.q.val with tail := value.toNat % 65536 } := by
  have hcases : (s.queue r.half r.q.val).st = 1 ∨ (s.queue r.half r.q.val).st = 2 ∨ (s.queue r.half r.q.val).st = 3 ∨
      (s.queue r.half r.q.val).st = 5 := by simpa [qACTIVE, qPAUSING, qPAUSED, qHALTED] using hst
  rcases hcases with h | h | h | h <;> simp [queueDoorbell, ha, h, qDISABLED, qDRAINING]

theorem queueDoorbell_of_closed (hst : [qDISABLED, qDRAINING].contains (s.queue r.half r.q.val).st = true) :
    queueDoorbell m r value s = s.stateErr (.seq r.half) := by
  have hcases : (s.queue r.half r.q.val).st = qDISABLED ∨ (s.queue r.half r.q.val).st = qDRAINING := by simpa using hst
  rcases hcases with h | h <;> simp [queueDoorbell, ha, h]

end

/-! ## Queue commands (03 R101, Table 3.14) -/

section
variable {r : QRef} {s : State} (ha : s.answers (.seq r.half) = true) (hbusy : s.cmdBusy r.half = false)
include ha hbusy

/-- A queue command in a state that Table 3.14 does not list for it is STATE_ERR. -/
theorem qCommand_of_otherState {sts : List Nat} {ok : State → State} (hst : sts.contains (s.queue r.half r.q.val).st = false) :
    qCommand r sts ok s = s.cmdStateErr r.half r.q.val := by
  simp only [qCommand, ha, hbusy, hst, Bool.not_false, Bool.or_true]
  rfl

section
variable (hoff : s.seqState r.half ≠ 0) (hstop : s.seqState r.half ≠ 4)
include hoff hstop

/-- A queue command in a state that Table 3.14 lists for it acts, and answers 0 in Q_CMD_STS. -/
theorem qCommand_of_listedState {sts : List Nat} {ok : State → State} (hst : sts.contains (s.queue r.half r.q.val).st = true) :
    qCommand r sts ok s = (ok s).cmdSts r.half r.q.val 0 := by
  simp [qCommand, -List.contains_eq_mem, ha, hbusy, hoff, hstop, hst]

/-- DISABLE of a halted queue first waits for what it has in flight. -/
theorem disable_of_idle {m : Master} (hst : [qPAUSED, qHALTED].contains (s.queue r.half r.q.val).st = true)
    (hfly : (s.queue r.half r.q.val).fly = []) :
    disable m r s = (s.disableQ r.half r.q.val).cmdSts r.half r.q.val 0 := by
  rw [disable, hfly, List.isEmpty_nil, Bool.not_true, Bool.and_false, Bool.false_and, if_neg Bool.false_ne_true,
    qCommand_of_listedState ha hbusy hoff hstop hst]

/-- An OP of no command is BAD_DESC. -/
theorem qCmdBad_of_otherOp {m : Master} {op : BitVec 4} (hop : op.toNat = 0 ∨ 7 ≤ op.toNat) :
    qCmdBad m r op s = (s.err (.seq r.half) 9 { status := 2 }).cmdSts r.half r.q.val 2 := by
  have hout : (decide (1 ≤ op.toNat) && decide (op.toNat ≤ 6)) = false := by simp; omega
  simp [qCmdBad, -Bool.and_eq_true, ha, hout, hbusy, hoff, hstop]

section
variable {m : Master} {p : Nat} {e : State × Nat × List Byte} (hst : (s.queue r.half r.q.val).st = 0)
  (hp : s.partOfQ r.half r.q.val = some p) (he : s.memRead r.half .dma 0 (s.qctBase r.half + 64 * r.q.val) 64 = e)
include hst hp he

/-- ENABLE takes a context entry that it can read and that R83 allows. -/
theorem enable_of_allowedEntry (hread : e.2.1 = 0) (hok : e.1.qctOk r.half p (natOf e.2.2) = true) :
    enable m r s =
      ((e.1.setQueue r.half r.q.val { qInit with st := qACTIVE, ctx := qctOf (natOf e.2.2) }).showQ r.half r.q.val).cmdSts
        r.half r.q.val 0 := by
  simp [enable, ha, hbusy, hoff, hstop, hst, hp, he, hread, hok]

theorem enable_of_badEntry (hok : e.1.qctOk r.half p (natOf e.2.2) = false) :
    enable m r s = (e.1.err (.seq r.half) 11 { status := 2, parts := 2 ^ p }).cmdSts r.half r.q.val 2 := by
  simp [enable, ha, hbusy, hoff, hstop, hst, hp, he, hok]

end
end
end

/-! ## What ends PAUSING and DRAINING, aging, and the base of the context table (03 R83, R90, R102) -/

section
variable {r : QRef} {s : State} (ha : s.answers (.seq r.half) = true)
include ha

theorem queuePaused_of_idle (hst : (s.queue r.half r.q.val).st = qPAUSING) (hfly : (s.queue r.half r.q.val).fly = []) :
    queuePaused r s = s.qState r.half r.q.val qPAUSED := by
  simp [queuePaused, ha, hst, hfly]

theorem queueDrained_of_idle (hst : (s.queue r.half r.q.val).st = qDRAINING) (hfly : (s.queue r.half r.q.val).fly = [])
    (hend : (s.queue r.half r.q.val).next = (s.queue r.half r.q.val).tail) : queueDrained r s = s.disableQ r.half r.q.val := by
  simp [queueDrained, ha, hst, hfly, hend]

theorem priorityAging_of_ready (hrun : s.seqState r.half = 1) (hready : s.ready r.half r.q.val = true) :
    priorityAging r s = (s.drawn 1).setQueue r.half r.q.val { s.queue r.half r.q.val with aged := true } := by
  simp [priorityAging, ha, hrun, hready]

end

theorem qctBaseWrite_of_allDisabled {m : Master} {h : Half} {high : Bool} {value : Word} {s : State} (ha : s.answers (.seq h) = true)
    (hst : (s.listedQ h).all (fun q => (s.queue h q).st = 0) = true) :
    qctBaseWrite m h high value s =
      if high then s.setF (.seq h) R.seq.QCT_BASE_HI_ADDR (bits value.toNat 19 0)
      else s.setF (.seq h) R.seq.QCT_BASE_LO_ADDR (bits value.toNat 31 12) := by
  have hnone : (s.listedQ h).any (fun q => (s.queue h q).st ≠ 0) = false := by simpa using hst
  rw [qctBaseWrite, ha, hnone, Bool.not_true, if_neg Bool.false_ne_true, if_neg Bool.false_ne_true]

/-- Settles O20: the doorbell by the queue's state, each command by the states of Table 3.14, the rest by the lemmas above. -/
theorem queueCommands : Obligations.QueueCommands := by
  unfold Obligations.QueueCommands
  refine ⟨?doorbell, ?beyond, ?closed, ?enable, ?refuse, ?pause, ?resume, ?drain, ?disable, ?reset, ?pauseOther, ?bad, ?paused, ?drained,
    ?aging, ?base⟩
  case doorbell =>
    intro m r value s hm ha hst ht
    exact next_of_reaches hm ((queueDoorbell_of_open ha hst).trans (if_neg (Nat.not_le.mpr ht)))
  case beyond =>
    intro m r value s hm ha hst ht
    exact next_of_reaches hm ((queueDoorbell_of_open ha hst).trans (if_pos ht))
  case closed =>
    intro m r value s hm ha hst
    exact next_of_reaches hm (queueDoorbell_of_closed ha hst)
  case enable =>
    intro m r p s e hm ha hbusy hoff hstop hst hp hread hok
    exact next_of_reaches hm (enable_of_allowedEntry ha hbusy hoff hstop hst hp rfl hread hok)
  case refuse =>
    intro m r p s e hm ha hbusy hoff hstop hst hp hok
    exact next_of_reaches hm (enable_of_badEntry ha hbusy hoff hstop hst hp rfl hok)
  case pause =>
    intro m r s hm ha hbusy hoff hstop hst
    exact next_of_reaches hm (qCommand_of_listedState ha hbusy hoff hstop hst)
  case resume =>
    intro m r s hm ha hbusy hoff hstop hst
    exact next_of_reaches hm (qCommand_of_listedState ha hbusy hoff hstop hst)
  case drain =>
    intro m r s hm ha hbusy hoff hstop hst
    exact next_of_reaches hm (qCommand_of_listedState ha hbusy hoff hstop hst)
  case disable =>
    intro m r s hm ha hbusy hoff hstop hst hfly
    exact next_of_reaches hm (disable_of_idle ha hbusy hoff hstop hst hfly)
  case reset =>
    intro m r s hm ha hbusy hoff hstop hst
    exact next_of_reaches hm (qCommand_of_listedState ha hbusy hoff hstop hst)
  case pauseOther =>
    intro m r s hm ha hbusy hst
    exact next_of_reaches hm (qCommand_of_otherState ha hbusy (by simpa using hst))
  case bad =>
    intro m r op s hm ha hbusy hoff hstop hop
    exact next_of_reaches hm (qCmdBad_of_otherOp ha hbusy hoff hstop hop)
  case paused =>
    intro r s ha hst hfly
    exact next_of_effect (queuePaused_of_idle ha hst hfly)
  case drained =>
    intro r s ha hst hfly hend
    exact next_of_effect (queueDrained_of_idle ha hst hfly hend)
  case aging =>
    intro r s ha hrun hready
    exact next_of_effect (priorityAging_of_ready ha hrun hready)
  case base =>
    intro m h high value s hm ha hst
    exact next_of_reaches hm (qctBaseWrite_of_allDisabled ha hst)

end Sys2Proof.Proofs

/-! SUPPORT and statement: the sequencer's states, the semaphore registers, the commands of a partition (03 R93, R104 to R107). -/

namespace Sys2Proof.Proofs

open Sys2Proof.Machine

section
variable {m : Master} {h : Half} {s : State} (ha : s.answers (.seq h) = true)
include ha

/-! ## The sequencer (03 R104, R105, Table 3.15) -/

theorem seqQuiesce_of_running (hst : s.seqState h = 1) :
    seqQuiesce m h s = (s.setF (.seq h) R.seq.BLK_STS_STATE 2).setF (.seq h) R.seq.BLK_CTL_EN 0 := by
  simp [seqQuiesce, ha, hst]

theorem seqQuiesce_of_otherState (hst : s.seqState h ≠ 1) : seqQuiesce m h s = s.stateErr (.seq h) := by
  simp [seqQuiesce, ha, hst]

theorem seqRun_of_quiescing (hst : s.seqState h = 2 ∨ s.seqState h = 3) :
    seqRun m h s = (s.setF (.seq h) R.seq.BLK_STS_STATE 1).setF (.seq h) R.seq.BLK_CTL_EN 1 := by
  simp [seqRun, ha, hst]

theorem seqRun_of_otherState (h2 : s.seqState h ≠ 2) (h3 : s.seqState h ≠ 3) : seqRun m h s = s.stateErr (.seq h) := by
  simp [seqRun, ha, h2, h3]

/-- QUIESCING ends once nothing of the half is in flight. -/
theorem seqQuiesced_of_quiet (hst : s.seqState h = 2) (hquiet : s.quiet h = true) :
    seqQuiesced h s = s.setF (.seq h) R.seq.BLK_STS_STATE 3 := by
  simp [seqQuiesced, ha, hst, hquiet]

/-! ## The semaphore registers (03 R93) -/

theorem semAdd_of_answers {value : Word} : semAdd m h value s = s.addSem (s.getF (.seq h) R.seq.SEM_SEL_INDEX) value.toNat := if_pos ha

theorem semVal_of_answers {value : Word} : semVal m h value s = s.setSem (s.getF (.seq h) R.seq.SEM_SEL_INDEX) value.toNat := if_pos ha

/-! ## The commands of a partition (03 R106, R107) -/

theorem terminate_of_running {p : Fin 8} (hst : s.partState h p.val = 1) :
    terminate m h p s = s.terminatePart p.val (if m = .cc then 0xE else 9) := by
  simp only [terminate, ha, hst, Bool.not_true, Bool.false_eq_true, if_false, if_true]

theorem terminate_of_otherState {p : Fin 8} (hst : s.partState h p.val ≠ 1) : terminate m h p s = s.stateErr (.seq h) := by
  simp [terminate, ha, hst]

/-- RESTART of a TERMINATED partition zeroes the cell stores of both halves, then lets it run. -/
theorem restart_of_terminated {p : Fin 8} (hst : s.partState h p.val = 3) :
    restart m h p s =
      (let zero := fun (hh : Half) (s : State) =>
         foldOver (List.range 256) (fun l (s : State) =>
           if s.cellIn hh p.val l then
             match s.physOf hh l with
             | some c => s.setCell hh c { s.cell hh c with cs := [] }
             | none => s
           else s) s
       (zero .B (zero .A s)).setPart p.val 1) := by
  rw [restart, ha, Bool.not_true, if_neg Bool.false_ne_true]
  exact if_pos hst

end

/-- Settles O21: each command by the state it finds, from the lemmas above. -/
theorem sequencerAndPartitions : Obligations.SequencerAndPartitions := by
  unfold Obligations.SequencerAndPartitions
  refine ⟨?quiesce, ?quiesceOther, ?run, ?runOther, ?quiesced, ?semAdd, ?semVal, ?terminate, ?terminateOther, ?restart⟩
  case quiesce =>
    intro m h s hm ha hst
    exact next_of_reaches hm (seqQuiesce_of_running ha hst)
  case quiesceOther =>
    intro m h s hm ha hst
    exact next_of_reaches hm (seqQuiesce_of_otherState ha hst)
  case run =>
    intro m h s hm ha hst
    exact next_of_reaches hm (seqRun_of_quiescing ha hst)
  case runOther =>
    intro m h s hm ha h2 h3
    exact next_of_reaches hm (seqRun_of_otherState ha h2 h3)
  case quiesced =>
    intro h s ha hst hquiet
    exact next_of_effect (seqQuiesced_of_quiet ha hst hquiet)
  case semAdd =>
    intro m h value s hm ha
    exact next_of_reaches hm (semAdd_of_answers ha)
  case semVal =>
    intro m h value s hm ha
    exact next_of_reaches hm (semVal_of_answers ha)
  case terminate =>
    intro m h p s hm ha hst
    exact next_of_reaches hm (terminate_of_running ha hst)
  case terminateOther =>
    intro m h p s hm ha hst
    exact next_of_reaches hm (terminate_of_otherState ha hst)
  case restart =>
    intro m h p s hm ha hst
    exact next_of_reaches hm (restart_of_terminated ha hst)

end Sys2Proof.Proofs

/-! SUPPORT and statement: the dispatch of a descriptor, and what each type does (03 R85 to R89, R93 to R97; 08 R262; 09 R292). -/

namespace Sys2Proof.Proofs

open Sys2Proof.Machine

/-! ## Dispatch (03 R85, R86, R89) -/

section
variable {ty : Nat} {r : QRef} {hr : HostRead} {act : Desc → State → State} {s : State}

theorem readDesc_eq_descRead (r : QRef) (hr : HostRead) (s : State) : s.readDesc r.half r.q.val hr = descRead r hr s := rfl

/-- A descriptor that passes its checks acts on the state that has it in flight. -/
theorem dispatch_of_dispatches (hd : dispatches ty r hr s = true) : dispatch ty r hr act s = act (descNow r hr s) (dispatched r hr s) := by
  simp only [dispatches, Bool.and_eq_true, Bool.not_eq_true', decide_eq_true_eq, Option.isNone_iff_eq_none] at hd
  obtain ⟨⟨⟨⟨⟨⟨⟨⟨⟨⟨⟨ha, hrun⟩, hdrain⟩, htake⟩, hheld⟩, hinj⟩, hthere⟩, hread⟩, hty⟩, hcan⟩, hgo⟩, hcheck⟩ := hd
  simp [dispatch, ha, hrun, hdrain, htake, hheld, hinj, hthere, hread, hty, hcan, hgo, hcheck, dispatched, descNow,
    readDesc_eq_descRead]

section
variable {d : State × Bool × Bool × Nat} (hd : descRead r hr s = d)
  (ha : s.answers (.seq r.half) = true) (hrun : s.seqState r.half = 1) (hdrain : s.draining = false)
  (htake : (s.queue r.half r.q.val).canTake = true)
  (hheld : ((s.queue r.half r.q.val).ctx.dsp = 0 &&
    s.holds [((s.queue r.half r.q.val).ctx.dring + 128 * (s.queue r.half r.q.val).next, 128)]) = false)
  (hinj : s.armed (.seq r.half) 12 = false) (hthere : d.2.1 = true) (hgo : s.mayGo r.half r.q.val = true)
include hd ha hrun hdrain htake hheld hinj hthere hgo

/-- A descriptor that fails a check completes with the check's code. -/
theorem dispatch_of_failedCheck {c : Nat} (hread : d.2.2.1 = false) (hty : bits d.2.2.2 7 0 = ty) (hev : ty ≠ dEVENT)
    (hcan : s.canDispatch r.half r.q.val d.2.2.2 = true)
    (hcheck : d.1.descCheck r.half ((s.partOfQ r.half r.q.val).getD 0) d.2.2.2 = some c) :
    dispatch ty r hr act s =
      (d.1.denySpans r.half ((s.partOfQ r.half r.q.val).getD 0) c (descSpans d.2.2.2)).launch r.half r.q.val
        { descOf (s.queue r.half r.q.val).next d.2.2.2 with done := true, status := checkStatus c, detail := c, info := 0 } := by
  simp [dispatch, ha, hrun, hdrain, htake, hheld, hinj, hthere, hread, hty, hev, hcan, hgo, hcheck, readDesc_eq_descRead, hd]

/-- A descriptor that cannot be read raises event 12 and completes with DETAIL 0x88. -/
theorem dispatch_of_failedRead (hread : d.2.2.1 = true) :
    dispatch ty r hr act s =
      (d.1.err (.seq r.half) 12 { cost := 4, status := 7, detail := 0x88, parts := 2 ^ (s.partOfQ r.half r.q.val).getD 0 }).launch
        r.half r.q.val { descOf (s.queue r.half r.q.val).next 0 with done := true, status := 7, detail := 0x88 } := by
  simp [dispatch, ha, hrun, hdrain, htake, hheld, hinj, hthere, hread, hgo, readDesc_eq_descRead, hd]

end
end

/-! ## What a descriptor does (03 R88, R96; 08 R262; 09 R292) -/

section
variable {h : Half} {q : Nat} {d : Desc} {s : State}

/-- A COPY from device memory that is not remote moves its rows at once. -/
theorem copyDesc_of_deviceSource (hsrc : bits d.raw 401 400 = 0) (hdst : bits d.raw 403 402 ≠ 3) :
    copyDesc h q d s =
      (let o := (List.range (bits d.raw 311 288 + 1)).foldl (fun acc k => State.copyRow h q d.raw s.fresh k acc) (s.drawn 1, 0, 0)
       o.1.updDesc h q d.slot (·.finish o.2.1 0 o.2.2)) := by
  simp [copyDesc, hsrc, hdst]

/-- A remote COPY is a list of messages of its own. -/
theorem copyDesc_of_remote (hsp : bits d.raw 401 400 = 3 ∨ bits d.raw 403 402 = 3) :
    copyDesc h q d s =
      (let c : RCopy :=
         { half := h, q := q, slot := d.slot, part := (s.partOfQ h q).getD 0, raw := d.raw, todo := remoteMsgs d.raw, bytes := 0,
           fail := none, out := 0 }
       ({ s with rcopies := s.rcopies ++ [c] }).settle) := by
  simp only [copyDesc, Bool.or_eq_true, decide_eq_true_eq, hsp, if_true]

/-- A COPY from host memory, while a port carries its function, asks for its rows. -/
theorem copyDesc_of_hostSource (hsrc : bits d.raw 401 400 = 1 ∨ bits d.raw 401 400 = 2) (hdst : bits d.raw 403 402 ≠ 3)
    (hport : (s.carrier (spaceFn (bits d.raw 401 400))).isSome = true) :
    copyDesc h q d s =
      foldOver (List.range (bits d.raw 311 288 + 1)) (fun k (t : State) =>
        t.hostRead h q d.slot (spaceFn (bits d.raw 401 400)) (bits d.raw 191 128 + k * bits d.raw 359 320) (bits d.raw 287 256)
          (bits d.raw 403 402) (bits d.raw 255 192 + k * bits d.raw 399 360)) s := by
  have hremote : (bits d.raw 401 400 = 3 || bits d.raw 403 402 = 3) = false := by
    rcases hsrc with hsrc | hsrc <;> simp [hsrc, hdst]
  have hhost : bits d.raw 401 400 ≠ 0 := by omega
  have hcarried : (s.carrier (spaceFn (bits d.raw 401 400))).isNone = false := Option.isNone_eq_false_iff.mpr hport
  simp only [copyDesc, hremote, hhost, hcarried, Bool.false_eq_true, if_false]

/-- A FENCE of scope 11 takes the worst failed remote write since the last one; any other completes OK. -/
theorem fenceDesc_eq (h : Half) (q : Nat) (d : Desc) (s : State) :
    fenceDesc h q d s =
      if bits d.raw 129 128 = 3 then
        (s.setQueue h q { s.queue h q with bad11 := [] }).updDesc h q d.slot
          (·.finish (worst11 (s.queue h q).bad11).1 (worst11 (s.queue h q).bad11).2 0)
      else s.updDesc h q d.slot (·.finish 0 0 0) := by
  by_cases hscope : bits d.raw 129 128 = 3 <;> simp [fenceDesc, hscope]

end

/-- Settles O22: dispatch by the lemmas above, then what the type does. -/
theorem descriptorDispatch : Obligations.DescriptorDispatch := by
  unfold Obligations.DescriptorDispatch
  refine ⟨?kernel, ?copy, ?remote, ?host, ?fill, ?fence, ?signal, ?wait, ?event, ?failedCheck, ?failedRead⟩
  case kernel =>
    intro r hr s hd
    exact next_of_effect (dispatch_of_dispatches hd)
  case copy =>
    intro r hr s hd hsrc hdst
    exact next_of_effect ((dispatch_of_dispatches hd).trans (copyDesc_of_deviceSource hsrc hdst))
  case remote =>
    intro r hr s hd hsp
    exact next_of_effect ((dispatch_of_dispatches hd).trans (copyDesc_of_remote hsp))
  case host =>
    intro r hr s hd hsrc hdst hport
    exact next_of_effect ((dispatch_of_dispatches hd).trans (copyDesc_of_hostSource hsrc hdst hport))
  case fill =>
    intro r hr s hd
    exact next_of_effect (dispatch_of_dispatches hd)
  case fence =>
    intro r hr s hd
    exact next_of_effect ((dispatch_of_dispatches hd).trans (fenceDesc_eq ..))
  case signal =>
    intro r hr s hd
    exact next_of_effect (dispatch_of_dispatches hd)
  case wait =>
    intro r hr s hd
    exact next_of_effect (dispatch_of_dispatches hd)
  case event =>
    intro r hr s hd
    exact next_of_effect (dispatch_of_dispatches hd)
  case failedCheck =>
    intro r hr c s d ha hrun hdrain htake hheld hinj hthere hread hty hcan hgo hcheck
    exact next_of_effect (dispatch_of_failedCheck rfl ha hrun hdrain htake hheld hinj hthere hgo hread hty (by decide) hcan hcheck)
  case failedRead =>
    intro r hr s d ha hrun hdrain htake hheld hinj hthere hread hgo
    exact next_of_effect (dispatch_of_failedRead rfl ha hrun hdrain htake hheld hinj hthere hgo hread)

end Sys2Proof.Proofs

/-! SUPPORT and statement: kernels from reservation to their last part, timeouts, completion (03 R87, R91, R92, R94, R98 to R100). -/

namespace Sys2Proof.Proofs

open Sys2Proof.Machine

/-! ## A KERNEL that waits for its cells (03 R87, R91) -/

section
variable {r : QRef} {slot : BitVec 16} {s : State} (ha : s.answers (.seq r.half) = true)
include ha

theorem kernelReserve_of_waiting (hwait : (s.waitingKernel r.half r.q.val slot.toNat).isSome = true)
    (hnew : (s.rsv r.half).contains (r.q.val, slot.toNat) = false) :
    kernelReserve r slot s = s.setRsv r.half (s.rsv r.half ++ [(r.q.val, slot.toNat)]) := by
  simp only [kernelReserve, ha, hwait, hnew, Bool.not_false, Bool.and_self, if_true]

section
variable {d : Desc} (hdrain : s.draining = false) (hwait : s.waitingKernel r.half r.q.val slot.toNat = some d)
include hdrain hwait

/-- A KERNEL whose cells are all there, free and unreserved by an earlier one starts all its parts. -/
theorem kernelStart_of_allFree (hthere : s.setAbsent r.half d.raw = false)
    (hfree : (s.kernelCells r.half d.raw).all
      (fun c => s.cellFree r.half c && !(s.heldCells r.half r.q.val slot.toNat).contains c) = true) :
    kernelStart r slot s =
      (let cs := s.kernelCells r.half d.raw
       let t := (s.setRsv r.half ((s.rsv r.half).filter (· ≠ (r.q.val, slot.toNat)))).updDesc r.half r.q.val d.slot
         (fun e => { e with started := true, cells := cs })
       let t := foldOver ((List.range 4).filter (fun k => cs.any (fun c => c / 72 = k)))
         (fun k (t : State) => (t.rampDuty r.half k).wakeDom r.half k) t
       foldOver ((List.range cs.length).zip cs) (fun (e : Nat × Nat) (t : State) =>
         t.startPart r.half r.q.val ((s.partOfQ r.half r.q.val).getD 0) d cs.length e.1 e.2) t) := by
  simp only [kernelStart, ha, hdrain, hwait, hthere, hfree, Bool.not_false, Bool.and_self, Bool.false_eq_true, if_false, if_true]

/-- A KERNEL with an ID that has become absent fails with 0x87. -/
theorem kernelStart_of_absent (hgone : s.setAbsent r.half d.raw = true) :
    kernelStart r slot s =
      (s.setRsv r.half ((s.rsv r.half).filter (· ≠ (r.q.val, slot.toNat)))).updDesc r.half r.q.val d.slot
        (fun e => e.finish 0xC 0x87 0) := by
  simp only [kernelStart, ha, hdrain, hwait, hgone, Bool.not_false, Bool.and_self, if_true]

end

/-! ## The completion of a descriptor (03 R98, Table 3.10) -/

/-- A descriptor with its status is written out, a stream once no controller holds its accesses (04 R123). -/
theorem descriptorComplete_of_done {d : Desc} (hd : s.desc r.half r.q.val slot.toNat = some d) (hdone : d.done = true)
    (hfree : (d.stream && d.status = 0 && s.holds (descSpans d.raw)) = false) :
    descriptorComplete r slot s = s.completeDesc r.half r.q.val d := by
  simp only [descriptorComplete, ha, hd, hdone, hfree, Bool.not_true, Bool.or_self, Bool.false_eq_true, if_false]

end

/-! ## The end of a part (03 R92) -/

/-- A part that has ended leaves its cell, gives its flags to its kernel, and aborts its siblings where it failed. -/
theorem kernelPartComplete_of_ended {h : Half} {c : Fin 288} {k : KCtx} {e : Nat × Nat} {s : State}
    (hctx : (s.cell h c.val).ctx = some k) (hend : (s.cell h c.val).ended = some e) :
    kernelPartComplete h c s =
      (let t := (s.setCell h c.val { s.cell h c.val with ctx := none, ended := none, loops := [] }).cellState h c.val
         (if s.isSet (cellPage h c.val) R.cell.CELL_ID_MAPPED then 2 else if s.cst h c.val = 5 then 5 else 0)
       let t := if (s.cell h c.val).retire then t.queueSwap h c.val else t
       match t.desc h k.q k.slot with
       | none => t
       | some d =>
         let rest := d.cells.filter (· ≠ c.val)
         let u := t.updDesc h k.q k.slot
           (fun d => { d with cells := rest, cflags := d.cflags ||| s.flagsOf h c.val, done := rest.isEmpty })
         if e.1 = 0 then u else foldOver rest (fun c (u : State) => u.endPartWith h c 9) u) := by
  simp only [kernelPartComplete, State.partDone, hctx, hend] <;> rfl

/-! ## Timeouts (03 R94, R100) -/

theorem kernelTimeout_of_running {r : QRef} {slot : BitVec 16} {d : Desc} {s : State}
    (hd : s.desc r.half r.q.val slot.toNat = some d) (hty : d.type = dKERNEL) (hstart : d.started = true) (hdone : d.done = false)
    (hlimit : s.kernelLimit r.half r.q.val d = true) : kernelTimeout r slot s = s.abortDesc r.half r.q.val 5 d := by
  simp [kernelTimeout, hd, hty, hstart, hdone, hlimit]

theorem waitTimeout_of_descriptor {h : Half} {q : Fin 512} {slot : BitVec 16} {d : Desc} {s : State}
    (hd : s.desc h q.val slot.toNat = some d) (hty : d.type = dWAIT) (hdone : d.done = false) :
    waitTimeout (.desc h q slot) s = s.updDesc h q.val slot.toNat (·.finish 5 0 (s.sem (bits d.raw 143 128))) := by
  simp [waitTimeout, hd, hty, hdone]

theorem waitTimeout_of_cell {h : Half} {c : Fin 288} {s : State} (hwait : (s.cell h c.val).wait.isSome = true) :
    waitTimeout (.cell h c) s = s.endPartWith h c.val 5 := if_pos hwait

/-- Settles O23, clause by clause from the lemmas above. -/
theorem descriptorsInFlight : Obligations.DescriptorsInFlight := by
  unfold Obligations.DescriptorsInFlight
  refine ⟨?reserve, ?start, ?absent, ?part, ?kernelLimit, ?waitLimit, ?cellLimit, ?complete⟩
  case reserve =>
    intro r slot s ha hwait hnew
    exact next_of_effect (kernelReserve_of_waiting ha hwait hnew)
  case start =>
    intro r slot d s ha hdrain hwait hthere hfree
    exact next_of_effect (kernelStart_of_allFree ha hdrain hwait hthere hfree)
  case absent =>
    intro r slot d s ha hdrain hwait hgone
    exact next_of_effect (kernelStart_of_absent ha hdrain hwait hgone)
  case part =>
    intro h c k e s hctx hend
    exact next_of_effect (kernelPartComplete_of_ended hctx hend)
  case kernelLimit =>
    intro r slot d s hd hty hstart hdone hlimit
    exact next_of_effect (kernelTimeout_of_running hd hty hstart hdone hlimit)
  case waitLimit =>
    intro h q slot d s hd hty hdone
    exact next_of_effect (waitTimeout_of_descriptor hd hty hdone)
  case cellLimit =>
    intro h c s hwait
    exact next_of_effect (waitTimeout_of_cell hwait)
  case complete =>
    intro r slot d s ha hd hdone hfree
    exact next_of_effect (descriptorComplete_of_done ha hd hdone hfree)

end Sys2Proof.Proofs

/-! SUPPORT and statement: the pieces of a request that the lines of memory cut (04 R113). -/

namespace Sys2Proof.Proofs

open Sys2Proof.Machine

/-! ## One piece and the rest -/

theorem splitLines_of_noBytes (k a : Nat) : splitLines k a 0 = [] := by
  cases k <;> rfl

theorem splitLines_succ {n : Nat} (k a : Nat) (hn : 0 < n) :
    splitLines (k + 1) a n = (a, min n (128 - a % 128)) :: splitLines k (a + min n (128 - a % 128)) (n - min n (128 - a % 128)) :=
  if_neg (Nat.pos_iff_ne_zero.mp hn)

/-- The first piece starts where the request does. -/
theorem splitLines_head {k a n : Nat} (h : 0 < (splitLines k a n).length) : (nth (0, 0) (splitLines k a n) 0).1 = a := by
  cases k with
  | zero => exact absurd h (Nat.lt_irrefl 0)
  | succ k =>
    rcases Nat.eq_zero_or_pos n with rfl | hn
    · exact absurd h (Nat.lt_irrefl 0)
    · rw [splitLines_succ k a hn]
      rfl

/-! ## All pieces -/

/-- As many pieces as the request meets lines cover it: each but the last ends its line, which uses up one of the k. -/
theorem splitLines_sum (k a n : Nat) (hk : 0 < n → a % 128 + n ≤ 128 * k) :
    ((splitLines k a n).map (fun e => e.2)).sum = n := by
  induction k generalizing a n with
  | zero =>
    have hn : n = 0 := by omega
    rw [hn]
    rfl
  | succ k ih =>
    rcases Nat.eq_zero_or_pos n with rfl | hn
    · rfl
    · rw [splitLines_succ k a hn, List.map_cons, List.sum_cons, ih _ _ (by omega)]
      omega

/-- A piece holds a byte, lies within one line and within the request, and starts the request or a line. -/
theorem splitLines_piece (k a n : Nat) : ∀ e ∈ splitLines k a n,
    0 < e.2 ∧ e.1 % 128 + e.2 ≤ 128 ∧ a ≤ e.1 ∧ e.1 + e.2 ≤ a + n ∧ (e.1 = a ∨ e.1 % 128 = 0) := by
  induction k generalizing a n with
  | zero => exact fun e he => absurd he List.not_mem_nil
  | succ k ih =>
    intro e he
    rcases Nat.eq_zero_or_pos n with rfl | hn
    · exact absurd he List.not_mem_nil
    · rw [splitLines_succ k a hn] at he
      rcases List.mem_cons.mp he with rfl | hrest
      · exact ⟨by omega, by omega, Nat.le_refl _, by omega, .inl rfl⟩
      · obtain ⟨hpos, hline, hlow, hhigh, hstart⟩ := ih _ _ e hrest
        exact ⟨hpos, hline, by omega, by omega, by omega⟩

/-- A piece starts where the one before it ends. -/
theorem splitLines_consecutive (k a n i : Nat) (hi : i + 1 < (splitLines k a n).length) :
    (nth (0, 0) (splitLines k a n) (i + 1)).1 = (nth (0, 0) (splitLines k a n) i).1 + (nth (0, 0) (splitLines k a n) i).2 := by
  induction k generalizing a n i with
  | zero => exact absurd hi (Nat.not_lt_zero _)
  | succ k ih =>
    rcases Nat.eq_zero_or_pos n with rfl | hn
    · exact absurd hi (Nat.not_lt_zero _)
    · rw [splitLines_succ k a hn] at hi ⊢
      have hrest := Nat.lt_of_succ_lt_succ hi
      cases i with
      | zero => exact splitLines_head hrest
      | succ i => exact ih _ _ i hrest

/-- The bound of `linesOf` on the pieces is enough wherever the request starts. -/
theorem linesOf_enough (a n : Nat) : a % 128 + n ≤ 128 * (n / 128 + 2) := by omega

theorem linesOf_length_pos {n : Nat} (a : Nat) (hn : 0 < n) : 0 < (linesOf a n).length := by
  rw [linesOf, splitLines_succ _ a hn]
  exact Nat.succ_pos _

/-- Settles O58, by induction on the number of pieces. -/
theorem lineSplitting : Obligations.LineSplitting :=
  ⟨fun a n => splitLines_sum _ a n fun _ => linesOf_enough a n, fun a n => splitLines_piece _ a n, fun a n => splitLines_consecutive _ a n,
    fun a _ hn => splitLines_head (linesOf_length_pos a hn)⟩

end Sys2Proof.Proofs

/-! SUPPORT and statement: one access of a line (04 R111, R113, R119, R122, R123, R137, R138). -/

namespace Sys2Proof.Proofs

open Sys2Proof.Machine

theorem exec_memoryAccess {r : LineReq} {s : State} (hwf : r.wf = true) :
    exec (.memoryAccess r) s = .next ((memoryAccess r s).onQueue s) :=
  if_neg (by rw [Instr.wf, hwf, Bool.not_true]; exact Bool.false_ne_true)

theorem exec_memoryAccess_illFormed {r : LineReq} {s : State} (hwf : r.wf = false) :
    exec (.memoryAccess r) s = .refused .illFormed :=
  if_pos (by rw [Instr.wf, hwf, Bool.not_false])

/-- An access of a partition outside its windows is denied (R119). -/
theorem memoryAccess_of_outside {r : LineReq} {p : Fin 8} {s : State} (hp : r.part = some p)
    (hwin : s.inWindow r.half p.val r.addr.toNat r.len = false) :
    memoryAccess r s =
      (s.winDeny r.half p.val r.addr.toNat (if r.src = .cell then 9 else 0x86)).emit (.access r.half r.src 3 []) := by
  simp only [memoryAccess, hp, hwin, Bool.not_false, if_true]
  cases r.src <;> rfl

/-- An access that no window check denies waits where its controller holds it, and is served elsewhere. -/
theorem memoryAccess_of_allowed {r : LineReq} {s : State}
    (hwin : ∀ p, r.part = some p → s.inWindow r.half p.val r.addr.toNat r.len = true) :
    memoryAccess r s = if s.isHeld r.addr.toNat then s.hold (.line r) else s.serveReq r := by
  cases hp : r.part with
  | none => simp only [memoryAccess, hp, Bool.false_eq_true, if_false]
  | some p => simp only [memoryAccess, hp, hwin p hp, Bool.not_true, Bool.false_eq_true, if_false]

theorem memoryAccess_of_served {r : LineReq} {s : State}
    (hwin : ∀ p, r.part = some p → s.inWindow r.half p.val r.addr.toNat r.len = true) (hfree : s.isHeld r.addr.toNat = false) :
    memoryAccess r s = s.serveReq r := by
  rw [memoryAccess_of_allowed hwin, hfree, if_neg Bool.false_ne_true]

/-- No window check covers an access without a partition (R111). -/
theorem inWindow_of_noPart {r : LineReq} {s : State} (hp : r.part = none) :
    ∀ p, r.part = some p → s.inWindow r.half p.val r.addr.toNat r.len = true :=
  fun _ h => absurd (hp.symm.trans h) (Option.some_ne_none _).symm

/-- Settles O24: denied, served with and without a partition, held, and refused. -/
theorem memoryAccesses : Obligations.MemoryAccesses := by
  unfold Obligations.MemoryAccesses
  refine ⟨?denied, ?servedInWindow, ?servedUnchecked, ?held, ?illFormed⟩
  case denied =>
    intro r p s hwf hp hwin
    exact (exec_memoryAccess hwf).trans (next_of_effect (memoryAccess_of_outside hp hwin))
  case servedInWindow =>
    intro r p s hwf hp hwin hfree
    have hall : ∀ q, r.part = some q → s.inWindow r.half q.val r.addr.toNat r.len = true :=
      fun q hq => Option.some.inj (hp.symm.trans hq) ▸ hwin
    exact (exec_memoryAccess hwf).trans (next_of_effect (memoryAccess_of_served hall hfree))
  case servedUnchecked =>
    intro r s hwf hp hfree
    exact (exec_memoryAccess hwf).trans (next_of_effect (memoryAccess_of_served (inWindow_of_noPart hp) hfree))
  case held =>
    intro r s hwf hp hheld
    exact (exec_memoryAccess hwf).trans (next_of_effect ((memoryAccess_of_allowed (inWindow_of_noPart hp)).trans (if_pos hheld)))
  case illFormed =>
    intro r s hwf
    exact exec_memoryAccess_illFormed hwf

end Sys2Proof.Proofs

/-! SUPPORT and statement: interleave modes, training, scrub, repair and retirement of HBM and DDR5 (04 R122 to R124, R131, R132, R135 to
R137, R139; 12 R377). -/

namespace Sys2Proof.Proofs

open Sys2Proof.Machine

theorem ilvWrite_of_answers {m : Master} {h : Half} {i : Fin 5} {value : Word} {s : State} (ha : s.answers (.comb h) = true) :
    ilvWrite m h i value s =
      foldOver (List.range (if i.val < 4 then 16 else 8))
        (fun k s => s.ilvRow h (16 * i.val + k) (bits value.toNat (2 * k + 1) (2 * k))) s := if_pos ha

/-! ## HBM training (04 R122 to R124) -/

section
variable {h : Half} {i : Fin 12} {e : GroupEyes} {x : TrainSt} {s : State}
  (htrain : s.mem.train.find? (fun y => y.1 = 12 * halfNo h + i.val) = some (12 * halfNo h + i.val, x))
  (hst : s.getF (.hbmc h i) R.hbmc.BLK_STS_STATE = 2)
include htrain hst

/-- A group before the last moves the training on to the next. -/
theorem hbmGroupTrained_of_earlierGroup (hgroup : x.group < 3) :
    hbmGroupTrained h i e s =
      (let eye := if e.first ≥ 64 then e.first else e.retry
       let t : TrainSt := { group := x.group + 1, failed := x.failed || decide (eye < 64), slowOk := x.slowOk && decide (e.slow ≥ 90),
                            eye := min x.eye eye }
       ({ s with mem := { s.mem with train := mput s.mem.train (12 * halfNo h + i.val) t } } : State).releaseHeld) := by
  have hnext : x.group + 1 < 4 := Nat.succ_lt_succ hgroup
  simp only [hbmGroupTrained, htrain, hst, hnext, ne_eq, not_true, if_false, if_true]

/-- The last group decides the stack: FULL, DEGRADED or FAILED. -/
theorem hbmGroupTrained_of_lastGroup (hgroup : 3 ≤ x.group) :
    hbmGroupTrained h i e s =
      (let p : Page := .hbmc h i
       let eye := if e.first ≥ 64 then e.first else e.retry
       let failed := x.failed || decide (eye < 64)
       let u := { s with mem := { s.mem with train := merase s.mem.train (12 * halfNo h + i.val) } }
       let u := (u.setFs p [(R.hbmc.TRAIN_Q_EYE_MIN, min x.eye eye), (R.hbmc.TRAIN_Q_TRAIN_MS, u.freeAhead 0)]).drawn 1
       let info := bytesOf 8 0 ++ bytesOf 1 i.val
       let u := if !failed then u.setFs p [(R.hbmc.BLK_STS_STATE, 3), (R.hbmc.HBM_CFG_RATE, 96)]
         else if x.slowOk && decide (e.slow ≥ 90) then
           (u.setFs p [(R.hbmc.BLK_STS_STATE, 4), (R.hbmc.HBM_CFG_RATE, 64)]).err p 11 { cost := 2, info := info }
         else (u.err p 11 { cost := 5, info := info }).failStack h i.val
       u.releaseHeld.nextTrain h (i.val / 3)) := by
  have hlast : ¬ x.group + 1 < 4 := Nat.not_lt.mpr (Nat.succ_le_succ hgroup)
  simp only [hbmGroupTrained, htrain, hst, hlast, ne_eq, not_true, if_false]

end

section
variable {m : Master} {h : Half} {i : Fin 12} {s : State} (ha : s.answers (.hbmc h i) = true)
include ha

theorem hbmRetrain_of_degraded (hst : s.getF (.hbmc h i) R.hbmc.BLK_STS_STATE = 4) :
    hbmRetrain m h i s = s.hbmTrainStart h i.val := by
  rw [hbmRetrain, if_pos ha, if_pos hst]

theorem hbmRetrain_of_notDegraded (hst : s.getF (.hbmc h i) R.hbmc.BLK_STS_STATE ≠ 4) :
    hbmRetrain m h i s = s.stateErr (.hbmc h i) := by
  rw [hbmRetrain, if_pos ha, if_neg hst]

end

/-! ## Patrol scrub (04 R135) -/

/-- The scrub of one sector of HBM or DDR5: the position and the count of passes follow the address, then the upset is handled. -/
def scrubSector (p : Page) (position passes : Fld) (pos a : Nat) (u : Upset) (s : State) : State :=
  let t := (if pos < s.getF p position then s.addWrap p passes 1 else s).setF p position pos
  match u with
  | .none | .tag => t
  | .corrected => t.corrected a false
  | .uncorrectable => t.uncorrectable a false

section
variable {h : Half} {addr : BitVec 52} {u : Upset} {s : State}

theorem patrolScrub_hbm_of_placed {i : Fin 12} (ha : s.answers (.hbmc h i) = true) (hpage : s.placePage addr.toNat = .hbmc h i) :
    patrolScrub (.hbm h i) addr u s =
      scrubSector (.hbmc h i) R.hbmc.SCRUB_POS R.hbmc.SCRUB_PASSES
        (match s.place addr.toNat with | .hbm hh off => (s.hbmDecode hh off).2 / 2 ^ 22 | _ => 0) addr.toNat u s :=
  if_pos (by rw [ha, hpage, decide_eq_true rfl]; rfl)

theorem patrolScrub_ddr_of_placed {c : Fin 8} (ha : s.answers (.ddrc h c) = true) (hpage : s.placePage addr.toNat = .ddrc h c) :
    patrolScrub (.ddr h c) addr u s =
      scrubSector (.ddrc h c) R.ddrc.SCRUB_POS R.ddrc.SCRUB_PASSES (s.tierLocal h (addr.toNat - tierBase h) / 2 ^ 23) addr.toNat u s :=
  if_pos (by rw [ha, hpage, decide_eq_true rfl]; rfl)

variable (ha : s.answers (.comb h) = true)
include ha

/-- The scrub of a cached line reports what it finds, and drops the line where the error is uncorrectable. -/
theorem patrolScrub_comb_of_cached (hplace : ∀ hh off, s.place addr.toNat ≠ .scratch hh off)
    (hline : cached (s.cache h) (addr.toNat / 128) = true) :
    patrolScrub (.comb h) addr u s =
      match u with
      | .none => s
      | .tag => s.err (.comb h) 11 { info := s.memInfo addr.toNat }
      | .corrected => s.err (.comb h) 8 { info := s.memInfo addr.toNat }
      | .uncorrectable =>
        if (mget clNone (s.cache h) (addr.toNat / 128)).dirty then
          (((s.poisonLine (addr.toNat / 128)).evict h (addr.toNat / 128)).dirSts).err (.comb h) 10
            { cost := 4, info := s.memInfo addr.toNat }
        else ((s.evict h (addr.toNat / 128)).dirSts).err (.comb h) 9 { info := s.memInfo addr.toNat } := by
  refine (if_pos ha).trans ?_
  split
  case h_1 => rfl
  case h_2 => rfl
  case h_3 hscratch _ _ => exact absurd hscratch (hplace _ _)
  case h_4 => rfl
  case h_5 => exact if_pos hline

/-- The scrub of the scratch handles an upset as a memory's own scrub does. -/
theorem patrolScrub_comb_of_scratch {off : Nat} (hplace : s.place addr.toNat = .scratch h off) (htag : u ≠ .tag) (hnone : u ≠ .none) :
    patrolScrub (.comb h) addr u s = if u = .corrected then s.corrected addr.toNat false else s.uncorrectable addr.toNat false := by
  refine (if_pos ha).trans ?_
  rw [hplace]
  cases u with
  | none => exact absurd rfl hnone
  | tag => exact absurd rfl htag
  | corrected | uncorrectable => exact if_neg (not_not_intro rfl)

end

/-! ## Repair and retirement (04 R137) -/

section
variable {h : Half} {addr : BitVec 52} {s : State} (hpoison : s.mem.poison.contains (addr.toNat / 64) = true)
include hpoison

/-- Hard PPR of a stack uses a resource, where one is left. -/
theorem hardPpr_hbm_of_poisoned {i : Fin 12} (ha : s.answers (.hbmc h i) = true) (hpage : s.placePage addr.toNat = .hbmc h i) :
    hardPpr h (.hbm i) addr s =
      (let x := s.pprOf h i.val
       let key := 12 * halfNo h + i.val
       let t := { s with ppr := mput s.ppr key (min 255 (x.1 + 1), x.2 + (if Config.pprLast key x.1 then 1 else 0)) }
       if s.pprLeft h i.val ≠ 0 then t.err (.hbmc h i) 10 { info := t.memInfo addr.toNat } else s) := by
  simp only [hardPpr, ha, hpage, hpoison, decide_true, Bool.true_and, decide_eq_true_eq]

/-- The spec counts no resource of a DIMM. -/
theorem hardPpr_ddr_of_poisoned {c : Fin 8} (ha : s.answers (.ddrc h c) = true) (hpage : s.placePage addr.toNat = .ddrc h c) :
    hardPpr h (.ddr c) addr s = s.err (.ddrc h c) 10 { info := s.memInfo addr.toNat } :=
  if_pos (by rw [ha, hpage, hpoison, decide_eq_true rfl]; rfl)

end

/-- A slice retires once, with class JOB, and the ninth of a stack fails the stack. -/
theorem sliceRetire_of_inUse {h : Half} {i : Fin 12} {slice : Fin 72} {why : RetireCause} {s : State} (ha : s.answers (.hbmc h i) = true)
    (hst : s.getF (.hbmc h i) R.hbmc.BLK_STS_STATE ≠ 5) (hnew : s.retired h i.val slice.val = false) :
    sliceRetire h i slice why s =
      (let sp := s.sliceSpan h i.val slice.val
       let t := (s.retireSlice h i.val slice.val).err (.hbmc h i) 13
         { cost := 5, parts := s.partsIn h sp.1 sp.2, info := bytesOf 8 sp.1 ++ bytesOf 1 i.val ++ bytesOf 1 slice.val }
       if t.retiredCount h i.val > 8 then (t.failStack h i.val).releaseHeld else t) :=
  if_pos (by rw [ha, hnew, decide_eq_true hst]; rfl)

/-- A failed DIMM retires its channel, and the tier's lines leave the caches. -/
theorem dimmFail_of_up {h : Half} {c : Fin 8} {s : State} (ha : s.answers (.ddrc h c) = true)
    (hst : s.getF (.ddrc h c) R.ddrc.BLK_STS_STATE = 2) :
    dimmFail h c s =
      (let t := s.setF (.ddrc h c) R.ddrc.BLK_STS_STATE 3
       (((t.dropLines (tierBase h) (tierBase h + t.tierCap h)).dirSts).journal 4 (bytesOf 1 (halfNo h) ++ bytesOf 1 c.val)).fwRecord
         (.ddrc h c) false
         { cost := 5, parts := s.partsIn h (tierBase h) (tierBase h + s.tierCap h), info := bytesOf 8 0 ++ bytesOf 1 c.val }) :=
  if_pos (by rw [ha, decide_eq_true hst]; rfl)

/-! ## DDR5 training, the tier, CA alerts (04 R131, R132, R139; 12 R377) -/

section
variable {h : Half} {c : Fin 8} {s : State} (ha : s.answers (.ddrc h c) = true)
include ha

theorem ddrTrainDone_of_training {pass : Bool} {eye t100 : BitVec 8} (hst : s.getF (.ddrc h c) R.ddrc.BLK_STS_STATE = 1) :
    ddrTrainDone h c pass eye t100 s =
      (let t := s.setFs (.ddrc h c) [(R.ddrc.TRAIN_Q_EYE_MIN, eye.toNat), (R.ddrc.TRAIN_Q_TRAIN_100MS, t100.toNat)]
       if pass then t.setF (.ddrc h c) R.ddrc.BLK_STS_STATE 2
       else (t.setF (.ddrc h c) R.ddrc.BLK_STS_STATE 3).err (.ddrc h c) 11 { cost := 5, info := bytesOf 8 0 ++ bytesOf 1 c.val }) :=
  if_pos (by rw [ha, decide_eq_true hst]; rfl)

theorem spdWaitTimeout_of_undescribed (hst : s.getF (.ddrc h c) R.ddrc.BLK_STS_STATE = 0)
    (hdimm : mhas s.mem.dimms (chanKey h c.val) = false) (hwait : s.spdOut.contains (chanKey h c.val) = false) :
    spdWaitTimeout h c s = ({ s with spdOut := sadd s.spdOut (chanKey h c.val) }).err (.ddrc h c) 12 :=
  if_pos (by rw [ha, decide_eq_true hst, hdimm, hwait]; rfl)

/-- A CA alert whose retries fail completes the access MEM_UNCORR. -/
theorem ddrCaAlert_of_failed {addr : BitVec 52} {retriesFail : Bool} (hfail : retriesFail = true) :
    ddrCaAlert h c addr retriesFail s =
      (s.err (.ddrc h c) 13 { cost := 4, status := 7, info := bytesOf 8 (addr.toNat / 128 * 128) ++ bytesOf 1 c.val }).emit
        (.access h .device 7 []) :=
  if_pos (by rw [ha, hfail]; rfl)

end

theorem ddrCaAlert_of_retried {h : Half} {c : Fin 8} {addr : BitVec 52} {retriesFail : Bool} {s : State} (hok : retriesFail = false) :
    ddrCaAlert h c addr retriesFail s = s :=
  if_neg (by rw [hok, Bool.and_false]; exact Bool.false_ne_true)

/-- The tier is mapped once each channel is UP, FAILED or EMPTY for good. -/
theorem tierMap_of_decided {h : Half} {s : State} (ha : s.answers (.comb h) = true) (hnew : s.tierChans h = [])
    (hall : (List.range 8).all (fun c => s.getF (ddrPage h c) R.ddrc.BLK_STS_STATE = 2 || s.getF (ddrPage h c) R.ddrc.BLK_STS_STATE = 3 ||
      (s.getF (ddrPage h c) R.ddrc.BLK_STS_STATE = 0 && s.spdOut.contains (chanKey h c))) = true) :
    tierMap h s =
      (let ilv := match s.cfg.ddrIlv with
         | some e => if h = .A then e.1 else e.2
         | none => true
       s.mapTier h ilv (s.cfg.parts.getD [])) :=
  if_pos (by rw [ha, hnew, hall]; rfl)

/-- Settles O25, clause by clause from the lemmas above. -/
theorem memoryControllers : Obligations.MemoryControllers := by
  unfold Obligations.MemoryControllers
  refine ⟨?ilv, ?earlierGroup, ?lastGroup, ?retrain, ?noRetrain, ?scrubHbm, ?scrubDdr, ?scrubCache, ?scrubScratch, ?pprHbm, ?pprDdr, ?slice,
    ?dimm, ?ddrTrained, ?noSpd, ?tier, ?alertFails, ?alertRetried⟩
  case ilv =>
    intro m h i value s hm ha
    exact next_of_reaches hm (ilvWrite_of_answers ha)
  case earlierGroup =>
    intro h i e x s htrain hst hgroup
    exact next_of_effect (hbmGroupTrained_of_earlierGroup htrain hst hgroup)
  case lastGroup =>
    intro h i e x s htrain hst hgroup
    exact next_of_effect (hbmGroupTrained_of_lastGroup htrain hst hgroup)
  case retrain =>
    intro m h i s hm ha hst
    exact next_of_reaches hm (hbmRetrain_of_degraded ha hst)
  case noRetrain =>
    intro m h i s hm ha hst
    exact next_of_reaches hm (hbmRetrain_of_notDegraded ha hst)
  case scrubHbm =>
    intro h i addr u s ha hpage
    exact next_of_effect (patrolScrub_hbm_of_placed ha hpage)
  case scrubDdr =>
    intro h c addr u s ha hpage
    exact next_of_effect (patrolScrub_ddr_of_placed ha hpage)
  case scrubCache =>
    intro h addr u s ha hplace hline
    have hmem : ∀ hh off, s.place addr.toNat ≠ .scratch hh off :=
      fun hh off hscratch => Bool.false_ne_true (by rwa [hscratch] at hplace)
    exact next_of_effect (patrolScrub_comb_of_cached ha hmem hline)
  case scrubScratch =>
    intro h addr u off s ha hplace htag hnone
    exact next_of_effect (patrolScrub_comb_of_scratch ha hplace htag hnone)
  case pprHbm =>
    intro h i addr s ha hpage hpoison
    exact next_of_effect (hardPpr_hbm_of_poisoned hpoison ha hpage)
  case pprDdr =>
    intro h c addr s ha hpage hpoison
    exact next_of_effect (hardPpr_ddr_of_poisoned hpoison ha hpage)
  case slice =>
    intro h i slice why s ha hst hnew
    exact next_of_effect (sliceRetire_of_inUse ha hst hnew)
  case dimm =>
    intro h c s ha hst
    exact next_of_effect (dimmFail_of_up ha hst)
  case ddrTrained =>
    intro h c pass eye t100 s ha hst
    exact next_of_effect (ddrTrainDone_of_training ha hst)
  case noSpd =>
    intro h c s ha hst hdimm hwait
    exact next_of_effect (spdWaitTimeout_of_undescribed ha hst hdimm hwait)
  case tier =>
    intro h s ha hnew hall
    exact next_of_effect (tierMap_of_decided ha hnew hall)
  case alertFails =>
    intro h c addr retriesFail s ha hfail
    exact next_of_effect (ddrCaAlert_of_failed ha hfail)
  case alertRetried =>
    intro h c addr retriesFail s hok
    exact next_of_effect (ddrCaAlert_of_retried hok)

end Sys2Proof.Proofs

/-! SUPPORT and statement: the epoch, mesh packets and the bound on mesh requests (05 R146, R147, R149, R150). -/

namespace Sys2Proof.Proofs

open Sys2Proof.Machine

theorem epochAdvance_of_up {h : Half} {s : State} (hup : s.halfUp h = true) :
    epochAdvance h s = foldOver (allFin 4) (fun q s => s.addWrap (.noc h q) R.noc.NOC_CFG_EPOCH 1) s := if_pos hup

/-! ## Packets (05 R146, R149) -/

/-- The arbiters on a packet's way, and whether it got through them all. -/
def arbitrated (p : MeshPkt) (s : State) : State × Bool :=
  s.arbiters p.half (s.pktAge p) ((pktSites p).zip (p.arbs ++ List.replicate (pktSites p).length arbNone))

/-- The address that an event of a packet records. -/
def pktInfo (p : MeshPkt) (s : State) : List Byte :=
  match p.load with
  | .writeData a => s.memInfo a.toNat
  | _ => bytesOf 8 0

/-- What a packet's error does at its destination. -/
def pktError (p : MeshPkt) (info : List Byte) (s : State) : State :=
  let d := nocPage p.half p.dstQ.val
  match p.err with
  | .headerBad => s.err d 10 { cost := 4, info := info }
  | .corrected => s.err d 9 { info := info }
  | .dataBad =>
    match p.load with
    | .writeData a => s.poisonLine (a.toNat / 128)
    | .readData c => s.readLost p.half c
    | .none => s
  | .none => s

section
variable {p : MeshPkt} {s : State} (hup : s.halfUp p.half = true)
include hup

theorem meshPacket_of_noEndpoint (hdst : isEndpoint p.half p.dstQ.val p.dstR.val p.dstP = false) :
    meshPacket p s = s.err (nocPage p.half p.srcQ.val) 8 { info := pktInfo p s } := by
  simp only [meshPacket, hup, hdst, Bool.not_true, Bool.not_false, if_neg Bool.false_ne_true, if_true]
  rfl

section
variable (hdst : isEndpoint p.half p.dstQ.val p.dstR.val p.dstP = true)
include hdst

/-- A packet that finds no free buffer waits, and only the arbiters before it have acted. -/
theorem meshPacket_of_waiting (hwait : (arbitrated p s).2 = false) : meshPacket p s = (arbitrated p s).1 := by
  unfold arbitrated at hwait
  simp only [meshPacket, hup, hdst, hwait, Bool.not_true, Bool.not_false, if_neg Bool.false_ne_true, if_true]
  rfl

/-- A packet that arrives, with no injection armed there, does what its error says. -/
theorem meshPacket_of_arrived (hthrough : (arbitrated p s).2 = true)
    (hce : (arbitrated p s).1.armed (nocPage p.half p.dstQ.val) 9 = false)
    (hue : (arbitrated p s).1.armed (nocPage p.half p.dstQ.val) 10 = false) :
    meshPacket p s = pktError p (pktInfo p s) (arbitrated p s).1 := by
  unfold arbitrated at hthrough hce hue
  simp only [meshPacket, hup, hdst, hthrough, hce, hue, Bool.not_true, if_neg Bool.false_ne_true]
  rfl

end
end

/-! ## The bound on requests (05 R149) -/

section
variable {h : Half} {q : Fin 4} {addr : BitVec 52} {s : State} (hup : s.halfUp h = true)
include hup

theorem meshRequestTimeout_write {cell : Option (Fin 288)} :
    meshRequestTimeout h q true addr cell s =
      (s.fwRecord (.noc h q) false { cost := 4, info := s.memInfo addr.toNat }).emit (.access h .device 0 []) := by
  simp only [meshRequestTimeout, hup, Bool.not_true, if_neg Bool.false_ne_true, if_true]

theorem meshRequestTimeout_read {cell : Option (Fin 288)} : meshRequestTimeout h q false addr cell s = s.readLost h cell := by
  simp only [meshRequestTimeout, hup, Bool.not_true, if_neg Bool.false_ne_true]

end

/-- Data lost on its way to a cell that runs is program error 0x0A. -/
theorem readLost_of_running {h : Half} {c : Fin 288} {s : State} (hrun : (s.cell h c.val).ctx.isSome = true)
    (hopen : (s.cell h c.val).ended = none) :
    s.readLost h (some c) = s.progError h c.val 0xA (s.getF (.cell h c) R.cell.PC) :=
  if_pos (by rw [hrun, hopen]; rfl)

/-- Settles O26: a packet by whether its destination exists and it gets there, a timed-out request by its kind. -/
theorem meshPackets : Obligations.MeshPackets := by
  unfold Obligations.MeshPackets
  refine ⟨?epoch, ?noEndpoint, ?arrived, ?waiting, ?writeBound, ?readBound, ?cellReadBound⟩
  case epoch =>
    intro h s hup
    exact next_of_effect (epochAdvance_of_up hup)
  case noEndpoint =>
    intro p s hup hdst
    exact next_of_effect (meshPacket_of_noEndpoint hup hdst)
  case arrived =>
    intro p s w hup hdst hthrough hce hue
    exact next_of_effect (meshPacket_of_arrived hup hdst hthrough hce hue)
  case waiting =>
    intro p s w hup hdst hwait
    exact next_of_effect (meshPacket_of_waiting hup hdst hwait)
  case writeBound =>
    intro h q addr cell s hup
    exact next_of_effect (meshRequestTimeout_write hup)
  case readBound =>
    intro h q addr s hup
    exact next_of_effect (meshRequestTimeout_read hup)
  case cellReadBound =>
    intro h q addr c s hup hrun hopen
    exact next_of_effect ((meshRequestTimeout_read hup).trans (readLost_of_running hrun hopen))

end Sys2Proof.Proofs

/-! SUPPORT and statement: flits, acknowledgements, lanes, training, breaks and resets of the links between dies (05 R153 to R170, Table
5.12; 01 R33). -/

namespace Sys2Proof.Proofs

open Sys2Proof.Machine

/-! ## A flit that arrives over a bundle (05 R153, R154) -/

/-- A flit as it arrives. -/
def arrivedBytes (f : HingeFlit) : List Byte := f.flips.foldl flipBit f.bytes

/-- What an end of a bundle holds once the acknowledgement of a flit is taken. -/
def flitAcked (h : Half) (b : Fin 16) (f : HingeFlit) (s : State) : State := s.hingeAcked h b (hfAck (arrivedBytes f)) f.nak

section
variable {h : Half} {b : Fin 16} {f : HingeFlit} {s : State} (harm : s.armed (.hinge h b) 10 = false)
include harm

/-- A bad CRC counts and draws a negative acknowledgement, and the first bad copy is kept. -/
theorem hingeArrive_of_bad (hbad : hfGood (arrivedBytes f) = false) :
    s.hingeArrive h b f =
      (let u := s.badFlit (.hinge h b) true false
       let x := u.dl (.hinge h b)
       (u.setDl (.hinge h b) { x with bad := some (x.bad.getD (arrivedBytes f)) }).emit (.hingeAck h b x.exp true)) := by
  unfold arrivedBytes at *
  simp only [State.hingeArrive, dlPage, harm, hbad, Bool.not_false, Bool.or_true, if_true]

/-- Of a flit with another number only the acknowledgement is used. -/
theorem hingeArrive_of_otherNumber (hgood : hfGood (arrivedBytes f) = true)
    (hseq : hfSeq (arrivedBytes f) ≠ ((flitAcked h b f s).dl (.hinge h b)).exp) : s.hingeArrive h b f = flitAcked h b f s := by
  unfold flitAcked arrivedBytes at *
  simp only [State.hingeArrive, dlPage, harm, hgood, Bool.not_true, Bool.or_self, if_neg Bool.false_ne_true, if_pos hseq]

/-- The expected flit advances the number, and every eighth is acknowledged. -/
theorem hingeArrive_of_expected (hgood : hfGood (arrivedBytes f) = true)
    (hseq : hfSeq (arrivedBytes f) = ((flitAcked h b f s).dl (.hinge h b)).exp)
    (hfirst : ((flitAcked h b f s).dl (.hinge h b)).bad = none) :
    s.hingeArrive h b f =
      (let u := flitAcked h b f s
       let x := u.dl (.hinge h b)
       let v := u.setDl (.hinge h b)
         { x with exp := (x.exp + 1) % 65536, bad := none, since := if x.since + 1 ≥ 8 then 0 else x.since + 1 }
       if x.since + 1 ≥ 8 then v.emit (.hingeAck h b ((x.exp + 1) % 65536) false) else v) := by
  unfold flitAcked arrivedBytes at *
  simp only [State.hingeArrive, dlPage, harm, hgood, hseq, hfirst, Bool.not_true, Bool.or_self, if_neg Bool.false_ne_true, ne_eq,
    not_true, if_false]

end

/-! ## HINGE_FLIT (05 R153, R155) -/

/-- The far end has sent a fresh flit, the one flit of its replay buffer. -/
def flitSent (h : Half) (b : Fin 16) (f : HingeFlit) (s : State) : State :=
  let y := s.dl (farEnd h b)
  s.setDl (farEnd h b)
    { y with next := (y.next + 1) % 65536, sent := [{ seq := hfSeq f.bytes, bytes := f.bytes, flow := f.flow }] }

theorem armed_flitSent (h : Half) (b : Fin 16) (f : HingeFlit) (s : State) (p : Page) (n : Nat) :
    (flitSent h b f s).armed p n = s.armed p n := rfl

theorem hingeFlit_of_fresh {h : Half} {b : Fin 16} {f : HingeFlit} {s : State} (ha : s.answers (.hinge h b) = true)
    (hlen : f.bytes.length = 256) (hup : s.bundleUp b = true) (hsent : (s.dl (farEnd h b)).sent = [])
    (hseq : hfSeq f.bytes = (s.dl (farEnd h b)).next) (hpick : s.pickBundle f.flow = some b) :
    hingeFlit h (.bundle b) f s = (flitSent h b f s).hingeArrive h b f := by
  simp [hingeFlit, flitSent, linkOf, dlPage, ha, hlen, hup, hsent, hseq, hpick]

/-- A bundle that is not up takes nothing. -/
theorem hingeFlit_of_bundleDown {h : Half} {b : Fin 16} {f : HingeFlit} {s : State} (hdown : s.bundleUp b = false) :
    hingeFlit h (.bundle b) f s = s := by
  simp only [hingeFlit, hdown, Bool.not_false, if_true, ite_self]

/-- A flit of a module whose bits changed fails its CRC. -/
theorem hingeFlit_module_of_flipped {h : Half} {k : Fin 32} {f : HingeFlit} {s : State} (ha : s.answers (.ucie h k) = true)
    (hlen : f.bytes.length = 256) (hst : s.dlState (.ucie h k) = ucACTIVE) (harm : s.armed (.ucie h k) 10 = false)
    (hflip : f.flips ≠ []) :
    hingeFlit h (.module k) f s =
      (let t := s.addSat (.ucie h k) R.dlink.CRC_CNT_COUNT 1
       t.err (.ucie h k) 10 { info := t.laneInfo (.ucie h k) 0xFF }) := by
  simp [hingeFlit, State.badFlit, linkOf, dlPage, ha, hlen, hst, harm, hflip]

theorem hingeAckTimer_of_unacknowledged {h : Half} {b : Fin 16} {s : State} (ha : s.answers (dlPage (.hinge h b)) = true)
    (hup : s.bundleUp b = true) (hsince : (s.dl (.hinge h b)).since > 0) :
    hingeAckTimer h b s =
      (s.setDl (.hinge h b) { s.dl (.hinge h b) with since := 0 }).emit (.hingeAck h b (s.dl (.hinge h b)).exp false) :=
  if_pos (by rw [ha, hup, decide_eq_true hsince]; rfl)

/-! ## Training of a bundle (05 R156, R158) -/

/-- Both ends of a bundle record that its training failed. -/
def trainFailed (b : Fin 16) (s : State) : State :=
  foldOver [Half.A, Half.B] (fun h s => s.err (.hinge h b) 8 { info := s.laneInfo (.hinge h b) 0xFF }) s

theorem bundleBroken_of_inService {b : Fin 16} {why : BreakCause} {s : State} (hthere : s.bundleThere b = true)
    (hst : [hgTRAINING, hgFULL, hgHALF].contains (s.dlState (.hinge .A b)) = true) :
    bundleBroken b why s =
      (let t := match why with
         | .credit => foldOver [Half.A, Half.B] (fun h (s : State) => s.setF (.hinge h b) R.dlink.CREDIT_PEND_US 1000) s
         | .training => trainFailed b s
         | .lanes => s
       (t.setRetry b (!t.halted)).breakBundle b) := by
  have hin : (s.dlState (.hinge .A b) = hgTRAINING || s.dlState (.hinge .A b) = hgFULL || s.dlState (.hinge .A b) = hgHALF) = true := by
    simpa [or_assoc] using hst
  exact if_neg (by rw [hthere, hin]; exact Bool.false_ne_true)

/-- The lanes that both ends find good. -/
def goodWidth (b : Fin 16) (s : State) : Nat := min (s.goodLanes (.hinge .A b)).length (s.goodLanes (.hinge .B b)).length

theorem trainBundle_of_pass {b : Fin 16} {s : State} (hgood : 32 ≤ goodWidth b s) :
    s.trainBundle b true = (s.bundleTrained b (decide (64 ≤ goodWidth b s)), true) := by
  unfold goodWidth at *
  by_cases hfull : 64 ≤ min (s.goodLanes (.hinge .A b)).length (s.goodLanes (.hinge .B b)).length
  · simp only [State.trainBundle, hfull, decide_true, Bool.and_self, if_true]
  · simp only [State.trainBundle, hfull, hgood, decide_true, decide_false, Bool.and_self, Bool.and_false, if_true,
      if_neg Bool.false_ne_true]

theorem trainBundle_of_fail (b : Fin 16) (s : State) : s.trainBundle b false = (trainFailed b s, false) := rfl

/-- A training starts with the lanes that its ends find bad, and ends the one retry that a break allows. -/
def lanesFound (b : Fin 16) (badA badB : List (Fin 68)) (s : State) : State :=
  (foldOver badB (fun k (u : State) => u.noteLane (.hinge .B b) k.val)
    (foldOver badA (fun k (u : State) => u.noteLane (.hinge .A b) k.val) s)).setRetry b false

section
variable {b : Fin 16} {badA badB : List (Fin 68)} {pass : Bool} {s : State} (hthere : s.bundleThere b = true)
  (hst : s.dlState (.hinge .A b) = hgTRAINING)
include hthere hst

/-- The end of a training: the bundle is up, or it breaks. -/
theorem hingeTrainDone_of_training :
    hingeTrainDone b badA badB pass s =
      (let r := (lanesFound b badA badB s).trainBundle b pass
       if r.2 then r.1 else r.1.breakBundle b) := by
  have hne : hgTRAINING ≠ hgBROKEN := by decide
  simp only [hingeTrainDone, hthere, hst, hne, decide_true, decide_false, Bool.not_true, Bool.or_self, Bool.false_and,
    Bool.or_false, if_neg Bool.false_ne_true]
  rfl

theorem hingeTrainDone_of_pass (hgood : 32 ≤ goodWidth b (lanesFound b badA badB s)) (hpass : pass = true) :
    hingeTrainDone b badA badB pass s =
      (lanesFound b badA badB s).bundleTrained b (decide (64 ≤ goodWidth b (lanesFound b badA badB s))) := by
  rw [hingeTrainDone_of_training hthere hst, hpass, trainBundle_of_pass hgood]
  exact if_pos rfl

theorem hingeTrainDone_of_fail (hfail : pass = false) :
    hingeTrainDone b badA badB pass s = (trainFailed b (lanesFound b badA badB s)).breakBundle b := by
  rw [hingeTrainDone_of_training hthere hst, hfail, trainBundle_of_fail]
  exact if_neg Bool.false_ne_true

end

/-! ## Lanes (05 R159, R160) -/

/-- A lane fails once. -/
theorem laneFail_hinge_of_good {h : Half} {b : Fin 16} {lane : Fin 68} {s : State} (ha : s.answers (.hinge h b) = true)
    (hgood : (s.dl (.hinge h b)).failed.contains lane.val = false) :
    laneFail (.hinge h b) lane s = s.hingeLane h b lane.val :=
  if_neg (by rw [dlPage, ha, hgood]; exact Bool.false_ne_true)

theorem laneFail_ucie_of_good {h : Half} {k : Fin 32} {lane : Fin 68} {s : State} (ha : s.answers (.ucie h k) = true)
    (hgood : (s.dl (.ucie h k)).failed.contains lane.val = false) :
    laneFail (.ucie h k) lane s = s.moduleLane h k lane.val :=
  if_neg (by rw [dlPage, ha, hgood]; exact Bool.false_ne_true)

section
variable {h : Half} {b : Fin 16} {lane : Nat} {s : State} (hgood : (s.dl (.hinge h b)).failed.contains lane = false)
include hgood

/-- In service a spare replaces the lane, or the bundle retrains. -/
theorem hingeLane_of_up (hst : s.dlState (.hinge h b) ≠ hgTRAINING) (hup : s.bundleUp b = true) :
    s.hingeLane h b lane =
      if (s.spareLane (.hinge h b) lane).2 then (s.spareLane (.hinge h b) lane).1
      else (s.spareLane (.hinge h b) lane).1.retrainBundle b := by
  simp only [State.hingeLane, hgood, hst, hup, Bool.not_true, if_neg Bool.false_ne_true, if_false]

/-- While the bundle trains, the lane is noted. -/
theorem hingeLane_of_training (hst : s.dlState (.hinge h b) = hgTRAINING) : s.hingeLane h b lane = s.noteLane (.hinge h b) lane := by
  rw [State.hingeLane, hgood, if_neg Bool.false_ne_true, if_pos hst]

end

/-! ## RETRAIN_FULL (05 R169) -/

section
variable {m : Master} {h : Half} {s : State}

theorem retrainFull_hinge_of_answers {b : Fin 16} (ha : s.answers (.hinge h b) = true) :
    retrainFull m (.hinge h b) s = if s.bundleUp b then s.retrainBundle b else s.stateErr (.hinge h b) :=
  if_neg (by rw [dlPage, ha]; exact Bool.false_ne_true)

theorem retrainFull_ucie_of_active {k : Fin 32} (ha : s.answers (.ucie h k) = true) (hst : s.dlState (.ucie h k) = ucACTIVE) :
    retrainFull m (.ucie h k) s = s.trainModule h k := by
  simp only [retrainFull, dlPage, ha, hst, Bool.not_true, if_neg Bool.false_ne_true, if_true]

end

/-! ## HINGE_LINK_RESET (05 R169, R170; 01 R33) -/

/-- A full reset returns the registers of a link to their reset values, and its numbers to 0. -/
def clearLink (l : DieLink) (s : State) : State :=
  let t := (s.resetBlockRegs (dlPage l)).setFs (dlPage l)
    [(R.hdr.ERR_INJ, 0), (R.hdr.BLK_STS_RESET_BUSY, 1), (R.hdr.BLK_STS_READY, 0), (R.hdr.BLK_STS_FENCED, 0), (R.dlink.BLK_STS_X32, 0)]
  t.setDl l { t.dl l with exp := 0, since := 0, bad := none, charge := [] }

section
variable {m : Master} {bad : List (Fin 68)} {s : State}

theorem hingeLinkReset_of_resetBusy {l : DieLink} (ha : s.answers (dlPage l) = true)
    (hbusy : s.isSet (dlPage l) R.hdr.BLK_STS_RESET_BUSY = true) :
    hingeLinkReset m ⟨l, bad⟩ s = s.stateErr (dlPage l) := by
  simp only [hingeLinkReset, ha, hbusy, Bool.not_true, if_neg Bool.false_ne_true, if_true]

/-- The reset of a module stops it; the lanes that its test finds bad are noted. -/
theorem hingeLinkReset_ucie_of_enabled {h : Half} {k : Fin 32} (ha : s.answers (.ucie h k) = true)
    (hready : s.isSet (.ucie h k) R.hdr.BLK_STS_RESET_BUSY = false) (hst : s.dlState (.ucie h k) ≠ ucDISABLED) :
    hingeLinkReset m ⟨.ucie h k, bad⟩ s =
      foldOver bad (fun j u => u.noteLane (.ucie h k) j.val) ((clearLink (.ucie h k) s).stopModule h k ucRESET) := by
  simp only [hingeLinkReset, clearLink, dlPage, ha, hready, hst, Bool.not_true, if_neg Bool.false_ne_true, if_false]

/-- The reset of a bundle clears both ends, and the bundle trains. -/
theorem hingeLinkReset_hinge_of_there {h : Half} {b : Fin 16} (hthere : s.bundleThere b = true) (ha : s.answers (.hinge h b) = true)
    (hready : s.isSet (.hinge h b) R.hdr.BLK_STS_RESET_BUSY = false) :
    hingeLinkReset m ⟨.hinge h b, bad⟩ s =
      foldOver bad (fun j u => u.noteLane (.hinge h b) j.val)
        (clearLink (farEnd h b) (clearLink (.hinge h b) (s.retrainBundle b))) := by
  simp only [hingeLinkReset, clearLink, dlPage, ha, hthere, hready, Bool.not_true, if_neg Bool.false_ne_true, if_true]

end

/-! ## A module that leaves service (05 R160, R164) -/

theorem ucieBroken_of_inService {h : Half} {k : Fin 32} {why : BreakCause} {s : State} (ha : s.answers (dlPage (.ucie h k)) = true)
    (hbroken : s.dlState (.ucie h k) ≠ ucBROKEN) (hoff : s.dlState (.ucie h k) ≠ ucDISABLED) :
    ucieBroken h k why s =
      (let t := if why = .credit then s.setF (.ucie h k) R.dlink.CREDIT_PEND_US 1000 else s
       let t := if why = .training then t.err (.ucie h k) 8 { info := t.laneInfo (.ucie h k) 0xFF } else t
       t.breakModule h k) :=
  if_neg (by rw [ha, decide_eq_true hbroken, decide_eq_true hoff]; exact Bool.false_ne_true)

theorem ucieDisable_of_enabled {m : Master} {h : Half} {k : Fin 32} {s : State} (ha : s.answers (.ucie h k) = true)
    (hen : s.isSet (.ucie h k) ucieEn = true) :
    ucieDisable m h k s = ((s.setF (.ucie h k) ucieEn 0).stopModule h k ucDISABLED).oeModCheck h (modOe k) :=
  if_pos (by rw [ha, hen]; rfl)

/-- Settles O27: a fresh flit by what its arrival finds, every other command by the lemma about its case. -/
theorem hingeAndModules : Obligations.HingeAndModules := by
  unfold Obligations.HingeAndModules
  refine ⟨?expected, ?otherNumber, ?badFlit, ?bundleDown, ?moduleFlit, ?ackTimer, ?broken, ?trained, ?notTrained, ?laneSpared, ?laneNoted,
    ?moduleLane, ?retrain, ?noRetrain, ?retrainModule, ?resetModule, ?resetBundle, ?resetBusy, ?moduleBroken, ?disabled⟩
  case expected =>
    intro h b f s got y t ha hlen hup hsent hnext hpick harm hgood hseq hfirst
    rw [← armed_flitSent h b f s] at harm
    exact next_of_effect ((hingeFlit_of_fresh ha hlen hup hsent hnext hpick).trans (hingeArrive_of_expected harm hgood hseq hfirst))
  case otherNumber =>
    intro h b f s got y t ha hlen hup hsent hnext hpick harm hgood hseq
    rw [← armed_flitSent h b f s] at harm
    exact next_of_effect ((hingeFlit_of_fresh ha hlen hup hsent hnext hpick).trans (hingeArrive_of_otherNumber harm hgood hseq))
  case badFlit =>
    intro h b f s got y t ha hlen hup hsent hnext hpick harm hbad
    rw [← armed_flitSent h b f s] at harm
    exact next_of_effect ((hingeFlit_of_fresh ha hlen hup hsent hnext hpick).trans (hingeArrive_of_bad harm hbad))
  case bundleDown =>
    intro h b f s hdown
    exact next_of_effect (hingeFlit_of_bundleDown hdown)
  case moduleFlit =>
    intro h k f s ha hlen hst harm hflip
    exact next_of_effect (hingeFlit_module_of_flipped ha hlen hst harm hflip)
  case ackTimer =>
    intro h b s ha hup hsince
    exact next_of_effect (hingeAckTimer_of_unacknowledged ha hup hsince)
  case broken =>
    intro b why s hthere hst
    exact next_of_effect (bundleBroken_of_inService hthere hst)
  case trained =>
    intro b badA badB pass s t n hthere hst hgood hpass
    exact next_of_effect (hingeTrainDone_of_pass hthere hst hgood hpass)
  case notTrained =>
    intro b badA badB pass s t hthere hst hfail
    exact next_of_effect (hingeTrainDone_of_fail hthere hst hfail)
  case laneSpared =>
    intro h b lane s ha hgood hst hup
    exact next_of_effect ((laneFail_hinge_of_good ha hgood).trans (hingeLane_of_up hgood hst hup))
  case laneNoted =>
    intro h b lane s ha hgood hst
    exact next_of_effect ((laneFail_hinge_of_good ha hgood).trans (hingeLane_of_training hgood hst))
  case moduleLane =>
    intro h k lane s ha hgood
    exact next_of_effect (laneFail_ucie_of_good ha hgood)
  case retrain =>
    intro m h b s hm ha hup
    exact next_of_reaches hm ((retrainFull_hinge_of_answers ha).trans (if_pos hup))
  case noRetrain =>
    intro m h b s hm ha hdown
    exact next_of_reaches hm ((retrainFull_hinge_of_answers ha).trans (if_neg (Bool.eq_false_iff.mp hdown)))
  case retrainModule =>
    intro m h k s hm ha hst
    exact next_of_reaches hm (retrainFull_ucie_of_active ha hst)
  case resetModule =>
    intro m h k bad s hm ha hready hst
    exact next_of_reaches hm (hingeLinkReset_ucie_of_enabled ha hready hst)
  case resetBundle =>
    intro m h b bad s hm hthere ha hready
    exact next_of_reaches hm (hingeLinkReset_hinge_of_there hthere ha hready)
  case resetBusy =>
    intro m l bad s hm ha hbusy
    exact next_of_reaches hm (hingeLinkReset_of_resetBusy ha hbusy)
  case moduleBroken =>
    intro h k why s ha hbroken hoff
    exact next_of_effect (ucieBroken_of_inService ha hbroken hoff)
  case disabled =>
    intro m h k s hm ha hen
    exact next_of_reaches hm (ucieDisable_of_enabled ha hen)

end Sys2Proof.Proofs

/-! SUPPORT and statement: the attach firewall (05 R165 to R167, Tables 5.7 and 5.15). -/

namespace Sys2Proof.Proofs

open Sys2Proof.Machine

/-! ## A request of an OE (05 R166) -/

/-- The end of a request that the firewall drops: a read is answered ACCESS_DENIED. -/
def dropRequest (h : Half) (r : OeReq) (s : State) : State := if r.write then s else s.emit (.access h .device 3 [])

section
variable {h : Half} {o : Fin 8} {r : OeReq} {s : State} (ha : s.answers (.fwall h) = true)
include ha

/-- A request of an OE that is not fenced: the first kind of violation that applies drops it, else it passes. -/
theorem oeRequestCheck_of_unfenced (hoe : s.answers (.oe h o) = true) (hf : s.oeFenced h o = false) :
    oeRequestCheck h o r s =
      (let ws := ((List.range 17).map (s.fwWin h o.val)).filter (fun w => winLine w r.addr.toNat)
       let bad := fun (kind : Nat) => dropRequest h r (s.violation h o kind r.addr.toNat false)
       if r.malformed then bad 3
       else if r.forbidden then bad 2
       else if ws.isEmpty then bad 0
       else if !ws.any (fun w => if r.write then w.wr else w.rd) then bad 1
       else s) := by
  simp only [oeRequestCheck, ha, hoe, hf, Bool.not_true, if_neg Bool.false_ne_true, dropRequest]

/-- A request of a fenced OE is dropped without a violation. -/
theorem oeRequestCheck_of_fenced (hf : s.oeFenced h o = true) : oeRequestCheck h o r s = dropRequest h r s := by
  simp only [oeRequestCheck, ha, hf, Bool.not_true, if_neg Bool.false_ne_true, if_true, dropRequest]

end

/-! ## A change of a window (05 R167, Table 5.7) -/

section
variable {h : Half} {o : Fin 8} {win : Fin 17} {w : FwWin} {s : State}

theorem firewallWindowChange_of_portsDown (ha : s.answers (.fwall h) = true)
    (hdown : (oePorts h o).any (fun p => s.lstate p = 2 || s.lstate p = 3) = false) :
    firewallWindowChange h o win w s = s.setWin h o.val win.val (winKind win.val w) :=
  if_neg (by rw [ha, hdown]; exact Bool.false_ne_true)

theorem firewallWindowChange_of_portUp (hup : (oePorts h o).any (fun p => s.lstate p = 2 || s.lstate p = 3) = true) :
    firewallWindowChange h o win w s = s :=
  if_pos (by rw [hup, Bool.or_true])

end

/-- Settles O28: the check of a request by whether its OE is fenced, the change of a window by whether a port of the OE is up or asleep. -/
theorem attachFirewall : Obligations.AttachFirewall := by
  unfold Obligations.AttachFirewall
  refine ⟨?unfenced, ?fenced, ?portsDown, ?portUp⟩
  case unfenced =>
    intro h o r s ha hoe hf
    exact next_of_effect (oeRequestCheck_of_unfenced ha hoe hf)
  case fenced =>
    intro h o r s ha hf
    exact next_of_effect (oeRequestCheck_of_fenced ha hf)
  case portsDown =>
    intro h o win w s ha hdown
    exact next_of_effect (firewallWindowChange_of_portsDown ha hdown)
  case portUp =>
    intro h o win w s hup
    exact next_of_effect (firewallWindowChange_of_portUp hup)

end Sys2Proof.Proofs

/-! SUPPORT and statement: the lock loop of a ring, the monitor selection, a lost heartbeat, the bias ceiling (06 R180, R186 to R190). -/

namespace Sys2Proof.Proofs

open Sys2Proof.Machine

/-! ## Rings and the tile's controls -/

section
variable {h : Half} {o : Fin 8} {s : State}

/-- A selection outside a block reset stores its fields, and the reading is no longer valid (06 Table 6.6). -/
theorem monSel_of_ready {m : Master} {value : Word} (ha : s.answers (.oe h o) = true)
    (hready : s.isSet (.oe h o) R.hdr.BLK_STS_RESET_BUSY = false) :
    monSel m h o value s =
      (s.setFs (.oe h o) [(R.oe.MON_SEL_INT, bits value.toNat 26 24), (R.oe.MON_SEL_PORT, bits value.toNat 10 8),
        (R.oe.MON_SEL_RING, bits value.toNat 7 0), (R.oe.MON_VAL_VALID, 0), (R.oe.MON_VAL_VALUE, 0)]).setOe h o.val
        { s.oe h o.val with monLeft := nth 41 [1, 1, 1, 1, 3, 11] (bits value.toNat 26 24) } := by
  simp only [monSel, ha, hready, Bool.not_true, if_neg Bool.false_ne_true]

theorem monSel_of_resetBusy {m : Master} {value : Word} (ha : s.answers (.oe h o) = true)
    (hbusy : s.isSet (.oe h o) R.hdr.BLK_STS_RESET_BUSY = true) : monSel m h o value s = s.stateErr (.oe h o) := by
  simp only [monSel, ha, hbusy, Bool.not_true, if_neg Bool.false_ne_true, if_true]

theorem tileHeartbeatLoss_of_answers (ha : s.answers (.oe h o) = true) :
    tileHeartbeatLoss h o s = (s.err (.oe h o) 9 { cost := 4, info := bytesOf 2 (64 * halfNo h + 8 * o.val) }).dropOe h o :=
  if_pos ha

theorem biasCeilingRestore_of_fullCeiling (ha : s.answers (.laser h o) = true) (hceil : s.getF (.laser h o) R.laser.TILE_BIAS_CEIL = 150) :
    biasCeilingRestore h o s = s.setOe h o.val { s.oe h o.val with ceil := false } :=
  if_pos (by rw [ha, hceil, Bool.true_and, decide_eq_true rfl])

/-- A ring that has a heater and is not parked, of an OE that is ACTIVE, is one that an update of its loop moves (06 R187). -/
theorem loopRuns_of_heated {k : Nat} (ha : s.answers (.oe h o) = true) (hst : s.pstate h o = 3) (hheat : s.ring1 h o k ≠ ringInit)
    (hpark : (s.ring1 h o k).parked = false) :
    (s.answers (.oe h o) && (s.pstate h o = 3) && s.ring1 h o k ≠ ringInit && !(s.ring1 h o k).parked) = true := by
  rw [ha, hpark, decide_eq_true hst, decide_eq_true hheat]
  rfl

end

/-- Settles O30: an update runs the loop past its guard, and each other command has the one effect of its branch. -/
theorem ringLoops : Obligations.RingLoops := by
  unfold Obligations.RingLoops
  refine ⟨?update, ?select, ?selectBusy, ?heartbeat, ?ceiling⟩
  case update =>
    intro h o r x s ha hst hheat hpark
    have hruns := loopRuns_of_heated ha hst hheat hpark
    exact next_of_effect (if_neg (by rw [hruns]; exact Bool.false_ne_true))
  case select =>
    intro m h o value s hm ha hready
    exact next_of_reaches hm (monSel_of_ready ha hready)
  case selectBusy =>
    intro m h o value s hm ha hbusy
    exact next_of_reaches hm (monSel_of_resetBusy ha hbusy)
  case heartbeat =>
    intro h o s ha
    exact next_of_effect (tileHeartbeatLoss_of_answers ha)
  case ceiling =>
    intro h o s ha hceil
    exact next_of_effect (biasCeilingRestore_of_fullCeiling ha hceil)

end Sys2Proof.Proofs

/-! SUPPORT and statement: hand-overs and substitutions of lasers, message by message, and a sudden failure (06 R193 to R198, R209). -/

namespace Sys2Proof.Proofs

open Sys2Proof.Machine

/-! ## The sending side (06 R193 to R197, Table 6.9) -/

section
variable {p : PortId} {n sp : Fin 18} {s : State} (ha : s.answers p.page = true)
include ha

theorem hoReady_of_asked (hmove : s.moveOf p n.val sp.val [.asked] = true) :
    hoReady p n sp s =
      ((s.setMove p .dup).setF (laserPage p) R.laser.SPARE_STS_STEP 5).updPort (s.lead p) (fun x => { x with alignDue := true }) :=
  if_pos (by rw [ha, hmove]; rfl)

/-- A first failure of a duplicated lane duplicates it once more. -/
theorem hoFail_of_duplicated (hmove : s.moveOf p n.val sp.val [.dup] = true) :
    hoFail p n sp s = ((s.linkEvt p 8).setMove p .dupAgain).updPort (s.lead p) (fun x => { x with alignDue := true }) := by
  simp only [hoFail, ha, hmove, Bool.not_true, if_neg Bool.false_ne_true, if_true]

/-- A second failure sends RETRAIN_REQ, and the port leaves the hand-over. -/
theorem hoFail_of_duplicatedAgain (hfirst : s.moveOf p n.val sp.val [.dup] = false) (hmove : s.moveOf p n.val sp.val [.dupAgain] = true) :
    hoFail p n sp s =
      (((s.linkEvt p 8).sendCtl p 9 (bytesOf 1 0 ++ bytesOf 1 6 ++ bytesOf 1 8)).sendCtlFlit (s.lead p)).leaveMove p n.val := by
  simp only [hoFail, ha, hfirst, hmove, Bool.not_true, if_neg Bool.false_ne_true, if_true]

theorem handoverTimeout_of_waiting {y : HandOver} (hho : (s.oe p.half p.oe.val).ho = some y)
    (hwait : y.moves.any (fun m => m.port = p.no && m.st ≠ .done && m.st ≠ .left) = true) :
    handoverTimeout p s = (s.linkEvt p 8).leaveMove p y.n := by
  simp only [handoverTimeout, ha, hho, hwait, Bool.not_true, if_neg Bool.false_ne_true, if_true]

theorem subReq_of_carried {ch : Fin 18} (hup : s.linkUp (s.lead p) = true) (htx : bit (s.getF p.page R.oport.PORT_STS_CH_TX) ch.val = true)
    (hfree : s.handingOver p.half p.oe ch.val (some p.no) = false) :
    subReq p ch s = (s.startHandOver p.half p.oe ch.val (some p.no)).endHandOver p.half p.oe :=
  if_neg (by rw [ha, hup, htx, hfree]; exact Bool.false_ne_true)

/-! ## The receiving side (06 R194, R197) -/

theorem hoReq_of_linkDown {peaks : List Nat} (hdown : s.linkUp (s.lead p) = false) :
    hoReq p n sp peaks s = s.updPort p (fun x => { x with lostRx := sadd x.lostRx n.val }) := by
  simp only [hoReq, ha, hdown, Bool.not_true, Bool.not_false, if_neg Bool.false_ne_true, if_true]

/-- A request that repeats the one already met is answered HO_READY again. -/
theorem hoReq_of_repeated {peaks : List Nat} (hup : s.linkUp (s.lead p) = true) (hmet : (s.port p).hoRx = some (n.val, sp.val)) :
    hoReq p n sp peaks s = s.sendCtl p 3 (bytesOf 1 0 ++ bytesOf 1 n.val ++ bytesOf 1 sp.val) := by
  simp only [hoReq, ha, hup, hmet, Bool.not_true, if_neg Bool.false_ne_true, if_true]

end

/-! ## SPARE_GO (06 R209) -/

section
variable {m : Master} {h : Half} {o : Fin 8} {value : Word} {s : State} (ha : s.answers (.laser h o) = true)
include ha

theorem spareGo_of_noGo (hgo : bit value.toNat 0 = false) :
    spareGo m h o value s = s.setF (.laser h o) R.laser.SPARE_CTL_CH (bits value.toNat 12 8) := by
  simp only [spareGo, ha, hgo, Bool.not_true, Bool.not_false, if_neg Bool.false_ne_true, if_true]

/-- A GO stores the channel, and then is refused, or starts the hand-over of that channel's laser. -/
theorem spareGo_of_go (hgo : bit value.toNat 0 = true) :
    spareGo m h o value s =
      (let t := s.setF (.laser h o) R.laser.SPARE_CTL_CH (bits value.toNat 12 8)
       if t.isSet (.laser h o) R.laser.SPARE_STS_BUSY ∨ 16 ≤ bits value.toNat 12 8 ∨ t.laserSt h o (bits value.toNat 12 8) ≠ 3 then
         t.stateErr (.laser h o)
       else (t.startHandOver h o (bits value.toNat 12 8) none).endHandOver h o) := by
  simp only [spareGo, ha, hgo, Bool.not_true, if_neg Bool.false_ne_true, Bool.or_eq_true, decide_eq_true_eq, or_assoc, ge_iff_le]

end

/-- Settles O31: each message by the state of its port's move, SPARE_GO by its refusals, and a sudden failure of a lit laser. -/
theorem handOvers : Obligations.HandOvers := by
  unfold Obligations.HandOvers
  refine ⟨?ready, ?done, ?failFirst, ?failAgain, ?timeout, ?substitute, ?requestDown, ?requestRepeated, ?request, ?spareStored,
    ?spareStarts, ?spareRefused, ?suddenFail⟩
  case ready =>
    intro p n sp s ha hmove
    exact next_of_effect (hoReady_of_asked ha hmove)
  case done =>
    intro p n sp k s ha hmove
    exact next_of_effect (if_pos (by rw [ha, hmove]; rfl))
  case failFirst =>
    intro p n sp s ha hmove
    exact next_of_effect (hoFail_of_duplicated ha hmove)
  case failAgain =>
    intro p n sp s ha hfirst hmove
    exact next_of_effect (hoFail_of_duplicatedAgain ha hfirst hmove)
  case timeout =>
    intro p y s ha hho hwait
    exact next_of_effect (handoverTimeout_of_waiting ha hho hwait)
  case substitute =>
    intro p ch s ha hup htx hfree
    exact next_of_effect (subReq_of_carried ha hup htx hfree)
  case requestDown =>
    intro p n sp peaks s ha hdown
    exact next_of_effect (hoReq_of_linkDown ha hdown)
  case requestRepeated =>
    intro p n sp peaks s ha hup hmet
    exact next_of_effect (hoReq_of_repeated ha hup hmet)
  case request =>
    intro p n sp peaks s ha _ _
    exact next_of_effect (if_neg (by rw [ha]; exact Bool.false_ne_true))
  case spareStored =>
    intro m h o value s hm ha hgo
    exact next_of_reaches hm (spareGo_of_noGo ha hgo)
  case spareStarts =>
    intro m h o value s t hm ha hgo hidle hch hlit
    have hok : ¬ (t.isSet (.laser h o) R.laser.SPARE_STS_BUSY ∨ 16 ≤ bits value.toNat 12 8 ∨ t.laserSt h o (bits value.toNat 12 8) ≠ 3) := by
      rintro (hbusy | hspare | hdark)
      · exact absurd (hidle.symm.trans hbusy) Bool.false_ne_true
      · omega
      · exact hdark hlit
    exact next_of_reaches hm ((spareGo_of_go ha hgo).trans (if_neg hok))
  case spareRefused =>
    intro m h o value s t hm ha hgo hbad
    exact next_of_reaches hm ((spareGo_of_go ha hgo).trans (if_pos hbad))
  case suddenFail =>
    intro h o n s ha hlit
    have hfails : (s.answers (.laser h o) && s.laserSt h o n.val = 3) = true := by rw [ha, decide_eq_true hlit]; rfl
    exact next_of_effect (if_neg (by rw [hfails]; exact Bool.false_ne_true))

end Sys2Proof.Proofs

/-! SUPPORT and statement: power reports and the repetition of control requests on a link that is UP (06 R181, R191, R192, Table 6.7; 07 R236). -/

namespace Sys2Proof.Proofs

open Sys2Proof.Machine

/-- A command of an OPORT page whose link is UP is not dropped. -/
theorem ite_of_portUp {p : PortId} {s t u : State} (ha : s.answers p.page = true) (hup : s.linkUp (s.lead p) = true) :
    (if !(s.answers p.page && s.linkUp (s.lead p)) then t else u) = u :=
  if_neg (by rw [ha, hup]; exact Bool.false_ne_true)

/-- Settles O32: the three commands share their guard, which a port of a link that is UP passes. -/
theorem powerReports : Obligations.PowerReports := by
  unfold Obligations.PowerReports
  refine ⟨?report, ?send, ?repeatRequests⟩
  case report =>
    intro p g values biasHeld s ha hup
    exact next_of_effect (ite_of_portUp ha hup)
  case send =>
    intro p oma s ha hup
    exact next_of_effect (ite_of_portUp ha hup)
  case repeatRequests =>
    intro p s ha hup
    exact next_of_effect (ite_of_portUp ha hup)

end Sys2Proof.Proofs

/-! SUPPORT and statement: loss of light, probes, opening, SHUT and RESEARCH of an optical port (06 R183 to R185, R199 to R201). -/

namespace Sys2Proof.Proofs

open Sys2Proof.Machine

section
variable {p : PortId} {x : SearchObs} {s : State}

/-! ## Light and probes (06 R199, R200) -/

theorem lossOfLight_of_answers (ha : s.answers p.page = true) : lossOfLight p s = s.lightLost p false := if_pos ha

theorem probe_of_mayProbe (hmay : s.mayProbe p = true) : probe p s = s.emitProbe p := if_pos hmay

/-- Light without a probe of the port's own is answered with a probe. -/
theorem lightDetect_of_notProbing (hmay : s.mayProbe p = true) (hprobe : (s.port p).probing = false) : lightDetect p x s = s.emitProbe p := by
  simp only [lightDetect, hmay, hprobe, Bool.not_true, if_neg Bool.false_ne_true]

/-! ## SHUT and RESEARCH (06 R201; 01 R33) -/

section
variable {m : Master} (ha : s.answers p.page = true)
include ha

theorem shut_of_answers :
    shut m p s = (((s.closePort p 8).setF p.page R.oport.BLK_CTL_SHUT 1).setMove p .left).endHandOver p.half p.oe :=
  if_pos ha

theorem unshut_of_answers : unshut m p s = s.setF p.page R.oport.BLK_CTL_SHUT 0 := if_pos ha

theorem research_of_open (hst : s.ostate p = 3) :
    research m p x s =
      (let t := (((s.linkDown p 8).search p x).setO p 2).updPort p (fun y => { y with retrain := false })
       if t.lstate (t.lead p) = 4 then t.leaveWaiting (t.lead p) else t) := by
  simp only [research, ha, hst, Bool.not_true, if_neg Bool.false_ne_true, ne_eq, not_true, if_false]

theorem research_of_notOpen (hst : s.ostate p ≠ 3) : research m p x s = s.stateErr p.page := by
  simp only [research, ha, Bool.not_true, if_neg Bool.false_ne_true, if_pos hst]

end

end

/-- Settles O33: loss of light on every port, probe and light by whether the port may probe and has, SHUT always, RESEARCH by OSTATE. -/
theorem eyeSafety : Obligations.EyeSafety := by
  unfold Obligations.EyeSafety
  refine ⟨?loss, ?probe, ?lightAnswered, ?lightOpens, ?shut, ?unshut, ?research, ?researchErr⟩
  case loss =>
    intro p s ha
    exact next_of_effect (lossOfLight_of_answers ha)
  case probe =>
    intro p s hmay
    exact next_of_effect (probe_of_mayProbe hmay)
  case lightAnswered =>
    intro p x s hmay hprobe
    exact next_of_effect (lightDetect_of_notProbing hmay hprobe)
  case lightOpens =>
    intro p x s hmay _
    exact next_of_effect (if_neg (by rw [hmay]; exact Bool.false_ne_true))
  case shut =>
    intro m p s hm ha
    exact next_of_reaches hm (shut_of_answers ha)
  case unshut =>
    intro m p s hm ha
    exact next_of_reaches hm (unshut_of_answers ha)
  case research =>
    intro m p x s hm ha hst
    exact next_of_reaches hm (research_of_open ha hst)
  case researchErr =>
    intro m p x s hm ha hst
    exact next_of_reaches hm (research_of_notOpen ha hst)

end Sys2Proof.Proofs

/-! SUPPORT and statement: the power states of an OE (06 R202 to R205, Tables 6.10 and 6.11; 11 R341). -/

namespace Sys2Proof.Proofs

open Sys2Proof.Machine

section
variable {m : Master} {h : Half} {o : Fin 8} {s : State}

/-! ## Requests (06 Table 6.10) -/

section
variable {sts : List Nat} {act : State → State} (ha : s.answers (.oe h o) = true)
include ha

theorem oeRequest_of_listedState (hst : s.pstate h o ∈ sts) : s.oeRequest h o sts act = act s := by
  simp only [State.oeRequest, ha, Bool.not_true, if_neg Bool.false_ne_true, List.contains_eq_mem, decide_eq_true_eq, if_pos hst]

/-- A request in a state that Table 6.10 does not list for it is STATE_ERR. -/
theorem oeRequest_of_otherState (hst : s.pstate h o ∉ sts) : s.oeRequest h o sts act = s.stateErr (.oe h o) := by
  simp only [State.oeRequest, ha, Bool.not_true, if_neg Bool.false_ne_true, List.contains_eq_mem, decide_eq_true_eq, if_neg hst]

theorem oeReqActive_of_dim (hst : s.pstate h o = 2) : oeReqActive m h o s = s.wakeDim h o :=
  (oeRequest_of_listedState ha (by simp [hst])).trans (if_pos hst)

/-- From OFF and DARK the lasers warm, until OE_WAKE_DONE. -/
theorem oeReqActive_of_cold (hst : s.pstate h o ≤ 1) :
    oeReqActive m h o s = (s.allLasers h o 2).setF (.oe h o) R.oe.BLK_STS_PSTATE 4 := by
  have hlisted : s.pstate h o ∈ [0, 1, 2] := by simp only [List.mem_cons]; omega
  have hcold : s.pstate h o ≠ 2 := by omega
  exact (oeRequest_of_listedState ha hlisted).trans (if_neg hcold)

/-! ## Changes without a request (06 R203, R204; 11 R341) -/

theorem oeDimWake_flit_of_dim (hst : s.pstate h o = 2) : oeDimWake h (.flit o) s = s.wakeDim h o := by
  simp only [oeDimWake, ha, hst, decide_true, Bool.and_self, if_true]

theorem oeDimWake_pattern_of_dim {k : Fin 8} (hst : s.pstate h o = 2)
    (hopen : bit (s.getF (.laser h o) R.laser.BRANCH_CLOSED_FIBRE) k.val = false) : oeDimWake h (.pattern o k) s = s.wakeDim h o := by
  simp only [oeDimWake, ha, hst, hopen, decide_true, Bool.not_false, Bool.and_self, if_true]

theorem oeIdleDim_of_active (hst : s.pstate h o = 3) : oeIdleDim h o s = s.askDim h o :=
  if_pos (by rw [ha, decide_eq_true hst]; rfl)

theorem oeIdleDark_of_quiet (hst : s.pstate h o = 2 ∨ s.pstate h o = 3)
    (hquiet : (oePorts h o).all (fun p => s.lstate p ≠ 2 && s.lstate p ≠ 3) = true) : oeIdleDark h o s = s.lowerOe h o 1 1 := by
  have hlit : (decide (s.pstate h o = 3) || decide (s.pstate h o = 2)) = true := by simpa [or_comm] using hst
  exact if_pos (by rw [ha, hlit, hquiet]; rfl)

end

theorem sleepExchangeTimeout_of_asleep {p : PortId} (ha : s.answers (s.lead p).page = true) (hup : s.lstate (s.lead p) = 2)
    (hsleep : (s.port (s.lead p)).asleep = true) :
    sleepExchangeTimeout p s = ((s.linkEvt (s.lead p) 9).linkDown (s.lead p) 8).dimCheck (s.lead p).half (s.lead p).oe :=
  if_pos (by rw [ha, decide_eq_true hup, hsleep]; rfl)

/-! ## Reset (06 R205; 01 R33) -/

section
variable (hhalf : s.halfUp h = true)
include hhalf

theorem oeReset_of_ready (hdie : s.die (dieOe h o) = .up) (hready : s.isSet (.oe h o) R.hdr.BLK_STS_RESET_BUSY = false) :
    oeReset m h o s = s.resetOe h o := by
  simp only [oeReset, hhalf, hdie, hready, Bool.not_true, if_neg Bool.false_ne_true, if_true]

theorem oeReset_of_resetBusy (hdie : s.die (dieOe h o) = .up) (hbusy : s.isSet (.oe h o) R.hdr.BLK_STS_RESET_BUSY = true) :
    oeReset m h o s = s.stateErr (.oe h o) := by
  simp only [oeReset, hhalf, hdie, hbusy, Bool.not_true, if_neg Bool.false_ne_true, if_true]

/-- A reset acts on a die that is fenced or lost too (05 R166). -/
theorem oeReset_of_outOfService (hdie : s.die (dieOe h o) = .fenced ∨ s.die (dieOe h o) = .lost) :
    oeReset m h o s = s.resetOe h o := by
  rcases hdie with hdie | hdie <;> simp [oeReset, hhalf, hdie]

end

end

/-- Settles O34: the requests by Table 6.10, the changes that come by themselves, and the reset with its end. -/
theorem oePowerStates : Obligations.OePowerStates := by
  unfold Obligations.OePowerStates
  refine ⟨?off, ?offErr, ?dark, ?darkErr, ?dim, ?dimErr, ?activeFromDim, ?activeFromCold, ?activeErr, ?wakeDone, ?wakeFlit, ?wakePattern,
    ?idleDim, ?idleDark, ?sleepTimeout, ?reset, ?resetErr, ?resetOutOfService, ?resetDone⟩
  case off =>
    intro m h o s hm ha hst
    exact next_of_reaches hm (oeRequest_of_listedState ha (by simpa using hst))
  case offErr =>
    intro m h o s hm ha hst
    exact next_of_reaches hm (oeRequest_of_otherState ha (by simp only [List.mem_cons, List.not_mem_nil, or_false]; omega))
  case dark =>
    intro m h o s hm ha hst
    exact next_of_reaches hm (oeRequest_of_listedState ha (by simpa using hst))
  case darkErr =>
    intro m h o s hm ha hst
    exact next_of_reaches hm (oeRequest_of_otherState ha (by simp only [List.mem_cons, List.not_mem_nil, or_false]; omega))
  case dim =>
    intro m h o s hm ha hst
    exact next_of_reaches hm (oeRequest_of_listedState ha (by simpa using hst))
  case dimErr =>
    intro m h o s hm ha hst
    exact next_of_reaches hm (oeRequest_of_otherState ha (by simpa using hst))
  case activeFromDim =>
    intro m h o s hm ha hst
    exact next_of_reaches hm (oeReqActive_of_dim ha hst)
  case activeFromCold =>
    intro m h o s hm ha hst
    exact next_of_reaches hm (oeReqActive_of_cold ha hst)
  case activeErr =>
    intro m h o s hm ha hst
    exact next_of_reaches hm (oeRequest_of_otherState ha (by simp only [List.mem_cons, List.not_mem_nil, or_false]; omega))
  case wakeDone =>
    intro h o us w s ha hst
    exact next_of_effect (if_pos (by rw [ha, decide_eq_true hst]; rfl))
  case wakeFlit =>
    intro h o s ha hst
    exact next_of_effect (oeDimWake_flit_of_dim ha hst)
  case wakePattern =>
    intro h o k s ha hst hopen
    exact next_of_effect (oeDimWake_pattern_of_dim ha hst hopen)
  case idleDim =>
    intro h o s ha hst
    exact next_of_effect (oeIdleDim_of_active ha hst)
  case idleDark =>
    intro h o s ha hst hquiet
    exact next_of_effect (oeIdleDark_of_quiet ha hst hquiet)
  case sleepTimeout =>
    intro p s ha hup hsleep
    exact next_of_effect (sleepExchangeTimeout_of_asleep ha hup hsleep)
  case reset =>
    intro m h o s hm hhalf hdie hready
    exact next_of_reaches hm (oeReset_of_ready hhalf hdie hready)
  case resetErr =>
    intro m h o s hm hhalf hdie hbusy
    exact next_of_reaches hm (oeReset_of_resetBusy hhalf hdie hbusy)
  case resetOutOfService =>
    intro m h o s hm hhalf hdie
    exact next_of_reaches hm (oeReset_of_outOfService hhalf hdie)
  case resetDone =>
    intro h x s ha hst
    exact next_of_effect (if_neg (by rw [ha, decide_eq_true hst]; exact Bool.false_ne_true))

end Sys2Proof.Proofs

/-! SUPPORT and statement: the header, the payload and the CRC of a flit (07 R211, R212, R228; 00 R7). -/

namespace Sys2Proof.Proofs

open Sys2Proof.Machine

/-! ## The header (07 Table 7.1) -/

/-- The bits of a header as one number, lowest field first. -/
def hdrNat (x : FlitHdr) : Nat :=
  x.seq + x.ack * 2 ^ 16 + x.nak.toNat * 2 ^ 32 + x.kind * 2 ^ 33 + x.xReq.toNat * 2 ^ 35 + x.xRsp.toNat * 2 ^ 36 + x.enc.toNat * 2 ^ 37 +
    x.plen * 2 ^ 38 + x.nmsg * 2 ^ 46

/-- Every field of a header lies in its width. -/
structure HdrFits (x : FlitHdr) : Prop where
  seq : x.seq < 2 ^ 16
  ack : x.ack < 2 ^ 16
  kind : x.kind < 4
  plen : x.plen < 256
  nmsg : x.nmsg < 2 ^ 4

theorem ite_two_pow_eq_toNat_mul (v : Bool) (n : Nat) : (if v then 2 ^ n else 0) = v.toNat * 2 ^ n := by
  cases v <;> simp

theorem hdrBytes_eq_hdrNat {x : FlitHdr} (hx : HdrFits x) : hdrBytes x = bytesOf 12 (hdrNat x) := by
  unfold hdrBytes hdrNat
  simp only [Nat.mod_eq_of_lt hx.seq, Nat.mod_eq_of_lt hx.ack, Nat.mod_eq_of_lt hx.plen, ite_two_pow_eq_toNat_mul]

@[simp] theorem length_hdrBytes (x : FlitHdr) : (hdrBytes x).length = 12 := length_bytesOf 12 _

theorem bit_eq_of_mod {v n : Nat} {b : Bool} (h : v / 2 ^ n % 2 = b.toNat) : bit v n = b := by
  unfold bit
  cases b <;> simp [h]

/-- Each field of a header stands in its own bits. -/
theorem fields_of_hdrNat {x : FlitHdr} (hx : HdrFits x) :
    ({ seq := bits (hdrNat x) 15 0, ack := bits (hdrNat x) 31 16, nak := bit (hdrNat x) 32, kind := bits (hdrNat x) 34 33,
       xReq := bit (hdrNat x) 35, xRsp := bit (hdrNat x) 36, enc := bit (hdrNat x) 37, plen := bits (hdrNat x) 45 38,
       nmsg := bits (hdrNat x) 49 46 } : FlitHdr) = x := by
  obtain ⟨hseq, hack, hkind, hplen, hnmsg⟩ := hx
  have hnak := x.nak.toNat_lt
  have hxReq := x.xReq.toNat_lt
  have hxRsp := x.xRsp.toNat_lt
  have henc := x.enc.toNat_lt
  obtain ⟨seq, ack, nak, kind, xReq, xRsp, enc, plen, nmsg⟩ := x
  simp only [hdrNat] at *
  simp only [FlitHdr.mk.injEq, bits]
  refine ⟨?_, ?_, bit_eq_of_mod ?_, ?_, bit_eq_of_mod ?_, bit_eq_of_mod ?_, bit_eq_of_mod ?_, ?_, ?_⟩ <;> omega

theorem hdrNat_lt {x : FlitHdr} (hx : HdrFits x) : hdrNat x < 2 ^ (8 * 12) := by
  obtain ⟨hseq, hack, hkind, hplen, hnmsg⟩ := hx
  have hnak := x.nak.toNat_lt
  have hxReq := x.xReq.toNat_lt
  have hxRsp := x.xRsp.toNat_lt
  have henc := x.enc.toNat_lt
  unfold hdrNat
  omega

/-- A string that begins with the bytes of a header decodes to the header. -/
theorem hdrOf_hdrBytes_append {x : FlitHdr} (hx : HdrFits x) (t : List Byte) : hdrOf (hdrBytes x ++ t) = x := by
  have hnat : natOf ((hdrBytes x ++ t).take 12) = hdrNat x := by
    rw [List.take_left' (length_hdrBytes x), hdrBytes_eq_hdrNat hx, natOf_bytesOf, Nat.mod_eq_of_lt (hdrNat_lt hx)]
  unfold hdrOf
  rw [hnat]
  exact fields_of_hdrNat hx

/-! ## The payload and the CRC (07 R211, R228) -/

@[simp] theorem length_padTo (n : Nat) (l : List Byte) : (padTo n l).length = n := by
  simp only [padTo, List.length_take, List.length_append, List.length_replicate]
  omega

theorem crcBit_lt {c : Nat} (h : c < 2 ^ 32) : crcBit c < 2 ^ 32 := by
  unfold crcBit
  split
  · exact Nat.xor_lt_two_pow (by omega) (by decide)
  · omega

theorem crcByte_lt {c : Nat} (b : Byte) (h : c < 2 ^ 32) : crcByte c b < 2 ^ 32 := by
  have hx : c ^^^ b.toNat < 2 ^ 32 := Nat.xor_lt_two_pow h (b.isLt.trans (by decide))
  exact crcBit_lt (crcBit_lt (crcBit_lt (crcBit_lt (crcBit_lt (crcBit_lt (crcBit_lt (crcBit_lt hx)))))))

theorem foldl_crcByte_lt (l : List Byte) {c : Nat} (h : c < 2 ^ 32) : l.foldl crcByte c < 2 ^ 32 := by
  induction l generalizing c with
  | nil => exact h
  | cons b t ih => exact ih (crcByte_lt b h)

theorem crc32c_lt (l : List Byte) : crc32c l < 2 ^ 32 :=
  Nat.xor_lt_two_pow (foldl_crcByte_lt l (by decide)) (by decide)

/-- The covered bytes of a flit: header and payload. -/
def flitBody (x : FlitHdr) (pay : List Byte) : List Byte := hdrBytes x ++ padTo 240 pay

@[simp] theorem length_flitBody (x : FlitHdr) (pay : List Byte) : (flitBody x pay).length = 252 := by simp [flitBody]

/-- The CRC that a flit carries. -/
def flitCrc (x : FlitHdr) (pay : List Byte) (bad : Bool) : Nat :=
  if bad then crc32c (flitBody x pay) ^^^ 0xFFFFFFFF else crc32c (flitBody x pay)

theorem flitBytes_eq (x : FlitHdr) (pay : List Byte) (bad : Bool) :
    flitBytes x pay bad = flitBody x pay ++ bytesOf 4 (flitCrc x pay bad) := rfl

theorem length_flitBytes (x : FlitHdr) (pay : List Byte) (bad : Bool) : (flitBytes x pay bad).length = 256 := by
  simp [flitBytes_eq]

theorem payload_of_flitBytes (x : FlitHdr) (pay : List Byte) (bad : Bool) :
    ((flitBytes x pay bad).drop 12).take 240 = padTo 240 pay := by
  rw [flitBytes_eq, flitBody, List.append_assoc, List.drop_left' (length_hdrBytes x), List.take_left' (length_padTo 240 pay)]

theorem flitCrc_lt (x : FlitHdr) (pay : List Byte) (bad : Bool) : flitCrc x pay bad < 2 ^ 32 := by
  unfold flitCrc
  split
  · exact Nat.xor_lt_two_pow (crc32c_lt _) (by decide)
  · exact crc32c_lt _

theorem flitCrc_eq_iff (x : FlitHdr) (pay : List Byte) (bad : Bool) : flitCrc x pay bad = crc32c (flitBody x pay) ↔ bad = false := by
  cases bad <;> simp [flitCrc]

/-- A flit passes its CRC unless the CRC was inverted. -/
theorem flitGood_flitBytes (x : FlitHdr) (pay : List Byte) (bad : Bool) : flitGood (flitBytes x pay bad) = !bad := by
  have hcrc : natOf ((flitBytes x pay bad).drop 252) = flitCrc x pay bad := by
    rw [flitBytes_eq, List.drop_left' (length_flitBody x pay), natOf_bytesOf, Nat.mod_eq_of_lt (flitCrc_lt x pay bad)]
  have hbody : (flitBytes x pay bad).take 252 = flitBody x pay := List.take_left' (length_flitBody x pay)
  simp only [flitGood, length_flitBytes, hcrc, hbody, flitCrc_eq_iff, decide_true, Bool.true_and]
  cases bad <;> rfl

/-- Settles O55: a flit is its header, its padded payload and four bytes of CRC, each read back from its place. -/
theorem flitHeaders : Obligations.FlitHeaders := by
  unfold Obligations.FlitHeaders
  intro x pay bad hseq hack hkind hplen hnmsg
  have hdr : hdrOf (flitBytes x pay bad) = x := by
    rw [flitBytes_eq, flitBody, List.append_assoc, hdrOf_hdrBytes_append ⟨hseq, hack, hkind, hplen, hnmsg⟩]
  exact ⟨length_flitBytes x pay bad, hdr, payload_of_flitBytes x pay bad, flitGood_flitBytes x pay bad⟩

end Sys2Proof.Proofs

/-! SUPPORT and statement: what an ACK value releases (07 R231). -/

namespace Sys2Proof.Proofs

open Sys2Proof.Machine

/-! ## Registers of other places -/

/-- Fields at two offsets of their pages lie in different registers. -/
theorem fldAddr_ne_of_off {p q : Page} {f g : Fld} (hf : f.off < 0x1000) (hg : g.off < 0x1000) (h : f.off ≠ g.off) :
    fldAddr p f ≠ fldAddr q g := by
  have hp := Laws.pageBase_unit p
  have hq := Laws.pageBase_unit q
  unfold fldAddr
  omega

/-- A store to a register at another offset leaves a field, whatever the pages. -/
theorem getF_setF_of_off (s : State) (p q : Page) (f g : Fld) (n : Nat) (hhi : f.hi < 32) (hf : f.off < 0x1000) (hg : g.off < 0x1000)
    (h : f.off ≠ g.off) : (s.setF p f n).getF q g = s.getF q g :=
  getF_setF_of_disjoint s p q f g n hhi (.inl (fldAddr_ne_of_off hf hg h))

/-- A field of k bits reads as a stored number that fits. -/
theorem getF_setF_of_fits (s : State) (p : Page) (f : Fld) (n k : Nat) (hk : f.hi + 1 - f.lo = k) (hn : n < 2 ^ k) (hlo : f.lo ≤ f.hi)
    (hhi : f.hi < 32) : (s.setF p f n).getF p f = n := by
  rw [getF_setF_self s p f n hlo hhi, hk, Nat.mod_eq_of_lt hn]

theorem getF_of_regs_eq {s t : State} (h : t.regs = s.regs) (p : Page) (f : Fld) : t.getF p f = s.getF p f := by
  simp only [State.getF, State.reg, h]

theorem txN_lt (s : State) (p : PortId) : s.txN p < 65536 := bits_lt _ _ _

/-! ## Updates of a port's data -/

theorem port_of_ports_eq {s t : State} (h : t.ports = s.ports) (p : PortId) : t.port p = s.port p := by
  unfold State.port
  rw [h]

theorem port_setPort_self (s : State) (p : PortId) (x : PortSt) : (s.setPort p x).port p = x := by
  simp only [State.port, State.setPort, Laws.mget_mset_self]

/-- An update that keeps a port's unacknowledged flits keeps every port's. -/
theorem flits_updPort {f : PortSt → PortSt} (hf : ∀ x, (f x).flits = x.flits) (s : State) (p q : PortId) :
    ((s.updPort q f).port p).flits = (s.port p).flits := by
  by_cases h : p.no = q.no
  · simp only [State.port, State.updPort, State.setPort, h, Laws.mget_mset_self, hf]
  · simp only [State.port, State.updPort, State.setPort, Laws.mget_mset_of_ne _ _ _ _ _ _ h]

/-! ## What may follow an acknowledgement leaves the sender's window -/

/-- The unacknowledged flits of a port, A and N are the same. -/
structure SameWindow (p : PortId) (s t : State) : Prop where
  flits : (t.port p).flits = (s.port p).flits
  txA : t.txA p = s.txA p
  txN : t.txN p = s.txN p

section
variable {p : PortId} {s t : State}

theorem SameWindow.refl (p : PortId) (s : State) : SameWindow p s s := ⟨rfl, rfl, rfl⟩

theorem SameWindow.trans {u : State} (h : SameWindow p s t) (k : SameWindow p t u) : SameWindow p s u :=
  ⟨k.flits.trans h.flits, k.txA.trans h.txA, k.txN.trans h.txN⟩

/-- The window lies in the ports' data and the registers alone. -/
theorem sameWindow_of_eq (hports : t.ports = s.ports) (hregs : t.regs = s.regs) : SameWindow p s t :=
  ⟨by simp only [State.port, hports], getF_of_regs_eq hregs _ _, getF_of_regs_eq hregs _ _⟩

/-- A and N stand at offset 0x208; a store elsewhere leaves them. -/
theorem sameWindow_setF (p : PortId) (s : State) (q : Page) (f : Fld) (n : Nat) (hhi : f.hi < 32) (hf : f.off < 0x1000) (hoff : f.off ≠ 0x208) :
    SameWindow p s (s.setF q f n) :=
  ⟨rfl, getF_setF_of_off s q p.page f R.oport.SEQ_TX_OLDEST n hhi hf (by decide) hoff,
    getF_setF_of_off s q p.page f R.oport.SEQ_TX_NEXT n hhi hf (by decide) hoff⟩

theorem sameWindow_updPort {f : PortSt → PortSt} (hf : ∀ x, (f x).flits = x.flits) (p q : PortId) (s : State) :
    SameWindow p s (s.updPort q f) :=
  ⟨flits_updPort hf s p q, rfl, rfl⟩

theorem sameWindow_emit (p : PortId) (s : State) (o : Out) : SameWindow p s (s.emit o) := sameWindow_of_eq rfl rfl

theorem sameWindow_setOe (p : PortId) (s : State) (h : Half) (o : Nat) (x : OeSt) : SameWindow p s (s.setOe h o x) :=
  sameWindow_of_eq rfl rfl

theorem sameWindow_ite {c : Prop} [Decidable c] {u : State} (ht : SameWindow p s t) (hu : SameWindow p s u) :
    SameWindow p s (if c then t else u) := by
  split
  · exact ht
  · exact hu

theorem sameWindow_foldOver {α : Type} {f : α → State → State} (hf : ∀ a t, SameWindow p t (f a t)) (l : List α) (s : State) :
    SameWindow p s (foldOver l f s) :=
  Laws.foldOver_keeps (SameWindow p s) f l s (.refl p s) fun a t h => h.trans (hf a t)

end

section
variable (p q : PortId) (s : State)

theorem sameWindow_setMembers_lstate (n : Nat) : SameWindow p s (s.setMembers q R.oport.LINK_STS_LSTATE n) := by
  unfold State.setMembers
  refine sameWindow_foldOver (fun m t => ?_) _ s
  exact sameWindow_setF p t m.page R.oport.LINK_STS_LSTATE n (by decide) (by decide) (by decide)

theorem sameWindow_sendCtl (type : Nat) (body : List Byte) : SameWindow p s (s.sendCtl q type body) :=
  sameWindow_updPort (by intro; rfl) p (s.lead q) s

theorem sameWindow_emitFlit (h : FlitHdr) (pay : List Byte) (bad : Bool) : SameWindow p s (s.emitFlit q h pay bad) :=
  (sameWindow_updPort (by intro; rfl) p q s).trans (sameWindow_emit p _ _)

theorem sameWindow_sendCtlFlit : SameWindow p s (s.sendCtlFlit q) := by
  simp only [State.sendCtlFlit]
  exact (sameWindow_emitFlit p q s _ _ _).trans (sameWindow_updPort (by intro; rfl) p q _)

/-- A DIM writes the power state of the OE and the states of its ports. -/
theorem sameWindow_dimCheck (h : Half) (o : Fin 8) : SameWindow p s (s.dimCheck h o) := by
  simp only [State.dimCheck]
  refine sameWindow_ite ?_ (.refl p s)
  refine .trans ?oe (sameWindow_foldOver (fun m t => sameWindow_ite ?port (.refl p t)) _ _)
  case oe =>
    exact (sameWindow_setOe p s h o.val _).trans (sameWindow_setF p _ (.oe h o) R.oe.BLK_STS_PSTATE 2 (by decide) (by decide) (by decide))
  case port => exact sameWindow_setF p t m.page R.oport.BLK_STS_OSTATE 5 (by decide) (by decide) (by decide)

theorem sameWindow_goAsleep : SameWindow p s (s.goAsleep q) := by
  unfold State.goAsleep
  exact ((sameWindow_setMembers_lstate p q s 3).trans (sameWindow_updPort (by intro; rfl) p q _)).trans (sameWindow_dimCheck p _ _ _)

/-- The steps of the sleep exchange send control messages and change link states. -/
theorem sameWindow_sleepCheck : SameWindow p s (s.sleepCheck q) := by
  simp only [State.sleepCheck]
  refine sameWindow_ite (.refl p s) (sameWindow_ite ?_ (sameWindow_ite (sameWindow_goAsleep p q s) (.refl p s)))
  exact ((sameWindow_sendCtl p q s 8 []).trans (sameWindow_sendCtlFlit p q _)).trans (sameWindow_goAsleep p q _)

end

/-! ## An event of a port changes its bit, and nothing of any port besides -/

/-- Ports, and the registers of their pages, are the same. -/
structure SamePorts (s t : State) : Prop where
  ports : t.ports = s.ports
  regs : ∀ (p : PortId) (f : Fld), f.off < 0x1000 → t.getF p.page f = s.getF p.page f

section
variable {s t : State}

theorem SamePorts.refl (s : State) : SamePorts s s := ⟨rfl, fun _ _ _ => rfl⟩

theorem SamePorts.trans {u : State} (h : SamePorts s t) (k : SamePorts t u) : SamePorts s u :=
  ⟨k.ports.trans h.ports, fun p f hf => (k.regs p f hf).trans (h.regs p f hf)⟩

theorem samePorts_of_eq (hports : t.ports = s.ports) (hregs : t.regs = s.regs) : SamePorts s t :=
  ⟨hports, fun p f _ => getF_of_regs_eq hregs p.page f⟩

/-- A page of no optical port. -/
def NoPort (q : Page) : Prop := ∀ p : PortId, q ≠ p.page

theorem samePorts_setF {q : Page} (hq : NoPort q) (s : State) (f : Fld) (n : Nat) (hhi : f.hi < 32) (hf : f.off < 0x1000) :
    SamePorts s (s.setF q f n) :=
  ⟨rfl, fun p g hg => getF_setF_of_disjoint s q p.page f g n hhi (.inl (Laws.pageBase_ne q p.page f.off g.off hf hg (hq p)))⟩

end

theorem samePorts_ite {c : Prop} [Decidable c] {s t u : State} (ht : SamePorts s t) (hu : SamePorts s u) :
    SamePorts s (if c then t else u) := by
  split
  · exact ht
  · exact hu

theorem noPort_comb (h : Half) : NoPort (.comb h) := fun _ => nofun
theorem noPort_pcie (h : Half) : NoPort (.pcie h) := fun _ => nofun
theorem noPort_hbmPage (h : Half) (i : Nat) : NoPort (hbmPage h i) := fun _ => nofun
theorem noPort_gPwr : NoPort .gPwr := fun _ => nofun

theorem noPort_placePage (s : State) (a : Nat) : NoPort (s.placePage a) := by
  unfold State.placePage
  split <;> exact fun _ => nofun

/-! ### Messages to the host -/

section
variable (s : State)

theorem samePorts_drawn (n : Nat) : SamePorts s (s.drawn n) := samePorts_of_eq rfl rfl
theorem samePorts_emit (o : Out) : SamePorts s (s.emit o) := samePorts_of_eq rfl rfl
theorem samePorts_setRing (h : Half) (x : ErrRing) : SamePorts s (s.setRing h x) := samePorts_of_eq (by simp) (by simp)
theorem samePorts_setFnst (f : Fn) (x : FnSt) : SamePorts s (s.setFnst f x) := samePorts_of_eq (by simp) (by simp)
theorem samePorts_setHport (h : Half) (x : HPort) : SamePorts s (s.setHport h x) := samePorts_of_eq (by simp) (by simp)
theorem samePorts_setCache (h : Half) (c : List (Nat × CLine)) : SamePorts s (s.setCache h c) := by
  cases h <;> exact samePorts_of_eq rfl rfl

theorem samePorts_sendOn_msi (h : Half) (f : Fn) (v : Nat) : SamePorts s (s.sendOn h (.msi f v)) := by
  simp only [State.sendOn]
  exact ((samePorts_setHport s h _).trans
    (samePorts_setF (noPort_pcie h) _ R.pcie.MSI_CNT_COUNT _ (by decide) (by decide))).trans (samePorts_emit _ _)

theorem samePorts_hostIssue_msi (f : Fn) (v : Nat) : SamePorts s (s.hostIssue (.msi f v)) := by
  unfold State.hostIssue
  split
  · exact .refl s
  · exact samePorts_ite (samePorts_sendOn_msi s _ f v) (samePorts_ite (.refl s) (samePorts_setHport s _ _))

theorem samePorts_raiseVec (f : Fn) (v : Nat) : SamePorts s (s.raiseVec f v) := by
  unfold State.raiseVec
  split
  · exact .refl s
  · exact samePorts_ite (samePorts_setFnst s _ _) (samePorts_hostIssue_msi s f v)

/-! ### Error records (14 R423 to R428) -/

variable (h : Half)

theorem samePorts_raiseErrVec : SamePorts s (s.raiseErrVec h) := samePorts_ite (samePorts_raiseVec s _ _) (.refl s)

theorem samePorts_ringSts : SamePorts s (s.ringSts h) :=
  (samePorts_setF (noPort_comb h) s R.comb.ERR_RING_STS_HELD _ (by decide) (by decide)).trans
    (samePorts_setF (noPort_comb h) _ R.comb.ERR_RING_STS_FULL _ (by decide) (by decide))

theorem samePorts_holdRec (r : ErrRec) : SamePorts s (s.holdRec h r) :=
  samePorts_ite ((samePorts_setRing s h _).trans (samePorts_ringSts _ h))
    (samePorts_setF (noPort_comb h) s R.comb.ERR_RING_STS_LOST _ (by decide) (by decide))

theorem samePorts_countRec (fatal : Bool) : SamePorts s (s.countRec h fatal) := by
  have hall := samePorts_setF (noPort_comb h) s R.comb.ALL_CNT_COUNT (satAdd R.comb.ALL_CNT_COUNT.width
    (s.getF (.comb h) R.comb.ALL_CNT_COUNT) 1) (by decide) (by decide)
  exact samePorts_ite (hall.trans (samePorts_setF (noPort_comb h) _ R.comb.FATAL_CNT_COUNT _ (by decide) (by decide))) hall

theorem samePorts_dirSts : SamePorts s s.dirSts :=
  (samePorts_setF (noPort_comb .A) s R.comb.DIR_STS_REMOTE_LINES _ (by decide) (by decide)).trans
    (samePorts_setF (noPort_comb .B) _ R.comb.DIR_STS_REMOTE_LINES _ (by decide) (by decide))

theorem samePorts_fence {q : Page} (hq : NoPort q) : SamePorts s (s.fence q) :=
  (samePorts_setF hq s R.hdr.BLK_STS_FENCED _ (by decide) (by decide)).trans
    (samePorts_setF hq _ R.hdr.BLK_STS_READY _ (by decide) (by decide))

/-- A discarded record leaves an event of the page that discarded it. -/
theorem samePorts_ringDrop {q : Page} (hq : NoPort q) (n a : Nat) : SamePorts s (s.ringDrop h q n a) := by
  have hsts := samePorts_ite (c := decide (n < 32) = true)
    (samePorts_setF hq s R.hdr.ERR_STS (s.getF q R.hdr.ERR_STS ||| 2 ^ n) (by decide) (by decide)) (.refl s)
  simp only [State.ringDrop]
  have hfence : ∀ (c : Bool) (t : State), SamePorts t (if c then t.fence q else t) := fun _ t =>
    samePorts_ite (samePorts_fence t hq) (.refl t)
  refine (hsts.trans (hfence _ _)).trans (samePorts_ite (.refl _) ?_)
  exact ((samePorts_drawn _ 2).trans (samePorts_countRec _ h _)).trans (samePorts_holdRec _ h _)

theorem samePorts_ringStore (a : Nat) (b : List Byte) : SamePorts s (s.ringStore h a b) := by
  unfold State.ringStore
  split
  · exact samePorts_ringDrop s h (noPort_comb h) _ _
  · refine samePorts_ite (samePorts_ringDrop s h (noPort_comb _) _ _) (samePorts_ite ?refused ?stored)
    case refused =>
      split
      · exact samePorts_ringDrop s h (noPort_hbmPage _ _) _ _
      · exact samePorts_ringDrop s h (noPort_placePage s a) _ _
    case stored =>
      refine (samePorts_ite ?_ (.refl s)).trans (samePorts_of_eq rfl rfl)
      exact (samePorts_setCache s _ _).trans (samePorts_dirSts _)

theorem samePorts_ringWrite (r : ErrRec) : SamePorts s (s.ringWrite h r) := by
  simp only [State.ringWrite]
  refine .trans ?_ (samePorts_ite (samePorts_raiseErrVec _ h) (.refl _))
  refine .trans ?_ (samePorts_ringSts _ h)
  exact (samePorts_ringStore s h _ _).trans (samePorts_setF (noPort_comb h) _ R.comb.ERR_PROD_PROD _ (by decide) (by decide))

theorem samePorts_pushRec (r : ErrRec) : SamePorts s (s.pushRec h r) := by
  simp only [State.pushRec]
  refine (samePorts_countRec s h _).trans (samePorts_ite ?_ (samePorts_holdRec _ h _))
  exact (samePorts_setRing _ h _).trans (samePorts_ringWrite _ h _)

theorem samePorts_journal (type : Nat) (body : List Byte) : SamePorts s (s.journal type body) := by
  simp only [State.journal]
  refine samePorts_ite (.trans ?_ (samePorts_setF noPort_gPwr _ R.pwrG.NV_STS_QUEUED _ (by decide) (by decide))) (.refl s)
  exact samePorts_of_eq rfl rfl

/-- A record goes to a ring of a comb die and to the journal. -/
theorem samePorts_record (p : Page) (n kind : Nat) (fatal irq : Bool) (e : Ev) : SamePorts s (s.record p n kind fatal irq e) := by
  simp only [State.record]
  refine samePorts_ite ?folded ?written
  case folded =>
    refine .trans ?_ (samePorts_setF (noPort_comb _) _ R.comb.COALESCED_COUNT _ (by decide) (by decide))
    exact samePorts_of_eq rfl rfl
  case written =>
    refine samePorts_ite (.trans (.trans ?_ (samePorts_pushRec _ _ _)) (samePorts_journal _ _ _)) (.trans ?_ (samePorts_pushRec _ _ _))
    all_goals exact samePorts_ite (samePorts_of_eq rfl rfl) (samePorts_of_eq rfl rfl)

end

/-! ## An ACK value (07 R231) -/

/-- A link event sets its bit, and its record leaves the ports. -/
theorem samePorts_linkEvt (s : State) (p : PortId) (n : Nat) (inj : Bool) :
    SamePorts (s.setF p.page { R.oport.LINK_EVT_DOWN with hi := n, lo := n } 1) (s.linkEvt p n inj) := by
  unfold State.linkEvt
  exact samePorts_ite (.refl _) (samePorts_record _ _ _ _ _ _ _)

theorem dist16_self (a : Nat) : dist16 a a = 0 := by
  unfold dist16
  omega

theorem takeAck_of_oldest (s : State) (p : PortId) : s.takeAck p (s.txA p) = s := by
  simp only [State.takeAck, dist16_self, if_true]

/-- A value beyond N is an event and nothing else. -/
theorem takeAck_of_beyond {p : PortId} {a : Nat} {s : State} (hd : dist16 (s.txA p) (s.txN p) < dist16 (s.txA p) a) :
    s.takeAck p a = s.linkEvt p 7 := by
  have hne : dist16 (s.txA p) a ≠ 0 := by omega
  simp only [State.takeAck, if_neg hne, if_pos hd]

/-- The flits, messages and replay that an ACK value leaves. -/
def ackedPort (o n a : Nat) (x : PortSt) : PortSt :=
  { x with
    flits := x.flits.filter (fun f => dist16 o f.seq ≥ dist16 o a)
    msgs := x.msgs.filter (fun e => dist16 o e.1 ≥ dist16 o a)
    rpCount := 0
    replay := match x.replay with
      | some k => if dist16 o k < dist16 o a then (if a = n then none else some a) else some k
      | none => none }

theorem takeAck_of_within {p : PortId} {a : Nat} {s : State} (h1 : 1 ≤ dist16 (s.txA p) a)
    (hd : dist16 (s.txA p) a ≤ dist16 (s.txA p) (s.txN p)) :
    s.takeAck p a = ((s.updPort p (ackedPort (s.txA p) (s.txN p) a)).setTx p a (s.txN p)).sleepCheck p := by
  have hne : dist16 (s.txA p) a ≠ 0 := by omega
  have hle : ¬ dist16 (s.txA p) a > dist16 (s.txA p) (s.txN p) := by omega
  simp only [State.takeAck, if_neg hne, if_neg hle]
  rfl

theorem setTx_eq (s : State) (p : PortId) (a n : Nat) :
    s.setTx p a n =
      ((s.setF p.page R.oport.SEQ_TX_OLDEST (a % 65536)).setF p.page R.oport.SEQ_TX_NEXT (n % 65536)).setF p.page R.oport.SEQ_RX_UNACKED
        (dist16 a n) := rfl

theorem ports_setTx (s : State) (p : PortId) (a n : Nat) : (s.setTx p a n).ports = s.ports := by
  rw [setTx_eq, State.setF_ports, State.setF_ports, State.setF_ports]

theorem txA_setTx (s : State) (p : PortId) (a n : Nat) : (s.setTx p a n).txA p = a % 65536 := by
  have hfits : a % 65536 < 2 ^ 16 := Nat.mod_lt _ (by decide)
  rw [setTx_eq, State.txA, getF_setF_of_off _ _ _ _ _ _ (by decide) (by decide) (by decide) (by decide),
    getF_setF_of_disjoint _ _ _ _ _ _ (by decide) (.inr (.inr (by decide))), getF_setF_of_fits _ _ _ _ 16 rfl hfits (by decide) (by decide)]

theorem txN_setTx (s : State) (p : PortId) (a n : Nat) : (s.setTx p a n).txN p = n % 65536 := by
  have hfits : n % 65536 < 2 ^ 16 := Nat.mod_lt _ (by decide)
  rw [setTx_eq, State.txN, getF_setF_of_off _ _ _ _ _ _ (by decide) (by decide) (by decide) (by decide),
    getF_setF_of_fits _ _ _ _ 16 rfl hfits (by decide) (by decide)]

/-- Settles O52: the sleep exchange that may follow leaves the window an acknowledgement stores, and the record of the event for a value beyond
N leaves the ports. -/
theorem acknowledgements : Obligations.Acknowledgements := by
  unfold Obligations.Acknowledgements
  refine ⟨?within, fun p s => takeAck_of_oldest s p, ?beyond⟩
  case within =>
    intro p a s ha h1 hd
    rw [takeAck_of_within h1 hd]
    obtain ⟨hflits, hA, hN⟩ := sameWindow_sleepCheck p p ((s.updPort p (ackedPort (s.txA p) (s.txN p) a)).setTx p a (s.txN p))
    refine ⟨?_, ?_, ?_⟩
    · rw [hflits, port_of_ports_eq (ports_setTx _ p a _), State.updPort, port_setPort_self]
      simp only [ackedPort, ge_iff_le, ← decide_not, Nat.not_lt]
    · rw [hA, txA_setTx, Nat.mod_eq_of_lt ha]
    · rw [hN, txN_setTx, Nat.mod_eq_of_lt (txN_lt s p)]
  case beyond =>
    intro p a s _ hd
    rw [takeAck_of_beyond hd]
    obtain ⟨hports, hregs⟩ := samePorts_linkEvt s p 7 false
    refine ⟨?_, ?_, ?_, ?_⟩
    · rw [hregs p _ (by decide)]
      exact getF_setF_of_fits s p.page R.oport.LINK_EVT_ACK_BAD 1 1 rfl (by decide) (by decide) (by decide)
    · exact port_of_ports_eq (hports.trans (State.setF_ports ..)) p
    · exact (hregs p _ (by decide)).trans (getF_setF_of_off s _ _ _ _ _ (by decide) (by decide) (by decide) (by decide))
    · exact (hregs p _ (by decide)).trans (getF_setF_of_off s _ _ _ _ _ (by decide) (by decide) (by decide) (by decide))

end Sys2Proof.Proofs

/-! SUPPORT and statement: what a sending slot of a link that is UP carries, the ACK timer, replays and the spill ring (07 R211 to R214, R233,
R234, R236; 13 R412). -/

namespace Sys2Proof.Proofs

open Sys2Proof.Machine

section
variable {p : PortId} {s : State} (ha : s.answers (s.lead p).page = true) (hup : s.linkUp (s.lead p) = true)
include ha hup

/-! ## FLIT_SEND (07 R214) -/

/-- A slot in which an ALIGN flit is due, or that follows 4,095 slots without one. -/
theorem flitSend_of_alignDue (hdue : (s.port (s.lead p)).alignDue = true ∨ 4095 ≤ (s.port (s.lead p)).alignGap) :
    flitSend p s =
      (s.emitFlit (s.lead p) (s.hdrNow (s.lead p) 3 (s.txN (s.lead p)) 0 0 false) [] false).updPort (s.lead p)
        (fun x => { x with alignDue := false, ctlGap := x.ctlGap + 1 }) := by
  have hslot : ((s.port (s.lead p)).alignDue || decide ((s.port (s.lead p)).alignGap ≥ 4095)) = true := by simpa using hdue
  simp only [flitSend, ha, hup, hslot, Bool.and_self, Bool.not_true, if_neg Bool.false_ne_true, if_true]

section
variable (hdue : (s.port (s.lead p)).alignDue = false) (hgap : (s.port (s.lead p)).alignGap < 4095)
include hdue hgap

/-- A running replay goes before everything but ALIGN flits. -/
theorem flitSend_of_replay {k : Nat} (hreplay : (s.port (s.lead p)).replay = some k) : flitSend p s = s.sendReplay (s.lead p) k := by
  have hslot : ¬ (s.port (s.lead p)).alignGap ≥ 4095 := by omega
  simp only [flitSend, ha, hup, hdue, hslot, hreplay, decide_false, Bool.and_self, Bool.not_true, Bool.or_self,
    if_neg Bool.false_ne_true]

/-- Without a replay: control messages where no data may go or 15 slots have passed, else data of the other channel than last, else of the
same, else a CTL flit. -/
theorem flitSend_of_noReplay (hreplay : (s.port (s.lead p)).replay = none) :
    flitSend p s =
      (let q := s.lead p
       let x := s.port q
       let a := s.mayData q (!x.lastRsp)
       let b := s.mayData q x.lastRsp
       if !x.ctl.isEmpty && (!(a || b) || x.ctlGap ≥ 15) then s.sendCtlFlit q
       else if a then s.sendData q (!x.lastRsp)
       else if b then s.sendData q x.lastRsp
       else s.sendCtlFlit q) := by
  have hslot : ¬ (s.port (s.lead p)).alignGap ≥ 4095 := by omega
  simp only [flitSend, ha, hup, hdue, hslot, hreplay, decide_false, Bool.and_self, Bool.not_true, Bool.or_self,
    if_neg Bool.false_ne_true]

end

/-! ## Timers (07 R230, R233) -/

theorem ackUpdateTimer_of_owed (hsince : 0 < (s.port (s.lead p)).sinceAck) :
    ackUpdateTimer p s = s.updPort (s.lead p) (fun x => { x with ackOut := s.rxE (s.lead p), sinceAck := 0 }) :=
  if_pos (by rw [ha, hup, decide_eq_true hsince]; rfl)

theorem replayTimeout_of_unacknowledged (hopen : s.txA (s.lead p) ≠ s.txN (s.lead p)) :
    replayTimeout p s = s.startReplay (s.lead p) (s.txA (s.lead p)) :=
  if_pos (by rw [ha, hup, decide_eq_true hopen]; rfl)

end

/-- An uncorrectable read of the spill ring drops the link (07 R235, Table 7.8). -/
theorem spillRead_of_uncorrectable {p : PortId} {ue : Bool} {s : State} (ha : s.answers (s.lead p).page = true) (hue : ue = true) :
    spillRead p ue s = s.linkDown (s.lead p) 0xB :=
  if_pos (by rw [ha, hue]; rfl)

/-- Settles O35, by the order of a sending slot and the lemma of each timer. -/
theorem flitSending : Obligations.FlitSending := by
  unfold Obligations.FlitSending
  refine ⟨?align, ?replay, ?fresh, ?ackTimer, ?replayTimer, ?spill⟩
  case align =>
    intro p s q ha hup hdue
    exact next_of_effect (flitSend_of_alignDue ha hup hdue)
  case replay =>
    intro p k s q ha hup hdue hgap hreplay
    exact next_of_effect (flitSend_of_replay ha hup hdue hgap hreplay)
  case fresh =>
    intro p s q ha hup hdue hgap hreplay
    exact next_of_effect (flitSend_of_noReplay ha hup hdue hgap hreplay)
  case ackTimer =>
    intro p s q ha hup hsince
    exact next_of_effect (ackUpdateTimer_of_owed ha hup hsince)
  case replayTimer =>
    intro p s q ha hup hopen
    exact next_of_effect (replayTimeout_of_unacknowledged ha hup hopen)
  case spill =>
    intro p ue s q ha hue
    exact next_of_effect (spillRead_of_uncorrectable ha hue)

end Sys2Proof.Proofs

/-! SUPPORT and statement: what a received flit of a link that is UP leaves, and the injections of a port (07 R212, R213, R225 to R232, R237,
R239, R244; 13 R413). -/

namespace Sys2Proof.Proofs

open Sys2Proof.Machine

/-! ## DATA_FLIT_RECEIVE (07 R223 to R232) -/

theorem noRoom_of_notData {s : State} {q : PortId} {x : FlitHdr} (hkind : 2 ≤ x.kind) : s.noRoom q x = false := by
  simp [State.noRoom, Nat.not_lt.mpr hkind]

section
variable {p : PortId} {flit : List Byte} {s : State} (ha : s.answers (s.lead p).page = true) (hup : s.linkUp (s.lead p) = true)
include ha hup

/-- Nothing of a flit that fails CRC is used. -/
theorem dataFlitReceive_of_badCrc (hbad : flitGood flit = false) :
    dataFlitReceive p flit s = s.takeHeader (s.lead p) false (hdrOf flit) := by
  simp only [dataFlitReceive, ha, hup, hbad, Bool.and_self, Bool.false_and, Bool.not_true, Bool.not_false, Bool.or_true, Bool.true_or,
    if_neg Bool.false_ne_true, if_true]

section
variable (hgood : flitGood flit = true)
include hgood

/-- An armed DROP_RX takes the next data flit as bad, and disarms. -/
theorem dataFlitReceive_of_dropped (hdrop : (s.port (s.lead p)).dropRx = true) (hdata : (hdrOf flit).kind < 2) :
    dataFlitReceive p flit s =
      (s.updPort (s.lead p) (fun x => { x with dropRx := false })).takeHeader (s.lead p) false (hdrOf flit) := by
  simp only [dataFlitReceive, ha, hup, hgood, hdrop, decide_eq_true hdata, Bool.and_self, Bool.and_false, Bool.false_and, Bool.not_true,
    Bool.not_false, Bool.or_true, Bool.true_or, if_neg Bool.false_ne_true, if_true]

/-- A data flit that finds its buffer full is taken as bad. -/
theorem dataFlitReceive_of_noRoom (hdrop : ((s.port (s.lead p)).dropRx && decide ((hdrOf flit).kind < 2)) = false)
    (hfull : s.noRoom (s.lead p) (hdrOf flit) = true) :
    dataFlitReceive p flit s = (s.linkEvt (s.lead p) 13).takeHeader (s.lead p) false (hdrOf flit) := by
  simp only [dataFlitReceive, ha, hup, hgood, hdrop, hfull, Bool.and_self, Bool.and_false, Bool.true_and, Bool.not_true,
    Bool.not_false, Bool.or_true, Bool.true_or, if_neg Bool.false_ne_true, if_true]

/-- Of a good flit that is no data flit, the header is all. -/
theorem dataFlitReceive_of_notData (hkind : 2 ≤ (hdrOf flit).kind) :
    dataFlitReceive p flit s = s.takeHeader (s.lead p) true (hdrOf flit) := by
  have hroom := noRoom_of_notData (s := s) (q := s.lead p) hkind
  have hdata : ¬ (hdrOf flit).kind < 2 := by omega
  simp only [dataFlitReceive, ha, hup, hgood, hroom, hdata, decide_false, decide_eq_true hkind, ge_iff_le, Bool.and_self, Bool.and_false,
    Bool.not_true, Bool.not_false, Bool.or_true, if_neg Bool.false_ne_true, if_true]

/-- A good data flit with room is taken by its number after its header, if the link is still UP then. -/
theorem dataFlitReceive_of_data (hdata : (hdrOf flit).kind < 2) (hdrop : (s.port (s.lead p)).dropRx = false)
    (hroom : s.noRoom (s.lead p) (hdrOf flit) = false) (hstill : (s.takeHeader (s.lead p) true (hdrOf flit)).linkUp (s.lead p) = true) :
    dataFlitReceive p flit s = (s.takeHeader (s.lead p) true (hdrOf flit)).takeData (s.lead p) (hdrOf flit) flit := by
  have hkind : ¬ (hdrOf flit).kind ≥ 2 := by omega
  simp only [dataFlitReceive, ha, hup, hgood, hdrop, hroom, hstill, hkind, decide_false, Bool.and_self, Bool.and_false, Bool.false_and,
    Bool.not_true, Bool.not_false, Bool.or_self, if_neg Bool.false_ne_true]

end

theorem refreshLost_of_up :
    refreshLost p s = (s.updPort (s.lead p) (fun x => { x with stale := true })).linkEvt (s.lead p) 10 :=
  if_pos (by rw [ha, hup]; rfl)

end

/-! ## LINK_INJ (07 R244) -/

section
variable {m : Master} {p : PortId} {s : State}

theorem dropRx_of_injectable (ha : s.answers p.page = true) (hinj : s.isSet .sec R.sec.SEC_CTL_INJ_DIS = false) :
    dropRx m p s = s.updPort (s.lead p) (fun x => { x with dropRx := true }) :=
  if_pos (by rw [ha, hinj]; rfl)

theorem crcTx_of_injectable (ha : s.answers p.page = true) (hinj : s.isSet .sec R.sec.SEC_CTL_INJ_DIS = false) :
    crcTx m p s = s.updPort (s.lead p) (fun x => { x with crcTx := true }) :=
  if_pos (by rw [ha, hinj]; rfl)

theorem dropRx_of_disabled (hinj : s.isSet .sec R.sec.SEC_CTL_INJ_DIS = true) : dropRx m p s = s :=
  if_neg (by rw [hinj, Bool.not_true, Bool.and_false]; exact Bool.false_ne_true)

theorem crcTx_of_disabled (hinj : s.isSet .sec R.sec.SEC_CTL_INJ_DIS = true) : crcTx m p s = s :=
  if_neg (by rw [hinj, Bool.not_true, Bool.and_false]; exact Bool.false_ne_true)

end

/-- Settles O36, by the class of the flit and the lemma of each other command. -/
theorem flitReceiving : Obligations.FlitReceiving := by
  unfold Obligations.FlitReceiving
  refine ⟨?badCrc, ?dropped, ?full, ?notData, ?data, ?align, ?refresh, ?dropRx, ?noDropRx, ?crcTx, ?noCrcTx⟩
  case badCrc =>
    intro p flit s q ha hup hbad
    exact next_of_effect (dataFlitReceive_of_badCrc ha hup hbad)
  case dropped =>
    intro p flit s q ha hup hgood hdrop hdata
    exact next_of_effect (dataFlitReceive_of_dropped ha hup hgood hdrop hdata)
  case full =>
    intro p flit s q ha hup hgood hdrop hfull
    exact next_of_effect (dataFlitReceive_of_noRoom ha hup hgood hdrop hfull)
  case notData =>
    intro p flit s q ha hup hgood hkind
    exact next_of_effect (dataFlitReceive_of_notData ha hup hgood hkind)
  case data =>
    intro p flit s q x ha hup hgood hdata hdrop hroom hstill
    exact next_of_effect (dataFlitReceive_of_data ha hup hgood hdata hdrop hroom hstill)
  case align =>
    intro p lanes s ha hup
    exact next_of_effect (ite_of_portUp ha hup)
  case refresh =>
    intro p s q ha hup
    exact next_of_effect (refreshLost_of_up ha hup)
  case dropRx =>
    intro m p s hm ha hinj
    exact next_of_reaches hm (dropRx_of_injectable ha hinj)
  case noDropRx =>
    intro m p s hm hinj
    exact next_of_reaches hm (dropRx_of_disabled hinj)
  case crcTx =>
    intro m p s hm ha hinj
    exact next_of_reaches hm (crcTx_of_injectable ha hinj)
  case noCrcTx =>
    intro m p s hm hinj
    exact next_of_reaches hm (crcTx_of_disabled hinj)

end Sys2Proof.Proofs

/-! SUPPORT and statement: link down, hold, training messages, failed trainings, sleep and wake (07 R216 to R222, R226, R238 to R242). -/

namespace Sys2Proof.Proofs

open Sys2Proof.Machine

/-! ## Causes of a link down (07 R226, R239, R240, Table 7.8) -/

theorem xoffTimeout_of_held {p : PortId} {s : State} (ha : s.answers (s.lead p).page = true) (hup : s.linkUp (s.lead p) = true)
    (hxoff : s.isSet (s.lead p).page R.oport.LINK_STS_XOFF_REQ = true ∨ s.isSet (s.lead p).page R.oport.LINK_STS_XOFF_RSP = true ∨
      (s.port (s.lead p)).stale = true) :
    xoffTimeout p s = s.linkDown (s.lead p) 5 := by
  have hheld : (s.isSet (s.lead p).page R.oport.LINK_STS_XOFF_REQ || s.isSet (s.lead p).page R.oport.LINK_STS_XOFF_RSP ||
      (s.port (s.lead p)).stale) = true := by simpa [or_assoc] using hxoff
  exact if_pos (by rw [ha, hup, hheld]; rfl)

/-- On a full or bonded link a lane without lock takes the link down, unless its duplicate absorbs it. -/
theorem lockLossTimeout_of_wide {p : PortId} {lane : Fin 16} {s : State} (ha : s.answers p.page = true) (hup : s.linkUp (s.lead p) = true)
    (hwide : s.narrow (s.lead p) = false) (hlane : s.laneCh p R.oport.LANE_RX_CH lane.val ≠ 0xFF) :
    lockLossTimeout p lane s =
      match (s.port p).hoRx with
      | some e => if s.laneCh p R.oport.LANE_RX_CH lane.val = e.1 then s.switchRx p e.1 e.2 else s.linkDown (s.lead p) 2
      | none => s.linkDown (s.lead p) 2 :=
  if_neg (by rw [ha, hup, hwide, decide_eq_false hlane]; exact Bool.false_ne_true)

theorem lockLossTimeout_of_narrow {p : PortId} {lane : Fin 16} {s : State} (hnarrow : s.narrow (s.lead p) = true) :
    lockLossTimeout p lane s = s :=
  if_pos (by rw [hnarrow, Bool.or_true, Bool.true_or])

section
variable {p : PortId} {s : State} (ha : s.answers (s.lead p).page = true)
include ha

theorem retrainReq_of_up {cause : BitVec 4} {width : Nat} (hup : s.linkUp (s.lead p) = true) :
    retrainReq p cause width s =
      (s.linkDown (s.lead p) cause.toNat).updPort (s.lead p) (fun x => { x with trnW := if [4, 8, 16].contains width then width else 0 }) :=
  if_pos (by rw [ha, hup]; rfl)

theorem holdExpire_of_held (hheld : s.isHeldLink (s.lead p) = true) : holdExpire p s = (s.linkEvt (s.lead p) 3).holdFail (s.lead p) :=
  if_pos (by rw [ha, hheld]; rfl)

/-! ## Failed trainings (07 R222) -/

theorem trainStepTimeout_of_training (hst : s.lstate (s.lead p) = 1) : trainStepTimeout p s = s.trainFail (s.lead p) :=
  if_pos (by rw [ha, decide_eq_true hst]; rfl)

theorem waitingExpiry_of_waiting (hst : s.lstate (s.lead p) = 4) : waitingExpiry p s = s.leaveWaiting (s.lead p) :=
  if_pos (by rw [ha, decide_eq_true hst]; rfl)

/-! ## Sleep and wake (07 R238) -/

theorem sleepReq_of_up (hst : s.lstate (s.lead p) = 2) :
    sleepReq p s = (s.updPort (s.lead p) (fun x => { x with sleepFor := true })).sleepCheck (s.lead p) :=
  if_pos (by rw [ha, decide_eq_true hst]; rfl)

theorem sleepAck_of_asking (hst : s.lstate (s.lead p) = 2) (hask : (s.port (s.lead p)).asleep = true) :
    sleepAck p s = (s.updPort (s.lead p) (fun x => { x with sleepOk := true })).sleepCheck (s.lead p) :=
  if_pos (by rw [ha, decide_eq_true hst, hask]; rfl)

/-- A link whose OE is not DIM wakes: the pattern where a flit waits, UP, its open ports, and an ALIGN flit due. -/
theorem linkWake_of_asleep (hst : s.lstate (s.lead p) = 3) (hoe : s.pstate (s.lead p).half (s.lead p).oe ≠ 2) :
    linkWake p s =
      (let q := s.lead p
       let t := if (s.port q).txReq.isEmpty && (s.port q).txRsp.isEmpty then s else foldOver (s.bondOf q) (fun m s => s.emit (.wake m)) s
       let t := t.setMembers q R.oport.LINK_STS_LSTATE 2
       let t := foldOver (t.bondOf q) (fun m (t : State) =>
         if t.getF m.page R.oport.BLK_STS_OSTATE = 5 then t.setF m.page R.oport.BLK_STS_OSTATE 3 else t) t
       t.updPort q (fun x => { x with alignDue := true, waking := true })) :=
  if_pos (by rw [ha, decide_eq_true hst, decide_eq_true hoe]; rfl)

theorem sleepWakeTimeout_of_waking (hst : s.lstate (s.lead p) = 2) (hwaking : (s.port (s.lead p)).waking = true) :
    sleepWakeTimeout p s = (s.linkEvt (s.lead p) 9).linkDown (s.lead p) 0xA :=
  if_pos (by rw [ha, decide_eq_true hst, hwaking]; rfl)

end

/-! ### The steps of a failed training -/

section
variable {q : PortId} {s : State}

theorem trainFail_first (hfails : (s.port q).fails = 0) : s.trainFail q = s.updPort q (fun x => { x with fails := 1 }) := if_pos hfails

section
variable (hfails : (s.port q).fails ≠ 0)
include hfails

/-- A second failure runs a full link reset. -/
theorem trainFail_again (hresets : (s.port q).resets < 3) :
    s.trainFail q =
      ((s.updPort q (fun x => { x with fails := 0, resets := x.resets + 1, trn := none, trnW := 0, trnRes := none })).linkEvt q 1).retrainOptics
        (s.bondOf q) :=
  (if_neg hfails).trans (if_neg (Nat.not_le.mpr hresets))

/-- After three failed resets the port waits. -/
theorem trainFail_afterResets (hresets : 3 ≤ (s.port q).resets) :
    s.trainFail q = ((s.setMembers q R.oport.LINK_STS_LSTATE 4).updPort q (fun x => { x with fails := 0, resets := 0 })).linkEvt q 6 :=
  (if_neg hfails).trans (if_pos hresets)

end
end

/-! ## Training messages (07 R219, R221, R242) -/

section
variable {p : PortId} {s : State} (ha : s.answers p.page = true)
include ha

theorem partnerTrainingBlocks_of_answers : partnerTrainingBlocks p s = s.linkDown (s.lead p) 7 := if_pos ha

theorem trnParam_of_training {x : TrnParam} (hst : s.lstate p = 1) : trnParam p x s = s.updPort p (fun y => { y with trn := some x }) := by
  simp only [trnParam, ha, hst, Bool.not_true, if_neg Bool.false_ne_true, if_true]

/-- On a link that is UP it brings the partner's token (assumption 20). -/
theorem trnParam_of_up {x : TrnParam} (hst : s.lstate p = 2) : trnParam p x s = s.updPort p (fun y => { y with ptoken := x.token }) := by
  have hne : (2 : Nat) ≠ 1 := by decide
  simp only [trnParam, ha, hst, hne, Bool.not_true, if_neg Bool.false_ne_true, if_false, if_true]

theorem trnEcho_of_training {v : Word} (hst : s.lstate p = 1) :
    trnEcho p v s = s.trainMsg p 0x11 (bytesOf 1 0 ++ bytesOf 4 v.toNat) :=
  if_pos (by rw [ha, decide_eq_true hst]; rfl)

theorem trnDone_of_training {w : Nat} {resume : Bool} (hst : s.lstate p = 1) :
    trnDone p w resume s = s.updPort p (fun y => { y with trnW := if [4, 8, 16].contains w then w else y.trnW, trnRes := some resume }) :=
  if_pos (by rw [ha, decide_eq_true hst]; rfl)

end

/-- Settles O37: each command by the lemma about its case; TRN_PARAM on a link that is UP as assumption 20 reads it. -/
theorem linkStates : Obligations.LinkStates := by
  unfold Obligations.LinkStates
  refine ⟨?xoff, ?lockLoss, ?lockLossNarrow, ?blocks, ?retrain, ?hold, ?param, ?paramUp, ?echo, ?done, ?firstFail, ?secondFail, ?lastFail,
    ?waiting, ?sleepReq, ?sleepAck, ?wake, ?wakeTimeout⟩
  case xoff =>
    intro p s q ha hup hxoff
    exact next_of_effect (xoffTimeout_of_held ha hup hxoff)
  case lockLoss =>
    intro p lane s q ha hup hwide hlane
    exact next_of_effect (lockLossTimeout_of_wide ha hup hwide hlane)
  case lockLossNarrow =>
    intro p lane s hnarrow
    exact next_of_effect (lockLossTimeout_of_narrow hnarrow)
  case blocks =>
    intro p s ha
    exact next_of_effect (partnerTrainingBlocks_of_answers ha)
  case retrain =>
    intro p cause width s q ha hup
    exact next_of_effect (retrainReq_of_up ha hup)
  case hold =>
    intro p s q ha hheld
    exact next_of_effect (holdExpire_of_held ha hheld)
  case param =>
    intro p x s ha hst
    exact next_of_effect (trnParam_of_training ha hst)
  case paramUp =>
    intro p x s ha hst
    exact next_of_effect (trnParam_of_up ha hst)
  case echo =>
    intro p v s ha hst
    exact next_of_effect (trnEcho_of_training ha hst)
  case done =>
    intro p w resume s ha hst
    exact next_of_effect (trnDone_of_training ha hst)
  case firstFail =>
    intro p s q ha hst hfails
    exact next_of_effect ((trainStepTimeout_of_training ha hst).trans (trainFail_first hfails))
  case secondFail =>
    intro p s q ha hst hfails hresets
    exact next_of_effect ((trainStepTimeout_of_training ha hst).trans (trainFail_again hfails hresets))
  case lastFail =>
    intro p s q ha hst hfails hresets
    exact next_of_effect ((trainStepTimeout_of_training ha hst).trans (trainFail_afterResets hfails hresets))
  case waiting =>
    intro p s q ha hst
    exact next_of_effect (waitingExpiry_of_waiting ha hst)
  case sleepReq =>
    intro p s q ha hst
    exact next_of_effect (sleepReq_of_up ha hst)
  case sleepAck =>
    intro p s q ha hst hask
    exact next_of_effect (sleepAck_of_asking ha hst hask)
  case wake =>
    intro p s q ha hst hoe
    exact next_of_effect (linkWake_of_asleep ha hst hoe)
  case wakeTimeout =>
    intro p s q ha hst hwaking
    exact next_of_effect (sleepWakeTimeout_of_waking ha hst hwaking)

end Sys2Proof.Proofs

/-! SUPPORT and statement: the tags that a half may allocate (08 R267). -/

namespace Sys2Proof.Proofs

open Sys2Proof.Machine

/-- The tag that a half allocates is found among its 16,384, from the lowest on (assumption 17). -/
theorem freeTag_eq_find (s : State) (h : Half) :
    s.freeTag h = ((List.range 16384).find? (fun i => !mhas s.reqs (16384 * halfNo h + i))).map (16384 * halfNo h + ·) := by
  rw [State.freeTag, List.find?_map]
  rfl

/-- An allocated tag is the first free one of the half's range. -/
theorem freeTag_eq_some_iff {s : State} {h : Half} {t : Nat} :
    s.freeTag h = some t ↔
      ∃ i < 16384, t = 16384 * halfNo h + i ∧ mhas s.reqs t = false ∧ ∀ j < i, mhas s.reqs (16384 * halfNo h + j) = true := by
  rw [freeTag_eq_find, Option.map_eq_some_iff]
  simp only [List.find?_range_eq_some, List.mem_range, Bool.not_eq_true', Bool.not_not]
  constructor
  · rintro ⟨i, ⟨hfree, hi, hused⟩, rfl⟩
    exact ⟨i, hi, rfl, hfree, hused⟩
  · rintro ⟨i, hi, rfl, hfree, hused⟩
    exact ⟨i, ⟨hfree, hi, hused⟩, rfl⟩

/-- No tag is allocated exactly when each one of the half's range is in use. -/
theorem freeTag_eq_none_iff {s : State} {h : Half} :
    s.freeTag h = none ↔ ∀ i < 16384, mhas s.reqs (16384 * halfNo h + i) = true := by
  rw [freeTag_eq_find, Option.map_eq_none_iff, List.find?_range_eq_none]
  simp only [Bool.not_not]

/-- A property of each tag at or above a bound, by the tag's distance from it. -/
theorem forall_add_lt_iff {P : Nat → Prop} (a n : Nat) : (∀ i < n, P (a + i)) ↔ ∀ t, a ≤ t → t < a + n → P t := by
  constructor
  · intro hall t hat htn
    have hi := hall (t - a) (by omega)
    rwa [Nat.add_sub_cancel' hat] at hi
  · intro hall i hi
    exact hall (a + i) (Nat.le_add_right a i) (Nat.add_lt_add_left hi a)

/-- Settles O59: a tag is found where the search over the half's range stops, and none where it runs to its end. -/
theorem tagsOfAHalf : Obligations.TagsOfAHalf := by
  unfold Obligations.TagsOfAHalf
  refine ⟨fun s h t ht => ?_, fun s h => freeTag_eq_none_iff.trans (forall_add_lt_iff (P := fun t => mhas s.reqs t = true) _ _)⟩
  obtain ⟨i, hi, rfl, hfree, hused⟩ := freeTag_eq_some_iff.mp ht
  refine ⟨hfree, Nat.le_add_right _ _, Nat.add_lt_add_left hi _, ?_⟩
  exact (forall_add_lt_iff (P := fun t => mhas s.reqs t = true) _ i).mp hused

end Sys2Proof.Proofs

/-! SUPPORT: a message that arrives on a port that carries transactions (08 R245, R254, R257). -/

namespace Sys2Proof.Proofs

open Sys2Proof.Machine

/-- Only a device that has its FID knows a message as its own. -/
theorem fidOf_ne_none_of_isOwn {s : State} {f : Nat} (h : s.isOwn f = true) : s.fidOf ≠ none := by
  rw [of_decide_eq_true h]
  exact Option.some_ne_none f

section
variable {p : PortId} {m : FabMsg} {act : State → State} {s : State} (ha : s.answers p.page = true)
  (hc : (s.takeMsg p m).carries p = true)
include ha hc

/-- A message for this device is handled once it is taken from the receive buffer. -/
theorem arrive_of_own (ho : (s.takeMsg p m).isOwn (dfidOf m) = true) : s.arrive p m act = act (s.takeMsg p m) := by
  simp [State.arrive, ha, hc, ho, fidOf_ne_none_of_isOwn ho]

/-- A message for another device is forwarded (08 R261). -/
theorem arrive_of_foreign (hfid : (s.takeMsg p m).fidOf ≠ none) (ho : (s.takeMsg p m).isOwn (dfidOf m) = false) :
    s.arrive p m act = (s.takeMsg p m).forward p m := by
  simp [State.arrive, ha, hc, ho, hfid]

end

end Sys2Proof.Proofs

/-! SUPPORT and statement: what the device answers to a request (08 R248, R250, R263, R266, R270). -/

namespace Sys2Proof.Proofs

open Sys2Proof.Machine

/-! ## A request served (08 R248, R270) -/

section
variable {p : PortId} {m : ReqMsg} {s : State}

/-- An entry of the request's own epoch keeps it from executing. -/
theorem rcRuns_of_sameEpoch {x : Nat × RcEnt} (hent : s.rcAhead m = some x) (hsame : x.1 = 0) : s.rcRuns m = false := by
  simp [State.rcRuns, hent, hsame]

theorem answer_of_bad (hbad : badReq m = true) :
    s.answer p m = (s.sendFree p.half m.sfid.toNat (.rsp (s.rspTo m 2 false false []))).settle := by
  simp only [State.answer, State.serve, hbad, if_true]

section
variable (hok : badReq m = false)
include hok

theorem answer_of_unadmitted (hpart : s.partFor (some (s.lead p)) p.half m = none) :
    s.answer p m =
      ((s.fabEvt p.half 10 m.sfid.toNat m.tag.toNat { status := 3, detail := 0x96 }).sendFree p.half m.sfid.toNat
        (.rsp (s.rspTo m 3 false false []))).settle := by
  simp only [State.answer, State.serve, hok, hpart, Bool.false_eq_true, if_false]

section
variable {q : Nat} (hpart : s.partFor (some (s.lead p)) p.half m = some q)
include hpart

/-- One that may execute does so on its partition, and an exactly-once one leaves its outcome in the result cache. -/
theorem answer_of_runs (hrun : m.once = false ∨ s.rcRuns m = true) :
    s.answer p m =
      (let r := s.execReq p.half q m
       let u := if m.once then r.1.rcPut m true r.2.1 (r.2.2.take 8) else r.1
       (u.sendFree p.half m.sfid.toNat (.rsp (r.1.rspTo m r.2.1 false false r.2.2))).settle) := by
  have hgo : (!m.once || s.rcRuns m) = true := by simpa using hrun
  simp only [State.answer, State.serve, State.execAnswer, hok, hpart, hgo, Bool.false_eq_true, if_false, if_true]

/-- One whose outcome is kept is answered from the cache with DUP; what the entry does not hold of an RD's data is free (assumption 18). -/
theorem answer_of_kept {x : Nat × RcEnt} (honce : m.once = true) (hent : s.rcAhead m = some x) (hsame : x.1 = 0)
    (hdone : x.2.done = true) :
    s.answer p m =
      (let u := s.addSat (.comb (s.reqHome m)) R.comb.DUP_CNT_COUNT 1
       let n := if m.opc = 1 && x.2.status = 0 then m.len.toNat else x.2.data.length
       let data := (x.2.data ++ (List.range (n - x.2.data.length)).map (fun i => Config.freeAt s.fresh i)).take n
       ((u.drawn 1).sendFree p.half m.sfid.toNat (.rsp (s.rspTo m x.2.status true false data))).settle) := by
  have hstay : (!m.once || s.rcRuns m) = false := by rw [honce, rcRuns_of_sameEpoch hent hsame]; rfl
  simp only [State.answer, State.serve, hok, hpart, hstay, hent, hsame, hdone, decide_true, Bool.and_self, Bool.false_eq_true, if_false,
    if_true]

end
end

/-! ## A request that its stack controller holds (04 R123) -/

theorem reqHeld_of_bad {arr : Option PortId} {h : Half} (hbad : badReq m = true) : s.reqHeld arr h m = false := by
  simp [State.reqHeld, hbad]

theorem reqHeld_of_unadmitted {arr : Option PortId} {h : Half} (hpart : s.partFor arr h m = none) : s.reqHeld arr h m = false := by
  simp [State.reqHeld, hpart]

/-! ## A request that arrives (08 R263) -/

section
variable (ha : s.answers p.page = true) (hc : (s.takeMsg p (.req m)).carries p = true)
  (ho : (s.takeMsg p (.req m)).isOwn m.dfid.toNat = true)
include ha hc ho

theorem request_of_unheld
    (hheld : (s.takeMsg p (.req m)).reqHeld (some ((s.takeMsg p (.req m)).lead p)) p.half m = false) :
    s.request p m = (s.takeMsg p (.req m)).answer p m :=
  (arrive_of_own ha hc ho).trans (by rw [hheld, if_neg Bool.false_ne_true])

theorem request_of_held
    (hheld : (s.takeMsg p (.req m)).reqHeld (some ((s.takeMsg p (.req m)).lead p)) p.half m = true) :
    s.request p m = (s.takeMsg p (.req m)).holdReq (.fab p m) m :=
  (arrive_of_own ha hc ho).trans (by rw [hheld, if_pos rfl])

theorem unknownOpc_of_req (hopc : knownOpc m.opc.toNat = false) :
    unknownOpc p true m s =
      (s.takeMsg p (.req m)).sendFree p.half m.sfid.toNat (.rsp ((s.takeMsg p (.req m)).rspTo m 0xB false false [])) := by
  rw [unknownOpc, hopc, if_neg Bool.false_ne_true, if_pos rfl]
  exact arrive_of_own ha hc ho

end

theorem unknownOpc_of_rsp {y : RspMsg}
    (hy : y = { (s.rspTo m 0 false false m.data) with opc := m.opc, dfid := m.dfid, sfid := m.sfid, hops := m.hops })
    (ha : s.answers p.page = true) (hc : (s.takeMsg p (.rsp y)).carries p = true)
    (ho : (s.takeMsg p (.rsp y)).isOwn y.dfid.toNat = true) (hopc : knownOpc m.opc.toNat = false) :
    unknownOpc p false m s = s.takeMsg p (.rsp y) := by
  rw [unknownOpc, hopc, if_neg Bool.false_ne_true, if_neg Bool.false_ne_true, ← hy]
  exact arrive_of_own ha hc ho

end

/-- Settles O38: what becomes of an arriving request does not depend on its opcode, so each opcode takes the same five lemmas. -/
theorem fabricRequests : Obligations.FabricRequests := by
  unfold Obligations.FabricRequests
  refine ⟨?rd, ?rdBad, ?rdDenied, ?rdKept, ?rdHeld, ?wr, ?wrBad, ?wrDenied, ?wrKept, ?wrHeld, ?atom, ?atomBad, ?atomDenied, ?atomKept,
    ?atomHeld, ?msg, ?msgBad, ?msgDenied, ?msgKept, ?unknownReq, ?unknownRsp⟩
  case rd | wr | atom | msg =>
    intro p m q s y t ha hc ho hok hpart hheld hrun
    exact next_of_effect ((request_of_unheld ha hc ho hheld).trans (answer_of_runs hok hpart hrun))
  case rdBad | wrBad | atomBad | msgBad =>
    intro p m s y t ha hc ho hbad
    exact next_of_effect ((request_of_unheld ha hc ho (reqHeld_of_bad hbad)).trans (answer_of_bad hbad))
  case rdDenied | wrDenied | atomDenied | msgDenied =>
    intro p m s y t ha hc ho hok hpart
    exact next_of_effect ((request_of_unheld ha hc ho (reqHeld_of_unadmitted hpart)).trans (answer_of_unadmitted hok hpart))
  case rdKept | wrKept | atomKept | msgKept =>
    intro p m q x s y t ha hc ho hok hpart hheld honce hent hsame hdone
    exact next_of_effect ((request_of_unheld ha hc ho hheld).trans (answer_of_kept hok hpart honce hent hsame hdone))
  case rdHeld | wrHeld | atomHeld =>
    intro p m s y t ha hc ho hheld
    exact next_of_effect (request_of_held ha hc ho hheld)
  case unknownReq =>
    intro p vcReq m s t ha hc ho hopc hvc
    subst hvc
    exact next_of_effect (unknownOpc_of_req ha hc ho hopc)
  case unknownRsp =>
    intro p vcReq m s t ha hc ho hopc hvc
    subst hvc
    exact next_of_effect (unknownOpc_of_rsp rfl ha hc ho hopc)

end Sys2Proof.Proofs

/-! SUPPORT and statement: waggles between neighbours and partners (08 R252 to R260, R274, Tables 8.5 and 8.7). -/

namespace Sys2Proof.Proofs

open Sys2Proof.Machine

/-! ## Neighbours (08 R254, R257, R260) -/

section
variable {p : PortId} {s : State} (ha : s.answers (s.lead p).page = true) (hup : s.linkUp (s.lead p) = true)
  (hplain : s.isBypass (s.lead p) = false)
include ha hup hplain

/-- HELLO is taken on a link that is UP and no bypass. -/
theorem helloGuard_of_up : ¬(!(s.answers (s.lead p).page && s.linkUp (s.lead p)) || s.isBypass (s.lead p)) = true := by
  rw [ha, hup, hplain]
  exact Bool.false_ne_true

theorem helloTimeout_of_silent (hsilent : (s.port (s.lead p)).hello = false) :
    helloTimeout p s = (s.fabEvt (s.lead p).half 0 0 0 {}).sendHello (s.lead p) :=
  if_pos (by rw [ha, hup, hplain, hsilent]; rfl)

end

/-! ## Sessions (08 R255, R256) -/

theorem openRepeat_of_opening {h : Half} {fid : BitVec 16} {e : Nat × PEntry} {s : State} (hent : s.entry fid.toNat = some e)
    (hst : e.2.st = ptOPENING) : openRepeat h fid s = s.sendWaggle h 2 0 fid.toNat := by
  simp only [openRepeat, hent, hst, if_true]

/-! ## A partner goes dark (08 R274) -/

theorem dark_of_partner {p : PortId} {w : Waggle} {e : Nat × PEntry} {s : State} (ha : s.answers p.page = true)
    (hent : (s.takeMsg p (s.waggleMsg 0 1 w)).entry w.fid.toNat = some e) :
    dark p w s =
      (((((s.takeMsg p (s.waggleMsg 0 1 w)).setEntry e.1 { e.2 with st := ptDARK }).endRequests w.fid.toNat 4 0x93).endColls
        w.fid.toNat 4 0x93).settle) := by
  simp only [dark, ha, hent, Bool.not_true, Bool.false_eq_true, if_false]

/-- Settles O39: the waggles of a neighbour by the state of its link, the routed ones by their arrival, the rest by the entry they name. -/
theorem fabricSessions : Obligations.FabricSessions := by
  unfold Obligations.FabricSessions
  refine ⟨?hello, ?session, ?accept, ?refuse, ?dark, ?late, ?openRepeat⟩
  case hello =>
    intro p w s ha hup hplain
    exact next_of_effect (if_neg (helloGuard_of_up ha hup hplain))
  case session | accept | refuse =>
    intro p m w s t ha hc ho
    exact next_of_effect (arrive_of_own ha hc ho)
  case dark =>
    intro p w e s t ha hent
    exact next_of_effect (dark_of_partner ha hent)
  case late =>
    intro p s ha hup hsilent hplain
    exact next_of_effect (helloTimeout_of_silent ha hup hplain hsilent)
  case openRepeat =>
    intro h fid e s hent hst
    exact next_of_effect (openRepeat_of_opening hent hst)

end Sys2Proof.Proofs

/-! SUPPORT and statement: responses, retries, lost paths, timeouts and messages in transit (08 R250, R261, R267 to R273). -/

namespace Sys2Proof.Proofs

open Sys2Proof.Machine

/-! ## Responses (08 R250, R268, R272) -/

/-- The data of a response has the length its opcode allows, and LEN says it (08 R250, Table 8.2). -/
def rspLenFits (m : RspMsg) : Bool :=
  m.len.toNat = m.data.length &&
    (if m.opc = 0x81 then decide (m.len.toNat ≤ 128) else if m.opc = 0x83 then m.len.toNat = 8 || (m.len.toNat = 0 && m.status ≠ 0)
     else m.len.toNat = 0)

theorem rspLenFits_of_rdData {m : RspMsg} (hopc : m.opc = 0x81) (hlen : m.len.toNat = m.data.length) (hn : m.data.length ≤ 128) :
    rspLenFits m = true := by
  simp [rspLenFits, hopc, hlen, hn]

theorem rspLenFits_of_atomRsp {m : RspMsg} (hopc : m.opc = 0x83) (hlen : m.len.toNat = m.data.length)
    (hn : m.data.length = 8 ∨ (m.data.length = 0 ∧ m.status ≠ 0)) : rspLenFits m = true := by
  have hne : (0x83 : BitVec 8) ≠ 0x81 := by decide
  simp only [rspLenFits, hopc, hlen, hne, if_false, if_true, decide_true, Bool.true_and]
  simpa using hn

theorem rspLenFits_of_empty {m : RspMsg} (hrd : m.opc ≠ 0x81) (hatom : m.opc ≠ 0x83) (hlen : m.len.toNat = m.data.length)
    (hn : m.data.length = 0) : rspLenFits m = true := by
  simp only [rspLenFits, hrd, hatom, hlen, hn, if_false, decide_true, Bool.and_self]

section
variable {p : PortId} {m : RspMsg} {s : State} (ha : s.answers p.page = true) (hc : (s.takeMsg p (.rsp m)).carries p = true)
  (ho : (s.takeMsg p (.rsp m)).isOwn m.dfid.toNat = true)
include ha hc ho

section
variable (hrsvd : m.rsvd = 0) (hfits : rspLenFits m = true)
include hrsvd hfits

/-- A response of good form that matches no request is fabric event 9. -/
theorem response_of_unmatched (hr : (s.takeMsg p (.rsp m)).matching m = none) :
    s.response p m = (s.takeMsg p (.rsp m)).fabEvt p.half 9 m.sfid.toNat m.tag.toNat {} := by
  rw [rspLenFits] at hfits
  refine (arrive_of_own ha hc ho).trans ?_
  simp only [hrsvd, hfits, hr, ne_eq, not_true, decide_false, Bool.not_true, Bool.or_self, Bool.false_eq_true, if_false]

section
variable {r : FReq} (hr : (s.takeMsg p (.rsp m)).matching m = some r) (hopc : r.msg.opc ||| 0x80 = m.opc)
include hr hopc

/-- RETRY marks the request it answers. -/
theorem response_of_retry (hretry : m.retry = true) :
    s.response p m = (s.takeMsg p (.rsp m)).updReq m.tag.toNat (fun r => { r with retry := true }) := by
  rw [rspLenFits] at hfits
  refine (arrive_of_own ha hc ho).trans ?_
  simp only [hrsvd, hfits, hr, hopc, hretry, ne_eq, not_true, decide_false, Bool.not_true, Bool.or_self, Bool.false_eq_true, if_false,
    if_true]

/-- A response of the request's opcode completes it; the data of a good RD has the length asked for. -/
theorem response_of_done (hretry : m.retry = false)
    (hdata : m.opc ≠ 0x81 ∨ (m.status = 0 → m.data.length = r.msg.len.toNat)) :
    s.response p m =
      ((s.takeMsg p (.rsp m)).reqDone m.tag.toNat m.status.toNat
        (if m.status.toNat = 0 then 0 else respDetail m.status.toNat) m.data).settle := by
  have hfull : (m.opc = 0x81 && m.status = 0 && m.data.length ≠ r.msg.len.toNat) = false := by
    rw [← imp_iff_not_or] at hdata
    simpa using hdata
  rw [rspLenFits] at hfits
  refine (arrive_of_own ha hc ho).trans ?_
  simp only [hrsvd, hfits, hr, hopc, hretry, hfull, ne_eq, not_true, decide_false, Bool.not_true, Bool.or_self, Bool.false_eq_true,
    if_false]

end
end
end

/-! ## A lost path (08 R269) -/

section
variable {p : PortId} {m : RspMsg} {s : State}
  (ha : s.answers p.page = true) (hc : (s.takeMsg p (.rsp { m with opc := 0x10 })).carries p = true)
  (ho : (s.takeMsg p (.rsp { m with opc := 0x10 })).isOwn m.dfid.toNat = true)
include ha hc ho

theorem pathLost_of_matching {r : FReq}
    (hr : (s.takeMsg p (.rsp { m with opc := 0x10 })).matching { m with opc := 0x10 } = some r) :
    pathLost p m s = ((s.takeMsg p (.rsp { m with opc := 0x10 })).resendOwn m.tag.toNat r.msg).settle := by
  unfold pathLost
  rw [arrive_of_own ha hc ho, hr]

theorem pathLost_of_unmatched (hr : (s.takeMsg p (.rsp { m with opc := 0x10 })).matching { m with opc := 0x10 } = none) :
    pathLost p m s = (s.takeMsg p (.rsp { m with opc := 0x10 })).fabEvt p.half 9 m.sfid.toNat m.tag.toNat {} := by
  unfold pathLost
  rw [arrive_of_own ha hc ho, hr]

end

/-! ## Timeouts and retries of a request (08 R268, R269) -/

section
variable {tag : BitVec 15} {e : Nat × FReq} {s : State} (he : s.reqs.find? (fun e => e.1 = tag.toNat) = some e)
include he

theorem requestTimeout_of_outstanding :
    requestTimeout tag s =
      (if !s.isOwn e.2.msg.dfid.toNat && (s.route e.2.msg.dfid.toNat none (some e.2.part) false).isNone then s.reqDone tag.toNat 0xA 0x90 []
       else if e.2.touched then s.reqDone tag.toNat 4 0x92 []
       else s.reqDone tag.toNat 5 0x94 []).settle := by
  simp only [requestTimeout, State.expire, he]

theorem retryResend_of_retry {late : Bool} (hretry : e.2.retry = true) :
    retryResend tag late s =
      if late then (s.reqDone tag.toNat 0xC 0x99 []).settle
      else if s.isOwn e.2.msg.dfid.toNat then
        ((s.updReq tag.toNat (fun r => { r with retry := false })).serveOwn (tagHalf tag.toNat) tag.toNat e.2.msg).settle
      else s.sendReq tag.toNat true false := by
  simp only [retryResend, he, hretry, Bool.not_true, Bool.false_eq_true, if_false]

end

section
variable {m : Master} {h : Half} {value : Word} {passed : List (BitVec 15)} {s : State}

/-- A new limit is kept, and the requests that have passed it end. -/
theorem fabTmo_of_inRange (ha : s.answers (.comb h) = true) (hlo : 1 ≤ bits value.toNat 13 0) (hhi : bits value.toNat 13 0 ≤ 10000) :
    fabTmo m h value passed s =
      (foldOver (passed.filter (fun t => tagHalf t.toNat = h)) (fun t (s : State) => s.expire t.toNat)
        (s.setF (.comb h) R.comb.FAB_TMO_MS (bits value.toNat 13 0))).settle :=
  if_neg (by rw [ha, decide_eq_true hlo, decide_eq_true hhi]; exact Bool.false_ne_true)

theorem fabTmo_of_tooLong (hhi : 10000 < bits value.toNat 13 0) : fabTmo m h value passed s = s :=
  if_pos (by rw [decide_eq_false (Nat.not_le.mpr hhi), Bool.and_false, Bool.not_false, Bool.or_true])

end

/-! ## Messages in transit (08 R261) -/

theorem transitForward_of_foreign {p : PortId} {m : FabMsg} {s : State} (hnow : s.isOwn (dfidOf m) = false) (ha : s.answers p.page = true)
    (hfid : (s.takeMsg p m).fidOf ≠ none) (hc : (s.takeMsg p m).carries p = true) (ho : (s.takeMsg p m).isOwn (dfidOf m) = false) :
    transitForward p m s = (s.takeMsg p m).forward p m := by
  rw [transitForward, hnow, if_neg Bool.false_ne_true, arrive_of_foreign ha hc hfid ho]

/-- Settles O40: responses by their form and the request they match, the rest by the request, the link or the value they find. -/
theorem fabricAnswers : Obligations.FabricAnswers := by
  unfold Obligations.FabricAnswers
  refine ⟨?rdData, ?wrAck, ?atomRsp, ?msgAck, ?retry, ?unmatched, ?lost, ?lostUnmatched, ?timeout, ?resend, ?transit, ?cache, ?aged,
    ?limit, ?badLimit⟩
  case rdData =>
    intro p m r s y t ha hc ho hrsvd hlen ⟨hmax, hfull⟩ hr hopc hretry
    exact next_of_effect
      (response_of_done ha hc ho hrsvd (rspLenFits_of_rdData rfl hlen hmax) hr hopc hretry (.inr hfull))
  case wrAck | msgAck =>
    intro p m r s y t ha hc ho hrsvd hlen hdata hr hopc hretry
    exact next_of_effect
      (response_of_done ha hc ho hrsvd (rspLenFits_of_empty (by simp) (by simp) hlen hdata) hr hopc hretry
        (.inl (by simp)))
  case atomRsp =>
    intro p m r s y t ha hc ho hrsvd hlen hdata hr hopc hretry
    exact next_of_effect
      (response_of_done ha hc ho hrsvd (rspLenFits_of_atomRsp rfl hlen hdata) hr hopc hretry (.inl (by simp)))
  case retry =>
    intro p m r s y t ha hc ho hrsvd hlen hdata hr hopc hretry
    have hnone : m.data.length = 0 := List.length_eq_zero_iff.mpr hdata
    exact next_of_effect
      (response_of_retry ha hc ho hrsvd (rspLenFits_of_empty (by simp) (by simp) (hlen.trans hnone.symm) hnone) hr
        (by rw [hopc]; rfl) hretry)
  case unmatched =>
    intro p m s y t ha hc ho hrsvd hlen hdata hr
    have hnone : m.data.length = 0 := List.length_eq_zero_iff.mpr hdata
    exact next_of_effect
      (response_of_unmatched ha hc ho hrsvd (rspLenFits_of_empty (by simp) (by simp) (hlen.trans hnone.symm) hnone) hr)
  case lost =>
    intro p m r s y t ha hc ho hr
    exact next_of_effect (pathLost_of_matching ha hc ho hr)
  case lostUnmatched =>
    intro p m s y t ha hc ho hr
    exact next_of_effect (pathLost_of_unmatched ha hc ho hr)
  case timeout =>
    intro tag e s he
    exact next_of_effect (requestTimeout_of_outstanding he)
  case resend =>
    intro tag late e s he hretry
    exact next_of_effect (retryResend_of_retry he hretry)
  case transit =>
    intro p m s t hnow ha hfid hc ho
    exact next_of_effect (transitForward_of_foreign hnow ha hfid hc ho)
  case cache =>
    intro h sfid session tag s
    rfl
  case aged =>
    intro h e s old he
    refine next_of_effect ?_
    simp only [transitAgeExpire]
    rw [he]
  case limit =>
    intro m h value passed s hm ha hlo hhi
    exact next_of_reaches hm (fabTmo_of_inRange ha hlo hhi)
  case badLimit =>
    intro m h value passed s hm _ hhi
    exact next_of_reaches hm (fabTmo_of_tooLong hhi)

end Sys2Proof.Proofs

/-! SUPPORT and statement: the messages of a collective at a member, and its timeout (08 R275 to R281, Table 8.14). -/

namespace Sys2Proof.Proofs

open Sys2Proof.Machine

/-! ## Data (08 R277, R279, R280) -/

section
variable {p : PortId} {m : CollMsg} {s : State} (ha : s.answers p.page = true)
  (hc : (s.takeMsg p (.coll { m with opc := 0x20 })).carries p = true)
  (ho : (s.takeMsg p (.coll { m with opc := 0x20 })).isOwn m.dfid.toNat = true)
include ha hc ho

/-- Data of a swarm with no collective running is discarded (assumption 48). -/
theorem collData_of_idle (hrun : (s.takeMsg p (.coll { m with opc := 0x20 })).running { m with opc := 0x20 } = none) :
    collData p m s = s.takeMsg p (.coll { m with opc := 0x20 }) := by
  unfold collData
  rw [arrive_of_own ha hc ho, hrun]
  exact ite_self _

section
variable {c : CollSt} (hrsvd : m.rsvd = 0) (hlen : m.len.toNat = m.data.length) (hsome : m.data ≠ []) (hmax : m.data.length ≤ 128)
  (hrun : (s.takeMsg p (.coll { m with opc := 0x20 })).running { m with opc := 0x20 } = some c)
include hrsvd hlen hsome hmax hrun

/-- Data of good form is taken where the schedule names it; else the collective ends BAD_DESC. -/
theorem collData_of_running :
    collData p m s =
      if c.accepts { m with opc := 0x20 } then (s.takeMsg p (.coll { m with opc := 0x20 })).takeSeg c { m with opc := 0x20 }
      else ((s.takeMsg p (.coll { m with opc := 0x20 })).fabEvt p.half 11 m.sfid.toNat 0
        { cost := 4, status := 2, detail := 0x9B }).failColl c 2 0x9B := by
  have hform : (m.rsvd ≠ 0 || m.len.toNat ≠ m.data.length || m.data.isEmpty || m.data.length > 128) = false := by
    simp [hrsvd, hlen, hsome, hmax]
  unfold collData
  rw [arrive_of_own ha hc ho, hrun, hform, if_neg Bool.false_ne_true]

end
end

/-- READY and ABORT have no data, and RSVD is 0 (08 Table 8.14). -/
theorem emptyForm_of_fields {m : CollMsg} (hrsvd : m.rsvd = 0) (hlen : m.len = 0) : (m.rsvd ≠ 0 || m.len ≠ 0) = false := by
  simp [hrsvd, hlen]

/-! ## READY (08 R277) -/

section
variable {p : PortId} {m : CollMsg} {s : State} (ha : s.answers p.page = true)
  (hc : (s.takeMsg p (.coll { m with opc := 0x21 })).carries p = true)
  (ho : (s.takeMsg p (.coll { m with opc := 0x21 })).isOwn m.dfid.toNat = true) (hrsvd : m.rsvd = 0) (hlen : m.len = 0)
include ha hc ho hrsvd hlen

theorem collReady_of_running {c : CollSt} (hmember : c.fids.contains m.sfid.toNat = true)
    (hrun : (s.takeMsg p (.coll { m with opc := 0x21 })).running { m with opc := 0x21 } = some c) :
    collReady p m s =
      ((s.takeMsg p (.coll { m with opc := 0x21 })).updColl c
        (fun e => { e with ready := sadd e.ready m.sfid.toNat })).pumpColl c.half c.q c.slot := by
  unfold collReady
  rw [arrive_of_own ha hc ho, hrun, emptyForm_of_fields hrsvd hlen, if_neg Bool.false_ne_true]
  exact if_pos hmember

/-- The first READY of a member of a swarm that has had no collective yet is kept for the next one. -/
theorem collReady_of_early
    (hfirst : (s.takeMsg p (.coll { m with opc := 0x21 })).swarms.find? (fun e => e.1 = m.swarm.toNat) = none)
    (hnew : (s.takeMsg p (.coll { m with opc := 0x21 })).readys.contains (m.swarm.toNat, m.cseq.toNat, m.sfid.toNat) = false)
    (hrun : (s.takeMsg p (.coll { m with opc := 0x21 })).running { m with opc := 0x21 } = none) :
    collReady p m s =
      (let t := s.takeMsg p (.coll { m with opc := 0x21 })
       { t with readys := t.readys ++ [(m.swarm.toNat, m.cseq.toNat, m.sfid.toNat)] }) := by
  unfold collReady
  rw [arrive_of_own ha hc ho, hrun, emptyForm_of_fields hrsvd hlen, if_neg Bool.false_ne_true]
  simp only [hfirst, hnew]
  rfl

end

/-! ## ABORT (08 R281) -/

section
variable {p : PortId} {m : CollMsg} {s : State} (ha : s.answers p.page = true)
  (hc : (s.takeMsg p (.coll { m with opc := 0x22 })).carries p = true)
  (ho : (s.takeMsg p (.coll { m with opc := 0x22 })).isOwn m.dfid.toNat = true) (hrsvd : m.rsvd = 0) (hlen : m.len = 0)
include ha hc ho hrsvd hlen

theorem collAbort_of_running {c : CollSt} (hmember : c.fids.contains m.sfid.toNat = true)
    (hrun : (s.takeMsg p (.coll { m with opc := 0x22 })).running { m with opc := 0x22 } = some c) :
    collAbort p m s =
      ((s.takeMsg p (.coll { m with opc := 0x22 })).dropColl c).updDesc c.half c.q c.slot (·.finish 4 0x9D c.bytes) := by
  unfold collAbort
  rw [arrive_of_own ha hc ho, hrun, emptyForm_of_fields hrsvd hlen, if_neg Bool.false_ne_true]
  exact if_pos hmember

/-- The first ABORT for a swarm that has had no collective yet is kept for the one to come. -/
theorem collAbort_of_early
    (hfirst : (s.takeMsg p (.coll { m with opc := 0x22 })).swarms.find? (fun e => e.1 = m.swarm.toNat) = none)
    (hnew : (s.takeMsg p (.coll { m with opc := 0x22 })).aborted.contains (m.swarm.toNat, m.cseq.toNat) = false)
    (hrun : (s.takeMsg p (.coll { m with opc := 0x22 })).running { m with opc := 0x22 } = none) :
    collAbort p m s =
      (let t := s.takeMsg p (.coll { m with opc := 0x22 })
       { t with aborted := t.aborted ++ [(m.swarm.toNat, m.cseq.toNat)] }) := by
  unfold collAbort
  rw [arrive_of_own ha hc ho, hrun, emptyForm_of_fields hrsvd hlen, if_neg Bool.false_ne_true]
  simp only [hfirst, hnew]
  rfl

end

/-! ## The limit of a collective (08 R281) -/

theorem collectiveTimeout_of_running {r : QRef} {slot : BitVec 16} {c : CollSt} {s : State}
    (hc : s.collAt r.half r.q.val slot.toNat = some c) :
    collectiveTimeout r slot s =
      if c.peers.any (fun f => (s.route f none (some c.part) false).isNone) then s.failColl c 0xA 0x90 else s.failColl c 5 0x94 := by
  simp only [collectiveTimeout, hc]

/-- Settles O42: each message by whether its collective runs, and data by whether the schedule names it. -/
theorem collectiveMessages : Obligations.CollectiveMessages := by
  unfold Obligations.CollectiveMessages
  refine ⟨?data, ?unnamed, ?idle, ?ready, ?earlyReady, ?abort, ?earlyAbort, ?timeout⟩
  case data =>
    intro p m c s y t ha hc ho hrsvd hlen hsome hmax hacc hrun
    exact next_of_effect ((collData_of_running ha hc ho hrsvd hlen hsome hmax hrun).trans (if_pos hacc))
  case unnamed =>
    intro p m c s y t ha hc ho hrsvd hlen hsome hmax hacc hrun
    exact next_of_effect
      ((collData_of_running ha hc ho hrsvd hlen hsome hmax hrun).trans (if_neg (Bool.eq_false_iff.mp hacc)))
  case idle =>
    intro p m s y t ha hc ho hrun
    exact next_of_effect (collData_of_idle ha hc ho hrun)
  case ready =>
    intro p m c s y t ha hc ho hrsvd hlen hmember hrun
    exact next_of_effect (collReady_of_running ha hc ho hrsvd hlen hmember hrun)
  case earlyReady =>
    intro p m s y t ha hc ho hrsvd hlen hfirst hnew hrun
    exact next_of_effect (collReady_of_early ha hc ho hrsvd hlen hfirst hnew hrun)
  case abort =>
    intro p m c s y t ha hc ho hrsvd hlen hmember hrun
    exact next_of_effect (collAbort_of_running ha hc ho hrsvd hlen hmember hrun)
  case earlyAbort =>
    intro p m s y t ha hc ho hrsvd hlen hfirst hnew hrun
    exact next_of_effect (collAbort_of_early ha hc ho hrsvd hlen hfirst hnew hrun)
  case timeout =>
    intro r slot c s hc
    exact next_of_effect (collectiveTimeout_of_running hc)

end Sys2Proof.Proofs

/-! SUPPORT and statement: when a COLLECTIVE descriptor starts its collective (08 R275 to R277, R281; 03 Table 3.7). -/

namespace Sys2Proof.Proofs

open Sys2Proof.Machine

/-! ## What the checks of a swarm read (08 R276) -/

/-- The partition of the queue that dispatches. -/
def collPart (h : Half) (q : Nat) (s : State) : Nat := (s.partOfQ h q).getD 0

/-- The first block of 256 swarms of the partition. -/
def swarmFirst (h : Half) (q : Nat) (s : State) : Nat := s.getF (.comb h) (R.comb.PF_SWARM_FIRST.ix (collPart h q s))

/-- The number of blocks of 256 swarms of the partition. -/
def swarmCnt (h : Half) (q : Nat) (s : State) : Nat := s.getF (.comb h) (R.comb.PF_SWARM_CNT.ix (collPart h q s))

/-- The swarm is none of the partition's. -/
def foreignSwarm (h : Half) (q raw : Nat) (s : State) : Bool :=
  s.partTag (collPart h q s) = none || bits raw 143 128 / 256 < swarmFirst h q s ||
    bits raw 143 128 / 256 ≥ swarmFirst h q s + swarmCnt h q s

/-- The read of the swarm's entry: state, status, bytes. -/
def swarmEntry (h : Half) (q raw : Nat) (s : State) : State × Nat × List Byte :=
  s.memRead h .dma 0 (bits (s.fctxOf h (collPart h q s)).raw 319 256 + (bits raw 143 128 - swarmFirst h q s * 256) * 64) 64

/-- The read of the member list that an entry w of a swarm names: state, status, FIDs. -/
def swarmMembers (h : Half) (w : Nat) (s : State) : State × Nat × List Nat :=
  s.memberList h (bits w 83 32) (bits w 12 1 + 1)

/-- The entry is not valid, the device is not the member of its rank, or a member stands twice. -/
def badSwarm (w : Nat) (l : State × Nat × List Nat) : Bool :=
  !bit w 0 || bits w 24 13 ≥ bits w 12 1 + 1 || !l.1.isOwn (nth 0 l.2.2 (bits w 24 13)) || repeats l.2.2

/-- The collective that the entry and the list make of the descriptor. -/
def swarmColl (h : Half) (q : Nat) (d : Desc) (part w : Nat) (l : State × Nat × List Nat) : CollSt :=
  { half := h, q := q, slot := d.slot, part := part, raw := d.raw, rank := bits w 24 13, fids := l.2.2, going := false, ready := [],
    got := [], hold := [], free := l.1.freeAhead 0, bytes := 0 }

/-! ## The start (08 R276, R277) -/

/-- The collectives with a new member, which has the READYs that came early. -/
def withMember (c : CollSt) (s : State) : State :=
  let mine := fun (x : Nat × Nat × Nat) => x.1 = c.swarm && x.2.1 = c.cseq
  { s.drawn 1 with
    colls := s.colls ++ [{ c with ready := (s.readys.filter mine).map (·.2.2) }]
    readys := s.readys.filter (fun x => !mine x) }

/-- A session to a member that has no entry; the collective fails where none can be had. -/
def openPeer (c : CollSt) (f : Nat) (v : State) : State :=
  (v.collAt c.half c.q c.slot).elim v fun e =>
    let r := v.openSession c.half f
    r.1.getD (r.2.failColl e 0xC 0x98)

/-- The member joins, opens the sessions it lacks, and goes on as far as it can. -/
def startMember (c : CollSt) (s : State) : State :=
  let v := withMember c s
  (foldOver (c.peers.filter (fun f => (v.entry f).isNone)) (openPeer c) v).pumpColl c.half c.q c.slot

/-- A start whose steps do what openPeer does, case by case. -/
theorem startMember_eq_of_steps {c : CollSt} {s : State} {h : Half} {q slot : Nat} {g : Nat → State → State}
    (hh : c.half = h) (hq : c.q = q) (hslot : c.slot = slot) (hgone : ∀ f v, v.collAt h q slot = none → g f v = v)
    (hopen : ∀ f v e x y, v.collAt h q slot = some e → v.openSession h f = (some x, y) → g f v = x)
    (hfail : ∀ f v e x, v.collAt h q slot = some e → v.openSession h f = (none, x) → g f v = x.failColl e 0xC 0x98) :
    startMember c s =
      (foldOver (c.peers.filter (fun f => ((withMember c s).entry f).isNone)) g (withMember c s)).pumpColl h q slot := by
  subst hh hq hslot
  have hstep : openPeer c = g := by
    funext f v
    rcases hc : v.collAt c.half c.q c.slot with _ | e
    · rw [openPeer, hc, hgone f v hc]; rfl
    · rcases ho : v.openSession c.half f with ⟨_ | x, y⟩
      · rw [openPeer, hc, hfail f v e y hc ho, Option.elim_some, ho]; rfl
      · rw [openPeer, hc, hopen f v e x y hc ho, Option.elim_some, ho]; rfl
  rw [startMember, hstep]

/-- A descriptor completes without its collective. -/
def refuseColl (c : CollSt) (st detail : Nat) (s : State) : State := s.updDesc c.half c.q c.slot (·.finish st detail 0)

/-- The checks of a collective of n members whose swarm is valid, then its start. -/
def joinColl (n : Nat) (c : CollSt) (s : State) : State :=
  if (c.op = 1 || c.op = 3) && c.count % n ≠ 0 then refuseColl c 2 0x82 s
  else if !below52 c.dst (c.resultLen * c.es) then refuseColl c 2 0x83 s
  else if !s.devOk c.half c.part c.dst (c.resultLen * c.es) then
    refuseColl c 3 0x86 (s.denySpans c.half c.part 0x86 [(c.dst, c.resultLen * c.es)])
  else if (c.peers.map (s.peerFit c.dt)).contains (some false) then refuseColl c 0xB 0x95 s
  else if s.aborted.contains (c.swarm, c.cseq) then refuseColl c 4 0x9D { s with aborted := s.aborted.erase (c.swarm, c.cseq) }
  else startMember c s

/-! ## The checks of the swarm (08 R276) -/

section
variable {h : Half} {q : Nat} {d : Desc} {s : State} {e : State × Nat × List Byte} {l : State × Nat × List Nat}

/-- What a dispatched COLLECTIVE does, check by check, given what its two reads bring. -/
theorem collectiveDesc_eq (he : swarmEntry h q d.raw s = e) (hl : swarmMembers h (natOf e.2.2) e.1 = l) :
    collectiveDesc h q d s =
      if foreignSwarm h q d.raw s then s.updDesc h q d.slot (·.finish 3 0x97 0)
      else if !s.loaded h (collPart h q s) then s.updDesc h q d.slot (·.finish 2 0x9B 0)
      else if e.2.1 ≠ 0 then e.1.updDesc h q d.slot (·.finish e.2.1 0 0)
      else if l.2.1 ≠ 0 then l.1.updDesc h q d.slot (·.finish l.2.1 0 0)
      else if badSwarm (natOf e.2.2) l then l.1.updDesc h q d.slot (·.finish 2 0x9B 0)
      else joinColl (bits (natOf e.2.2) 12 1 + 1) (swarmColl h q d (collPart h q s) (natOf e.2.2) l) l.1 := by
  unfold collectiveDesc
  extract_lets raw p fail first u table read w n rank list t c early drawn joined opened
  have hread : read = e := he
  clear_value read
  subst hread
  have hlist : list = l := hl
  clear_value list
  subst hlist
  have hstart : startMember c t = opened.pumpColl h q d.slot :=
    startMember_eq_of_steps rfl rfl rfl (fun f v hc => by simp only [hc]) (fun f v e x y hc ho => by simp only [hc, ho])
      (fun f v e x hc ho => by simp only [hc, ho])
  have hc : swarmColl h q d (collPart h q s) w list = c := rfl
  rw [hc, joinColl, hstart]
  rfl

theorem collectiveDesc_of_foreignSwarm
    (hswarm : s.partTag (collPart h q s) = none ∨ bits d.raw 143 128 / 256 < swarmFirst h q s ∨
      swarmFirst h q s + swarmCnt h q s ≤ bits d.raw 143 128 / 256) :
    collectiveDesc h q d s = s.updDesc h q d.slot (·.finish 3 0x97 0) := by
  have hforeign : foreignSwarm h q d.raw s = true := by simpa [foreignSwarm, or_assoc] using hswarm
  rw [collectiveDesc_eq rfl rfl, if_pos hforeign]

section
variable (htag : (s.partTag (collPart h q s)).isSome = true) (hlo : swarmFirst h q s ≤ bits d.raw 143 128 / 256)
  (hhi : bits d.raw 143 128 / 256 < swarmFirst h q s + swarmCnt h q s)
include htag hlo hhi

theorem foreignSwarm_of_own : foreignSwarm h q d.raw s = false := by
  simp [foreignSwarm, Option.isSome_iff_ne_none.mp htag, hlo, hhi]

theorem collectiveDesc_of_unloaded (hload : s.loaded h (collPart h q s) = false) :
    collectiveDesc h q d s = s.updDesc h q d.slot (·.finish 2 0x9B 0) := by
  rw [collectiveDesc_eq rfl rfl, foreignSwarm_of_own htag hlo hhi, if_neg Bool.false_ne_true, hload, Bool.not_false, if_pos rfl]

section
variable (hload : s.loaded h (collPart h q s) = true) (he : swarmEntry h q d.raw s = e)
include hload he

/-- With its context loaded, what the reads of a swarm of the partition bring decides. -/
theorem collectiveDesc_of_loaded (hl : swarmMembers h (natOf e.2.2) e.1 = l) :
    collectiveDesc h q d s =
      if e.2.1 ≠ 0 then e.1.updDesc h q d.slot (·.finish e.2.1 0 0)
      else if l.2.1 ≠ 0 then l.1.updDesc h q d.slot (·.finish l.2.1 0 0)
      else if badSwarm (natOf e.2.2) l then l.1.updDesc h q d.slot (·.finish 2 0x9B 0)
      else joinColl (bits (natOf e.2.2) 12 1 + 1) (swarmColl h q d (collPart h q s) (natOf e.2.2) l) l.1 := by
  rw [collectiveDesc_eq he hl, foreignSwarm_of_own htag hlo hhi, if_neg Bool.false_ne_true, hload, Bool.not_true,
    if_neg Bool.false_ne_true]

theorem collectiveDesc_of_failedEntry (hentry : e.2.1 ≠ 0) :
    collectiveDesc h q d s = e.1.updDesc h q d.slot (·.finish e.2.1 0 0) := by
  rw [collectiveDesc_of_loaded htag hlo hhi hload he rfl, if_pos hentry]

section
variable (hl : swarmMembers h (natOf e.2.2) e.1 = l) (hentry : e.2.1 = 0)
include hl hentry

theorem collectiveDesc_of_failedList (hlist : l.2.1 ≠ 0) :
    collectiveDesc h q d s = l.1.updDesc h q d.slot (·.finish l.2.1 0 0) := by
  rw [collectiveDesc_of_loaded htag hlo hhi hload he hl, if_neg (not_not.mpr hentry), if_pos hlist]

section
variable (hlist : l.2.1 = 0)
include hlist

theorem collectiveDesc_of_badSwarm
    (hbad : bit (natOf e.2.2) 0 = false ∨ bits (natOf e.2.2) 12 1 + 1 ≤ bits (natOf e.2.2) 24 13 ∨
      l.1.isOwn (nth 0 l.2.2 (bits (natOf e.2.2) 24 13)) = false ∨ repeats l.2.2 = true) :
    collectiveDesc h q d s = l.1.updDesc h q d.slot (·.finish 2 0x9B 0) := by
  have hbad' : badSwarm (natOf e.2.2) l = true := by simpa [badSwarm, or_assoc] using hbad
  rw [collectiveDesc_of_loaded htag hlo hhi hload he hl, if_neg (not_not.mpr hentry), if_neg (not_not.mpr hlist), if_pos hbad']

/-- A member of a valid swarm goes on to the checks of its collective. -/
theorem collectiveDesc_of_validSwarm (hvalid : bit (natOf e.2.2) 0 = true)
    (hrank : bits (natOf e.2.2) 24 13 < bits (natOf e.2.2) 12 1 + 1)
    (hown : l.1.isOwn (nth 0 l.2.2 (bits (natOf e.2.2) 24 13)) = true) (honce : repeats l.2.2 = false) :
    collectiveDesc h q d s = joinColl (bits (natOf e.2.2) 12 1 + 1) (swarmColl h q d (collPart h q s) (natOf e.2.2) l) l.1 := by
  have hgood : badSwarm (natOf e.2.2) l = false := by simp [badSwarm, hvalid, Nat.not_le.mpr hrank, hown, honce]
  rw [collectiveDesc_of_loaded htag hlo hhi hload he hl, if_neg (not_not.mpr hentry), if_neg (not_not.mpr hlist),
    if_neg (Bool.eq_false_iff.mp hgood)]

end
end
end
end
end

/-! ## The checks of the collective (08 R276, R278, R281) -/

section
variable {n : Nat} {c : CollSt} {s : State}

theorem joinColl_of_remainder (hop : c.op = 1 ∨ c.op = 3) (hcount : c.count % n ≠ 0) : joinColl n c s = refuseColl c 2 0x82 s :=
  if_pos (by simpa using ⟨hop, hcount⟩)

section
variable (hcount : c.count % n = 0)
include hcount

theorem joinColl_of_pastEnd (hend : below52 c.dst (c.resultLen * c.es) = false) : joinColl n c s = refuseColl c 2 0x83 s := by
  simp [joinColl, hcount, hend]

section
variable (hend : below52 c.dst (c.resultLen * c.es) = true)
include hend

theorem joinColl_of_outside (hwin : s.devOk c.half c.part c.dst (c.resultLen * c.es) = false) :
    joinColl n c s = refuseColl c 3 0x86 (s.denySpans c.half c.part 0x86 [(c.dst, c.resultLen * c.es)]) := by
  simp [joinColl, hcount, hend, hwin]

section
variable (hwin : s.devOk c.half c.part c.dst (c.resultLen * c.es) = true)
include hwin

theorem joinColl_of_unfitPeer (hfit : (c.peers.map (s.peerFit c.dt)).contains (some false) = true) :
    joinColl n c s = refuseColl c 0xB 0x95 s := by
  simp only [joinColl, hcount, hend, hwin, hfit, ne_eq, not_true, decide_false, Bool.and_false, Bool.not_true, Bool.false_eq_true,
    if_false, if_true]

section
variable (hfit : (c.peers.map (s.peerFit c.dt)).contains (some false) = false)
include hfit

theorem joinColl_of_aborted (habort : s.aborted.contains (c.swarm, c.cseq) = true) :
    joinColl n c s = refuseColl c 4 0x9D { s with aborted := s.aborted.erase (c.swarm, c.cseq) } := by
  simp only [joinColl, hcount, hend, hwin, hfit, habort, ne_eq, not_true, decide_false, Bool.and_false, Bool.not_true,
    Bool.false_eq_true, if_false, if_true]

theorem joinColl_of_ready (habort : s.aborted.contains (c.swarm, c.cseq) = false) : joinColl n c s = startMember c s := by
  simp only [joinColl, hcount, hend, hwin, hfit, habort, ne_eq, not_true, decide_false, Bool.and_false, Bool.not_true,
    Bool.false_eq_true, if_false]

end
end
end
end
end

/-- Settles O29: each check in turn, by what the reads of the swarm bring and then by the collective they describe; past all of them the
member starts. -/
theorem collectiveStart : Obligations.CollectiveStart := by
  unfold Obligations.CollectiveStart
  refine ⟨?foreign, ?unloaded, ?failedEntry, ?failedList, ?badSwarm, ?remainder, ?pastEnd, ?outside, ?unfit, ?aborted, ?start⟩
  case foreign =>
    intro r hr s d t p u first hd hswarm
    exact next_of_effect ((dispatch_of_dispatches hd).trans (collectiveDesc_of_foreignSwarm hswarm))
  case unloaded =>
    intro r hr s d t p u first hd htag hlo hhi hload
    exact next_of_effect ((dispatch_of_dispatches hd).trans (collectiveDesc_of_unloaded htag hlo hhi hload))
  case failedEntry =>
    intro r hr s d t p u first e hd htag hlo hhi hload hentry
    exact next_of_effect ((dispatch_of_dispatches hd).trans (collectiveDesc_of_failedEntry (e := e) htag hlo hhi hload rfl hentry))
  case failedList =>
    intro r hr s d t p u first e w n l hd htag hlo hhi hload hentry hlist
    exact next_of_effect ((dispatch_of_dispatches hd).trans
      (collectiveDesc_of_failedList (e := e) (l := l) htag hlo hhi hload rfl rfl hentry hlist))
  case badSwarm =>
    intro r hr s d t p u first e w n l hd htag hlo hhi hload hentry hlist hbad
    exact next_of_effect ((dispatch_of_dispatches hd).trans
      (collectiveDesc_of_badSwarm (e := e) (l := l) htag hlo hhi hload rfl rfl hentry hlist hbad))
  case remainder =>
    intro r hr s d t p u first e w n l c hd htag hlo hhi hload hentry hlist hvalid hrank hown honce hop hcount
    have hjoin := (dispatch_of_dispatches hd).trans
      (collectiveDesc_of_validSwarm (e := e) (l := l) htag hlo hhi hload rfl rfl hentry hlist hvalid hrank hown honce)
    exact next_of_effect (hjoin.trans (joinColl_of_remainder (n := n) (c := c) hop hcount))
  case pastEnd =>
    intro r hr s d t p u first e w n l c hd htag hlo hhi hload hentry hlist hvalid hrank hown honce _ hcount hend
    have hjoin := (dispatch_of_dispatches hd).trans
      (collectiveDesc_of_validSwarm (e := e) (l := l) htag hlo hhi hload rfl rfl hentry hlist hvalid hrank hown honce)
    exact next_of_effect (hjoin.trans (joinColl_of_pastEnd (n := n) (c := c) hcount hend))
  case outside =>
    intro r hr s d t p u first e w n l c hd htag hlo hhi hload hentry hlist hvalid hrank hown honce _ hcount hend hwin
    have hjoin := (dispatch_of_dispatches hd).trans
      (collectiveDesc_of_validSwarm (e := e) (l := l) htag hlo hhi hload rfl rfl hentry hlist hvalid hrank hown honce)
    exact next_of_effect (hjoin.trans (joinColl_of_outside (n := n) (c := c) hcount hend hwin))
  case unfit =>
    intro r hr s d t p u first e w n l c hd htag hlo hhi hload hentry hlist hvalid hrank hown honce _ hcount hend hwin hfit
    have hjoin := (dispatch_of_dispatches hd).trans
      (collectiveDesc_of_validSwarm (e := e) (l := l) htag hlo hhi hload rfl rfl hentry hlist hvalid hrank hown honce)
    exact next_of_effect (hjoin.trans (joinColl_of_unfitPeer (n := n) (c := c) hcount hend hwin hfit))
  case aborted =>
    intro r hr s d t p u first e w n l c hd htag hlo hhi hload hentry hlist hvalid hrank hown honce _ hcount hend hwin hfit habort
    have hjoin := (dispatch_of_dispatches hd).trans
      (collectiveDesc_of_validSwarm (e := e) (l := l) htag hlo hhi hload rfl rfl hentry hlist hvalid hrank hown honce)
    exact next_of_effect (hjoin.trans (joinColl_of_aborted (n := n) (c := c) hcount hend hwin hfit habort))
  case start =>
    intro r hr s d t p u first e w n l c hd htag hlo hhi hload hentry hlist hvalid hrank hown honce _ hcount hend hwin hfit habort
    have hjoin := (dispatch_of_dispatches hd).trans
      (collectiveDesc_of_validSwarm (e := e) (l := l) htag hlo hhi hload rfl rfl hentry hlist hvalid hrank hown honce)
    exact next_of_effect ((hjoin.trans (joinColl_of_ready (n := n) (c := c) hcount hend hwin hfit habort)).trans
      (startMember_eq_of_steps rfl rfl rfl (fun f v hc => by simp only [hc]) (fun f v e x y hc ho => by simp only [hc, ho])
        (fun f v e x hc ho => by simp only [hc, ho])))

end Sys2Proof.Proofs

/-! SUPPORT and statement: mailboxes, and the runtime commands that firmware takes from them (09 R305 to R311, R315). -/

namespace Sys2Proof.Proofs

open Sys2Proof.Machine

/-! ## Internal pages (09 R309) -/

/-- The pages of the host pairs are open to every master. -/
theorem foreign_of_hostPair {m : Master} {i : Fin 48} (hi : i.val < 32) : State.foreign m i = false := by
  simp [State.foreign, hi]

/-- Every page is open to an internal master. -/
theorem foreign_of_internal {m : Master} {i : Fin 48} (hm : isHost m = false) : State.foreign m i = false := by
  simp [State.foreign, hm]

/-! ## SEND (09 R306, R307) -/

@[simp] theorem fbell_dies (s : State) (i : Fin 48) (n : Nat) : (s.fbell i n).dies = s.dies := by
  simp only [State.fbell]
  split <;> rfl

theorem answers_of_dies_eq {s t : State} (h : t.dies = s.dies) (p : Page) : t.answers p = s.answers p := by
  unfold State.answers State.die
  rw [h]

section
variable {m : Master} {i : Fin 48} {s : State} (ha : s.answers (mbxPage i) = true)
include ha

theorem mbxSend_of_foreign (hf : State.foreign m i = true) : mbxSend m i s = s.mbxReject m i := by
  simp [mbxSend, ha, hf]

theorem mbxSend_of_full (hf : State.foreign m i = false) (hfull : s.isSet (mbxPage i) R.mbx.MBX_STS_IN_FULL = true) :
    mbxSend m i s = (s.err (mbxPage i) 8 {}).mbxReject m i := by
  simp [mbxSend, ha, hf, hfull]

section
variable (hempty : s.isSet (mbxPage i) R.mbx.MBX_STS_IN_FULL = false)
include hempty

theorem mbxSend_of_hostPair (hi : i.val < 32) :
    mbxSend m i s = ((s.setF (mbxPage i) R.mbx.MBX_STS_IN_FULL 1).fbell i 1).unknownIn i := by
  simp [mbxSend, ha, foreign_of_hostPair hi, hempty, hi]

/-- A message of an internal master on an internal page rings the sequencer of the pair's half too. -/
theorem mbxSend_of_internalPair {q : Page} (hi : 32 ≤ i.val) (hm : isHost m = false)
    (hq : q = .seq (if i.val < 40 then .A else .B)) (hseq : s.answers q = true) :
    mbxSend m i s =
      (((s.setF (mbxPage i) R.mbx.MBX_STS_IN_FULL 1).fbell i 1).pushBell q (2 ^ (i.val % 8))).unknownIn i := by
  have hseq' : ((s.setF (mbxPage i) R.mbx.MBX_STS_IN_FULL 1).fbell i 1).answers q = true :=
    (answers_of_dies_eq (fbell_dies ..) q).trans hseq
  subst hq
  simp only [mbxSend, ha, foreign_of_internal hm, hempty, Nat.not_lt.mpr hi, hseq', Bool.not_true, Bool.false_eq_true, if_false, if_true]

end

/-! ## ACK, RSEND and RACK (09 R306, R308) -/

theorem mbxAck_of_full (hf : State.foreign m i = false) (hfull : s.isSet (mbxPage i) R.mbx.MBX_STS_OUT_FULL = true) :
    mbxAck m i s = (((s.setF (mbxPage i) R.mbx.MBX_STS_OUT_FULL 0).fbell i 2).fwNext i).unknownIn i := by
  simp [mbxAck, ha, hf, hfull]

theorem mbxAck_of_empty (hf : State.foreign m i = false) (hempty : s.isSet (mbxPage i) R.mbx.MBX_STS_OUT_FULL = false) :
    mbxAck m i s = s.stateErr (mbxPage i) := by
  simp [mbxAck, ha, hf, hempty]

theorem mbxRsend_of_empty (hm : isHost m = false) (hempty : s.isSet (mbxPage i) R.mbx.MBX_STS_OUT_FULL = false) :
    mbxRsend m i s = (s.setF (mbxPage i) R.mbx.MBX_STS_OUT_FULL 1).pushBell (mbxPage i) 1 := by
  simp [mbxRsend, ha, hm, hempty]

theorem mbxRsend_of_full (hm : isHost m = false) (hfull : s.isSet (mbxPage i) R.mbx.MBX_STS_OUT_FULL = true) :
    mbxRsend m i s = (s.err (mbxPage i) 9 {}).mbxReject m i := by
  simp [mbxRsend, ha, hm, hfull]

theorem mbxRack_of_full (hm : isHost m = false) (hfull : s.isSet (mbxPage i) R.mbx.MBX_STS_IN_FULL = true) :
    mbxRack m i s = s.ackIn i := by
  simp [mbxRack, ha, hm, hfull]

theorem mbxRack_of_host (hm : isHost m = true) : mbxRack m i s = s.mbxReject m i := by
  simp [mbxRack, ha, hm]

/-! ## Slot words and firmware's doorbell (09 R306, R307, R315) -/

section
variable {word : Fin 64} {value : Word}

theorem inSlotWrite_of_empty (hf : State.foreign m i = false) (harm : s.armed (mbxPage i) 8 = false)
    (hempty : s.isSet (mbxPage i) R.mbx.MBX_STS_IN_FULL = false) :
    inSlotWrite m i word value s = s.setF (mbxPage i) (R.mbx.IN_SLOT_DATA.ix word.val) value.toNat := by
  simp [inSlotWrite, ha, hf, harm, hempty]

theorem inSlotWrite_of_full (hf : State.foreign m i = false) (harm : s.armed (mbxPage i) 8 = false)
    (hfull : s.isSet (mbxPage i) R.mbx.MBX_STS_IN_FULL = true) :
    inSlotWrite m i word value s = (s.err (mbxPage i) 8 {}).mbxReject m i := by
  simp [inSlotWrite, ha, hf, harm, hfull]

theorem outSlotWrite_of_empty (hm : isHost m = false) (hempty : s.isSet (mbxPage i) R.mbx.MBX_STS_OUT_FULL = false) :
    outSlotWrite m i word value s = s.setF (mbxPage i) (R.mbx.OUT_SLOT_DATA.ix word.val) value.toNat := by
  simp [outSlotWrite, ha, hm, hempty]

end

theorem fdbSet_of_taken {bits : Word} (hf : State.foreign m i = false) : fdbSet m i bits s = s.fbell i bits.toNat := by
  simp [fdbSet, ha, hf]

end

/-! ## The request in IN of a host pair (09 R308, R311) -/

/-- The mailbox of a host pair. -/
abbrev hostPair (i : Fin 32) : Fin 48 := Fin.ofNat 48 i.val

/-- A request of a command code is in IN, and firmware has room for one more response. -/
structure RequestWaits (i : Fin 32) (op : Nat) (s : State) : Prop where
  answers : s.answers (mbxPage (hostPair i)) = true
  full : s.isSet (mbxPage (hostPair i)) R.mbx.MBX_STS_IN_FULL = true
  code : msgOp (s.inMsg (hostPair i)) = op
  room : (s.waitingOut (hostPair i)).length < 8

section
variable {i : Fin 32} {op : Nat} {priv : Bool} {lenOk : Nat → Bool} {act : Fin 48 → List Byte → State → State} {s : State}
  (hw : RequestWaits i op s)
include hw

/-- Firmware takes a request that waits: what it does with it is left to the checks. -/
theorem runtime_of_waiting :
    s.runtime i op priv lenOk act =
      if s.halted then s.fwReply (hostPair i) (s.inMsg (hostPair i)) 1 []
      else if priv && decide (i.val ≥ 4) then s.fwReply (hostPair i) (s.inMsg (hostPair i)) 3 []
      else if msgRsvd (s.inMsg (hostPair i)) ≠ 0 || !lenOk (msgLen (s.inMsg (hostPair i))) then
        s.fwReply (hostPair i) (s.inMsg (hostPair i)) 2 []
      else act (hostPair i) (s.inMsg (hostPair i)) s := by
  simp only [State.runtime, hw.answers, hw.full, hw.code, ge_iff_le, Nat.not_le.mpr hw.room, decide_true, decide_false, Bool.and_self,
    Bool.not_true, Bool.or_self, Bool.false_eq_true, if_false]

theorem runtime_of_halted (hh : s.halted = true) :
    s.runtime i op priv lenOk act = s.fwReply (hostPair i) (s.inMsg (hostPair i)) 1 [] :=
  (runtime_of_waiting hw).trans (if_pos hh)

section
variable (hh : s.halted = false)
include hh

theorem runtime_of_denied (hpair : 4 ≤ i.val) :
    s.runtime i op true lenOk act = s.fwReply (hostPair i) (s.inMsg (hostPair i)) 3 [] := by
  rw [runtime_of_waiting hw, hh]
  simp [hpair]

/-- A well-formed request that its pair may send is carried out. -/
theorem runtime_of_allowed (hpriv : priv = true → i.val < 4) (hrsvd : msgRsvd (s.inMsg (hostPair i)) = 0)
    (hlen : lenOk (msgLen (s.inMsg (hostPair i))) = true) :
    s.runtime i op priv lenOk act = act (hostPair i) (s.inMsg (hostPair i)) s := by
  have hallowed : (priv && decide (i.val ≥ 4)) = false := by simpa using hpriv
  rw [runtime_of_waiting hw, hh, hallowed, hrsvd, hlen]
  rfl

end
end

/-- XT_WRITE of as many entries as its length says writes them in order. -/
theorem xtWrite_of_entries {i : Fin 32} {s : State} {n : Nat} (hw : RequestWaits i 3 s) (hh : s.halted = false) (hpair : i.val < 4)
    (hrsvd : msgRsvd (s.inMsg (hostPair i)) = 0) (hn : natOf ((msgBody (s.inMsg (hostPair i))).take 2) = n) (h1 : 1 ≤ n) (h41 : n ≤ 41)
    (hlen : msgLen (s.inMsg (hostPair i)) = 2 + 6 * n) :
    xtWrite i s =
      (let t := foldOver (List.range n) (fun k (t : State) =>
         let e := ((msgBody (s.inMsg (hostPair i))).drop (2 + 6 * k)).take 6
         t.setTransit (natOf (e.take 2)) ((e.drop 2).map (·.toNat))) s
       t.settle.fwReply (hostPair i) (s.inMsg (hostPair i)) 0 []) := by
  subst hn
  have hrange : (decide (8 ≤ msgLen (s.inMsg (hostPair i))) && decide (msgLen (s.inMsg (hostPair i)) ≤ 248)) = true := by
    simp only [Bool.and_eq_true, decide_eq_true_eq]; omega
  refine (runtime_of_allowed hw hh (fun _ => hpair) hrsvd hrange).trans (if_neg ?_)
  simp only [hlen, Bool.or_eq_true, decide_eq_true_eq, ne_eq, not_true, or_false]
  omega

/-- Settles O18: the slots by whether they are full, the requests by the checks that firmware makes of each. -/
theorem mailboxCommands : Obligations.MailboxCommands := by
  unfold Obligations.MailboxCommands
  refine ⟨?send, ?sendFull, ?sendForeign, ?sendInternal, ?ack, ?ackEmpty, ?rsend, ?rsendFull, ?rack, ?rackHost, ?slotIn, ?slotInFull,
    ?slotOut, ?fdb, ?info, ?numa, ?xtWrite, ?xtRead, ?noteAck, ?halted, ?denied⟩
  case send =>
    intro m i s hm ha hi hempty
    exact next_of_reaches hm (mbxSend_of_hostPair ha hempty hi)
  case sendFull =>
    intro m i s hm ha hf hfull
    exact next_of_reaches hm (mbxSend_of_full ha hf hfull)
  case sendForeign =>
    intro m i s hm ha hf
    exact next_of_reaches hm (mbxSend_of_foreign ha hf)
  case sendInternal =>
    intro m i s hm ha hi hhost hempty hseq
    exact next_of_reaches hm (mbxSend_of_internalPair ha hempty hi hhost rfl hseq)
  case ack =>
    intro m i s hm ha hf hfull
    exact next_of_reaches hm (mbxAck_of_full ha hf hfull)
  case ackEmpty =>
    intro m i s hm ha hf hempty
    exact next_of_reaches hm (mbxAck_of_empty ha hf hempty)
  case rsend =>
    intro m i s hm ha hhost hempty
    exact next_of_reaches hm (mbxRsend_of_empty ha hhost hempty)
  case rsendFull =>
    intro m i s hm ha hhost hfull
    exact next_of_reaches hm (mbxRsend_of_full ha hhost hfull)
  case rack =>
    intro m i s hm ha hhost hfull
    exact next_of_reaches hm (mbxRack_of_full ha hhost hfull)
  case rackHost =>
    intro m i s hm ha hhost
    exact next_of_reaches hm (mbxRack_of_host ha hhost)
  case slotIn =>
    intro m i word value s hm ha hf harm hempty
    exact next_of_reaches hm (inSlotWrite_of_empty ha hf harm hempty)
  case slotInFull =>
    intro m i word value s hm ha hf harm hfull
    exact next_of_reaches hm (inSlotWrite_of_full ha hf harm hfull)
  case slotOut =>
    intro m i word value s hm ha hhost hempty
    exact next_of_reaches hm (outSlotWrite_of_empty ha hhost hempty)
  case fdb =>
    intro m i bits s hm ha hf
    exact next_of_reaches hm (fdbSet_of_taken ha hf)
  case info =>
    intro i s j b ha hfull hop hroom hh hrsvd hlen
    exact next_of_effect (runtime_of_allowed ⟨ha, hfull, hop, hroom⟩ hh nofun hrsvd (decide_eq_true hlen))
  case numa =>
    intro i s j b ha hfull hop hroom hh hrsvd hlen
    exact next_of_effect (runtime_of_allowed ⟨ha, hfull, hop, hroom⟩ hh nofun hrsvd (decide_eq_true hlen))
  case xtWrite =>
    intro i s j b ha hfull hop hroom hh hpair hrsvd h1 h41 hlen
    exact next_of_effect (xtWrite_of_entries ⟨ha, hfull, hop, hroom⟩ hh hpair hrsvd rfl h1 h41 hlen)
  case xtRead =>
    intro i s j b ha hfull hop hroom hh hrsvd hlen
    exact next_of_effect (runtime_of_allowed ⟨ha, hfull, hop, hroom⟩ hh nofun hrsvd (decide_eq_true hlen))
  case noteAck =>
    intro i s j b ha hfull hop hroom hh hrsvd hlen
    exact next_of_effect (runtime_of_allowed ⟨ha, hfull, hop, hroom⟩ hh nofun hrsvd (decide_eq_true hlen))
  case halted =>
    intro i s j ha hfull hop hroom hh
    exact next_of_effect (runtime_of_halted ⟨ha, hfull, hop, hroom⟩ hh)
  case denied =>
    intro i s j ha hfull hop hroom hh hpair
    exact next_of_effect (runtime_of_denied ⟨ha, hfull, hop, hroom⟩ hh hpair)

end Sys2Proof.Proofs

/-! SUPPORT and statement: resets, power states, configuration and DOE of the PCIe functions (09 R284, R288, R294 to R296, R312). -/

namespace Sys2Proof.Proofs

open Sys2Proof.Machine

/-! ## PERST (09 R295) -/

theorem perst_of_answers {h : Half} {s : State} (ha : s.answers (.pcie h) = true) :
    perst h s =
      (let t := (s.setPerst h true).linkLoss h
       let t := t.setHport h { t.hport h with wasUp := t.isSet (.pcie h) R.pcie.HOST_ROLE_CARRIES_OTHER }
       t.resetFn (t.portFn h)) := by
  simp [perst, ha]

theorem perst_of_silent {h : Half} {s : State} (ha : s.answers (.pcie h) = false) : perst h s = s.setPerst h true := by
  simp [perst, ha]

/-! ## Over a port whose link is up (09 R295, R296, R312) -/

section
variable {f : Fn} {s : State} (ha : s.answers (.pcie (s.ownPort f)) = true)
  (hup : s.isSet (.pcie (s.ownPort f)) R.pcie.LINK_STS_DL_UP = true)
include ha hup

theorem cfgOpen_of_up : s.cfgOpen f = true := by
  simp [State.cfgOpen, ha, hup]

theorem hotReset_of_up : hotReset f s = (s.linkLoss (s.ownPort f)).resetFn f := by
  simp [hotReset, ha, hup]

theorem flr_of_up : flr f s = s.resetFn f := by
  simp [flr, ha, hup]

end

section
variable {f : Fn} {s : State} (hopen : s.cfgOpen f = true)
include hopen

theorem d3hotEntry_of_open : d3hotEntry f s = s.setFnst f { s.fnst f with d3 := true } := if_pos hopen

theorem d0Return_of_d3 (hd3 : (s.fnst f).d3 = true) :
    d0Return f s = ((s.setFnst f { s.fnst f with d3 := false }).flushPort (s.ownPort f)).flushPba f := by
  simp [d0Return, hopen, hd3]

theorem doeAbort_of_open : doeAbort f s = s.setFnst f { s.fnst f with doe := none } := if_pos hopen

/-- A function whose configuration is open and whose DOE mailbox is free takes an object. -/
theorem not_doeRequest_ignored (hdoe : (s.fnst f).doe = none) : ¬ (!s.cfgOpen f || (s.fnst f).doe.isSome) = true := by
  simp [hopen, hdoe]

theorem not_configurationWrite_ignored : ¬ (!s.cfgOpen f) = true := by
  simp [hopen]

end

/-- Settles O43: PERST by whether the port answers, every other command over an open port. -/
theorem functionResets : Obligations.FunctionResets := by
  unfold Obligations.FunctionResets
  refine ⟨?perst, ?perstSilent, ?deassert, ?hotReset, ?flr, ?d3, ?d0, ?doe, ?abort, ?configuration⟩
  case perst =>
    intro h s ha
    exact next_of_effect (perst_of_answers ha)
  case perstSilent =>
    intro h s ha
    exact next_of_effect (perst_of_silent ha)
  case deassert => exact fun _ _ => rfl
  case hotReset =>
    intro f s q ha hup
    exact next_of_effect (hotReset_of_up ha hup)
  case flr =>
    intro f s q ha hup
    exact next_of_effect (flr_of_up ha hup)
  case d3 =>
    intro f s q ha hup
    exact next_of_effect (d3hotEntry_of_open (cfgOpen_of_up ha hup))
  case d0 =>
    intro f s q ha hup hd3
    exact next_of_effect (d0Return_of_d3 (cfgOpen_of_up ha hup) hd3)
  case doe =>
    intro f o s q ha hup hdoe
    exact next_of_effect (if_neg (not_doeRequest_ignored (cfgOpen_of_up ha hup) hdoe))
  case abort =>
    intro f s q ha hup
    exact next_of_effect (doeAbort_of_open (cfgOpen_of_up ha hup))
  case configuration =>
    intro f w s q ha hup
    exact next_of_effect (if_neg (not_configurationWrite_ignored (cfgOpen_of_up ha hup)))

end Sys2Proof.Proofs

/-! SUPPORT and refutation: a BAR2 read of a line that a stack controller holds (04 R122, R123; 09 R290). -/

namespace Sys2Proof.Proofs

open Sys2Proof.Machine

/-- A read in bounds of mapped lines waits while a stack controller holds one of them. -/
theorem bar2Read_of_held {f : Fn} {offset len : Nat} {u : Upset} {s : State} (hcfg : s.cfgOpen f = true) (hmem : s.memOpen f = true)
    (hsize : offset + len ≤ 2 ^ s.getF (.pcie (s.ownPort f)) R.pcie.BAR2_SIZE_LOG2) (hlen : len ≤ 4096)
    (hmap : (linesOf (s.bar2Addr f offset) len).all (fun e => s.mapped e.1) = true)
    (hheld : s.holds [(s.bar2Addr f offset, len)] = true) :
    bar2Read f offset len u s = s.hold (.bar2 f (s.bar2Addr f offset) len u) := by
  have hany : (linesOf (s.bar2Addr f offset) len).any (fun e => !s.mapped e.1) = false := by
    rw [← List.not_all_eq_any_not, hmap, Bool.not_true]
  simp only [bar2Read, hcfg, hmem, hany, hheld, gt_iff_lt, Nat.not_lt.mpr hsize, Nat.not_lt.mpr hlen, decide_false, Bool.not_true,
    Bool.or_self, Bool.false_eq_true, if_false, if_true]

/-- A read that is served sends its data to the host. -/
theorem bar2Serve_out_ne_nil (s : State) (f : Fn) (a len : Nat) (u : Upset) : (s.bar2Serve f a len u).out ≠ [] :=
  List.append_ne_nil_of_right_ne_nil _ (List.cons_ne_nil _ _)

/-- Equal answers send the same. -/
theorem out_eq_of_next_eq {s t u : State} (h : (.next (t.onQueue s) : Res) = .next (u.onQueue s)) : t.out = u.out := by
  have hst : t.onQueue s = u.onQueue s := Host.Outcome.next.inj h
  change (t.onQueue s).out = (u.onQueue s).out
  rw [hst]

/-- Half A is up with its link and function 0 enabled, and its HBM stacks are still OFF, as at reset. -/
def stacksOff : State :=
  ({ State.reset with
      dies := [(dieComb .A, .up)]
      fn0 := { fnInit with mse := true } } : State).setF (.pcie .A) R.pcie.LINK_STS_DL_UP 1

/-- Refutes O44: its clause on a BAR2 read of mapped lines has no premise that no stack controller holds them (04 R123). Here HBM stack 0
is OFF and holds the read of address 0, so nothing is sent where the clause sends the data. -/
theorem not_hostLinksAndAccess : ¬ Obligations.HostLinksAndAccess := by
  unfold Obligations.HostLinksAndAccess
  intro hall
  obtain ⟨-, -, -, -, -, -, -, hread, -⟩ := hall
  have hcfg : stacksOff.cfgOpen .f0 = true := by decide +kernel
  have hmem : stacksOff.memOpen .f0 = true := by decide +kernel
  have hsize : 0 + 8 ≤ 2 ^ stacksOff.getF (.pcie (stacksOff.ownPort .f0)) R.pcie.BAR2_SIZE_LOG2 := by decide +kernel
  have hmap : (linesOf (stacksOff.bar2Addr .f0 0) 8).all (fun e => stacksOff.mapped e.1) = true := by decide +kernel
  have hheld : stacksOff.holds [(stacksOff.bar2Addr .f0 0, 8)] = true := by decide +kernel
  have hwait := next_of_effect (s := stacksOff) (bar2Read_of_held (u := .none) hcfg hmem hsize (by decide) hmap hheld)
  have hserve := hread .f0 0 8 .none stacksOff hcfg hmem hsize (by decide) hmap
  have hout : [] = (stacksOff.bar2Serve .f0 (stacksOff.bar2Addr .f0 0) 8 .none).out := out_eq_of_next_eq (hwait.symm.trans hserve)
  exact bar2Serve_out_ne_nil _ _ _ _ _ hout.symm

end Sys2Proof.Proofs

/-! SUPPORT and statement: the voted control complex: copies, vote windows, the hinge timer, restarts, and LINK_TRAIN (10 R317 to R328; 07 R219). -/

namespace Sys2Proof.Proofs

open Sys2Proof.Machine

/-- A copy agrees with itself. -/
theorem sameCmd_self (c : CmdCopy) : sameCmd c c = true := by
  simp [sameCmd]

theorem seq_eq_of_sameCmd {x c : CmdCopy} (h : sameCmd x c = true) : x.seq = c.seq := by
  simp only [sameCmd, Bool.and_eq_true, decide_eq_true_eq] at h
  exact h.1.2

@[simp] theorem copiesOf_setCopies (s : State) (a : Nat) (l : List CmdCopy) : (s.setCopies a l).copiesOf a = l := by
  simp [State.setCopies, State.copiesOf]

@[simp] theorem expectSeq_setCopies (s : State) (a b : Nat) (l : List CmdCopy) : (s.setCopies a l).expectSeq b = s.expectSeq b := rfl

@[simp] theorem ccMode_setCopies (s : State) (a : Nat) (l : List CmdCopy) : (s.setCopies a l).ccMode = s.ccMode := rfl

/-- A complex that takes commands does not pass one by. -/
theorem not_ignored_of_ccLive {s : State} (hlive : s.ccLive = true) : ¬ (!s.ccLive) = true := by
  simp [hlive]

/-! ## Copies of a command (10 R318, R319, R323) -/

/-- The complex takes no copy while it is not live, nor from a channel that neither votes nor stands by. -/
theorem commandCopy_of_ignored {c : CmdCopy} {s : State} (h : s.ccLive = false ∨ (s.chan c.chan ≠ 1 ∧ s.chan c.chan ≠ 2)) :
    commandCopy c s = s := by
  refine if_pos ?_
  rcases h with hdead | ⟨hvote, hstandby⟩
  · simp [hdead]
  · simp [hvote, hstandby]

/-- While a promotion holds the actuator, the standby's copy of a command that is there decides it. -/
theorem commandCopy_of_promotion {c : CmdCopy} {s : State} (hlive : s.ccLive = true) (hstandby : s.chan c.chan = 2)
    (hpromo : s.cc.promo.contains c.actuator.val = true) (harm : s.armed (chanPage c.chan) 8 = false)
    (hthere : (s.copiesOf c.actuator.val).any (fun x => x.seq = c.seq) = true) : commandCopy c s = s.promote c := by
  simp only [commandCopy, hlive, hstandby, hpromo, harm, hthere, decide_true, Bool.not_true, Bool.and_self, Bool.or_true, Bool.or_self,
    Bool.false_eq_true, if_false, if_true]

section
variable {c : CmdCopy} {s : State} (hlive : s.ccLive = true) (hvote : s.chan c.chan = 1)
  (hpromo : s.cc.promo.contains c.actuator.val = false) (harm : s.armed (chanPage c.chan) 8 = false)
include hlive hvote hpromo harm

/-- The first copy of a voting channel with the expected number joins its window. -/
theorem commandCopy_of_expected (hseq : c.seq.toNat = s.expectSeq c.actuator.val)
    (hfirst : (s.copiesOf c.actuator.val).any (fun x => x.seq = c.seq && x.chan = c.chan) = false) :
    commandCopy c s = s.judge1 c := by
  simp only [commandCopy, hlive, hvote, hpromo, harm, hseq, hfirst, ne_eq, not_true, decide_true, decide_false, Bool.not_true,
    Bool.true_or, Bool.or_self, Bool.false_and, Bool.false_eq_true, if_false]

/-- With no window open a copy with another number than the expected one is a disagreement, be it the last accepted number or none. -/
theorem commandCopy_of_unexpected (hseq : c.seq.toNat ≠ s.expectSeq c.actuator.val) (hnone : s.copiesOf c.actuator.val = []) :
    commandCopy c s = s.disagree := by
  cases hlast : s.cc.last.find? (fun e => decide (e.1 = c.actuator.val)) <;>
    simp only [commandCopy, hlive, hvote, hpromo, harm, hseq, hnone, hlast, List.isEmpty_nil, ne_eq, not_false_eq_true, decide_true,
      Bool.not_true, Bool.not_false, Bool.true_or, Bool.or_self, Bool.and_false, Bool.and_self, Bool.false_eq_true, if_false, if_true]

end

/-- The second of two equal copies from different channels has its command accepted, whatever the mode, but that a single channel needs no second. -/
theorem judge1_of_second_equal {c x : CmdCopy} {s : State} (hseq : c.seq.toNat = s.expectSeq c.actuator.val)
    (hone : s.copiesOf c.actuator.val = [x]) (hchan : x.chan ≠ c.chan) (hsame : sameCmd x c = true) (hmode : s.ccMode ≠ 5) :
    s.judge1 c = (s.setCopies c.actuator.val [x, c]).acceptCmd c := by
  have hagree : [x, c].find? (fun y => !sameCmd y c) = none := by
    simp [hsame, sameCmd_self]
  simp [State.judge1, hseq, hone, hchan, hsame, hmode, seq_eq_of_sameCmd hsame, hagree]

/-! ## The end of a vote window (10 R319, R323) -/

section
variable {a : Fin 32} {s : State} (hlive : s.ccLive = true)
include hlive

/-- A promotion that its window outlives has failed. -/
theorem voteWindowExpire_of_promotion (hpromo : s.cc.promo.contains a.val = true) : voteWindowExpire a s = s.promoteFail := by
  simp only [voteWindowExpire, hlive, hpromo, Bool.not_true, Bool.false_eq_true, if_false, if_true]

section
variable {x : CmdCopy} {t : List CmdCopy} (hpromo : s.cc.promo.contains a.val = false) (hopen : s.copiesOf a.val = x :: t)
include hpromo hopen

section
variable (hdone : x.seq.toNat ≠ s.expectSeq a.val) (hmode : s.ccMode = 1)
include hdone hmode

/-- A command that every voter has sent leaves the actuator's windows. -/
theorem voteWindowExpire_of_complete
    (hall : s.voters.filter (fun k => !((x :: t).filter (fun y => y.seq = x.seq)).any (fun y => y.chan = k)) = []) :
    voteWindowExpire a s = s.setCopies a.val ((x :: t).filter (fun y => y.seq ≠ x.seq)) := by
  simp only [voteWindowExpire, hlive, hpromo, hopen, hdone, hmode, hall, ccMode_setCopies, Bool.not_true, Bool.false_eq_true, if_false,
    ne_eq, not_true, not_false_eq_true, if_true]

/-- The first voter without a copy of an accepted command is outvoted, and the others go on as a pair. -/
theorem voteWindowExpire_of_missing {k : Chan} {l : List Chan}
    (hmissing : s.voters.filter (fun k => !((x :: t).filter (fun y => y.seq = x.seq)).any (fun y => y.chan = k)) = k :: l) :
    voteWindowExpire a s = ((s.setCopies a.val ((x :: t).filter (fun y => y.seq ≠ x.seq))).outvote k).setMode 2 := by
  simp only [voteWindowExpire, hlive, hpromo, hopen, hdone, hmode, hmissing, ccMode_setCopies, Bool.not_true, Bool.false_eq_true, if_false,
    ne_eq, not_true, not_false_eq_true, if_true]

end

section
variable (hpending : x.seq.toNat = s.expectSeq a.val)
include hpending

/-- Three channels that agree on no command halt. -/
theorem voteWindowExpire_of_triple (hmode : s.ccMode = 1) :
    voteWindowExpire a s = (s.setCopies a.val ((x :: t).filter (fun y => y.seq ≠ x.seq))).disagree.safeHalt 3 := by
  simp only [voteWindowExpire, hlive, hpromo, hopen, hpending, hmode, Bool.not_true, Bool.false_eq_true, if_false, ne_eq, not_true, if_true]

/-- For fewer channels a command that is not accepted is a disagreement of the pair. -/
theorem voteWindowExpire_of_pair (hmode : s.ccMode ≠ 1) : voteWindowExpire a s = s.pairDisagree a.val := by
  simp only [voteWindowExpire, hlive, hpromo, hopen, hpending, hmode, Bool.not_true, Bool.false_eq_true, if_false, ne_eq, not_true]

end
end
end

/-! ## The hinge timer and restarts (10 R325, R328) -/

/-- Four bundles bring a lost hinge back to two halves that are up. -/
theorem hingeRetrainTimer_of_four {bundles : List (Fin 16)} {s : State} (hlost : s.getF .ck R.ctrlch.CC_STS_HINGE = 2)
    (hh : s.halted = false) (hA : s.halfUp .A = true) (hB : s.halfUp .B = true)
    (hfour : 4 ≤ (allBundles.filter (fun b => bundles.contains b)).length) :
    hingeRetrainTimer bundles s = s.hingeBack (allBundles.filter (fun b => bundles.contains b)) := by
  refine if_pos ?_
  simp only [State.halfUp, decide_eq_true_eq] at hA hB
  simp only [hlost, hh, hA, hB, ge_iff_le, hfour, decide_true, Bool.not_false, Bool.true_or, Bool.and_self]

section
variable {ok : List Chan} {s : State}

theorem ccRestart_of_pcie {f : Fn} (hb : s.bound (.pcie f) = true) : ccRestart (.pcie f) ok s = s.mgmtReply (.pcie f) 5 3 [] := by
  simp [ccRestart, hb]

theorem ccRestart_of_halted (hb : s.bound .i3c = true) (hmode : s.ccMode = 4) :
    ccRestart .i3c ok s = (s.mgmtReply .i3c 5 0 []).ccRestartWith ok := by
  simp [ccRestart, hb, hmode]

theorem ccRestart_of_running (hb : s.bound .i3c = true) (hmode : s.ccMode ≠ 4) :
    ccRestart .i3c ok s = (s.stateErr .ck).mgmtReply .i3c 5 1 [] := by
  simp [ccRestart, hb, hmode]

end

/-! ## LINK_TRAIN (07 R219; 10 R328) -/

/-- The control complex adds nothing to a training that brings no bypass to a lost hinge. -/
theorem linkTrain_of_not_bypassReturns {p : PortId} {o : TrainObs} {s : State}
    (h : s.isBypass p = false ∨ (s.trainLink p o).hingeView ≠ 1) : linkTrain p o s = s.trainLink p o := by
  refine if_neg ?_
  rcases h with hother | hdown
  · simp [hother]
  · simp [hdown]

/-- Settles O14: a copy and a vote window by what the actuator holds, a restart by its binding and the mode, the rest by the lemmas above. -/
theorem controlComplex : Obligations.ControlComplex := by
  unfold Obligations.ControlComplex
  refine ⟨?frame, ?copyExpected, ?copyUnexpected, ?copySecond, ?copyPromotes, ?copyIgnored, ?windowPromotion, ?windowAccepted, ?windowTriple,
    ?windowPair, ?heartbeat, ?hinge, ?restart, ?restartRunning, ?restartPcie, ?restartWrite, ?train, ?trainBypass⟩
  case frame =>
    intro joining s hlive
    exact next_of_effect (if_neg (not_ignored_of_ccLive hlive))
  case copyExpected =>
    intro c s hlive hvote hpromo harm hseq hfirst
    exact next_of_effect (commandCopy_of_expected hlive hvote hpromo harm hseq hfirst)
  case copyUnexpected =>
    intro c s hlive hvote hpromo harm hseq hnone
    exact next_of_effect (commandCopy_of_unexpected hlive hvote hpromo harm hseq hnone)
  case copySecond =>
    intro c x s hlive hvote hpromo harm hseq hone hchan hsame hmode
    have hfirst : (s.copiesOf c.actuator.val).any (fun y => y.seq = c.seq && y.chan = c.chan) = false := by
      simp [hone, hchan]
    have hmode' : s.ccMode ≠ 5 := by omega
    exact next_of_effect ((commandCopy_of_expected hlive hvote hpromo harm hseq hfirst).trans
      (judge1_of_second_equal hseq hone hchan hsame hmode'))
  case copyPromotes =>
    intro c s hlive hstandby hpromo harm hthere
    exact next_of_effect (commandCopy_of_promotion hlive hstandby hpromo harm hthere)
  case copyIgnored =>
    intro c s h
    exact next_of_effect (commandCopy_of_ignored h)
  case windowPromotion =>
    intro a s hlive hpromo
    exact next_of_effect (voteWindowExpire_of_promotion hlive hpromo)
  case windowAccepted =>
    intro a x t s hlive hpromo hopen hdone hmode
    refine next_of_effect ?_
    dsimp only
    split
    case h_1 hall => exact voteWindowExpire_of_complete hlive hpromo hopen hdone hmode hall
    case h_2 hmissing => exact voteWindowExpire_of_missing hlive hpromo hopen hdone hmode hmissing
  case windowTriple =>
    intro a x t s hlive hpromo hopen hpending hmode
    exact next_of_effect (voteWindowExpire_of_triple hlive hpromo hopen hpending hmode)
  case windowPair =>
    intro a x t s hlive hpromo hopen hpending hmode
    exact next_of_effect (voteWindowExpire_of_pair hlive hpromo hopen hpending hmode)
  case heartbeat =>
    intro v s hlive
    exact next_of_effect (if_neg (not_ignored_of_ccLive hlive))
  case hinge =>
    intro bundles s hlost hh hA hB hfour
    exact next_of_effect (hingeRetrainTimer_of_four hlost hh hA hB hfour)
  case restart =>
    intro ok s hb hmode
    exact next_of_effect (ccRestart_of_halted hb hmode)
  case restartRunning =>
    intro ok s hb hmode
    exact next_of_effect (ccRestart_of_running hb hmode)
  case restartPcie =>
    intro f ok s hb
    exact next_of_effect (ccRestart_of_pcie hb)
  case restartWrite =>
    intro m ok s hm ha
    exact next_of_reaches hm (if_pos ha)
  case train =>
    intro p o s hother
    exact next_of_effect (linkTrain_of_not_bypassReturns (.inl hother))
  case trainBypass =>
    intro p o s _ _ hdown
    exact next_of_effect (linkTrain_of_not_bypassReturns (.inr hdown))

end Sys2Proof.Proofs

/-! SUPPORT and statement: the management endpoint, its events and telemetry, and the I3C target (10 R330 to R333; 04 R131; 11 R352). -/

namespace Sys2Proof.Proofs

open Sys2Proof.Machine

/-! ## The endpoint's commands (10 R331, Table 10.6) -/

/-- An endpoint that serves a binding does not pass its commands by. -/
theorem not_ignored_of_bound {b : Binding} {s : State} (hb : s.bound b = true) : ¬ (!s.bound b) = true := by
  simp [hb]

/-- GET_EVENTS takes a count of 1 to 8. -/
theorem not_badEventCount {count : BitVec 8} (h1 : 1 ≤ count.toNat) (h8 : count.toNat ≤ 8) :
    ¬ (decide (count.toNat = 0) || decide (count.toNat > 8)) = true := by
  simp only [Bool.or_eq_true, decide_eq_true_eq]
  omega

section
variable {b : Binding} {eid : BitVec 8} {s : State} (hr : s.reached b = true)
include hr

theorem setEndpointId_of_valid (h0 : eid ≠ 0) (h255 : eid ≠ 0xFF) :
    setEndpointId b eid s = (s.setCc (eidFld b) eid.toNat).emit (.mgmt b ([1, 0, 0, eid] ++ [0])) := by
  simp only [setEndpointId, hr, h0, h255, decide_false, Bool.not_true, Bool.or_self, Bool.false_eq_true, if_false]

/-- EIDs 0 and 255 are invalid data. -/
theorem setEndpointId_of_invalid (hbad : eid = 0 ∨ eid = 0xFF) : setEndpointId b eid s = (s.err .ck 14 {}).emit (.mgmt b [1, 2]) := by
  have hbad' : (decide (eid = 0) || decide (eid = 0xFF)) = true := by simpa using hbad
  simp only [setEndpointId, hr, hbad', Bool.not_true, Bool.false_eq_true, if_false, if_true]

end

/-! ## Descriptions of DIMMs (04 R131) -/

/-- The quarters of a channel's description once one more has arrived. -/
abbrev dimmQuarters (s : State) (h : Half) (c : Fin 8) (offset : Nat) (bytes : List Byte) : List (Nat × List Byte) :=
  mput (mget [] s.dimmIn (chanKey h c.val)) offset bytes

section
variable {h : Half} {c : Fin 8} {offset : Nat} {bytes : List Byte} {s : State}

/-- Descriptions are not taken over PCIe. -/
theorem dimmDesc_of_pcie {f : Fn} (hb : s.bound (.pcie f) = true) :
    dimmDesc (.pcie f) h c offset bytes s = s.mgmtReply (.pcie f) 3 3 [] :=
  if_neg (not_ignored_of_bound hb)

section
variable (hb : s.bound .i3c = true)
include hb

theorem dimmDesc_of_malformed (hbad : bytes.length ≠ 256 ∨ [0, 256, 512, 768].contains offset = false) :
    dimmDesc .i3c h c offset bytes s = s.mgmtReply .i3c 3 2 [] := by
  have hbad' : (decide (bytes.length ≠ 256) || !([0, 256, 512, 768].contains offset)) = true := by
    rcases hbad with hlen | hoff
    · rw [decide_eq_true hlen, Bool.true_or]
    · rw [hoff, Bool.not_false, Bool.or_true]
  exact (if_neg (not_ignored_of_bound hb)).trans (if_pos hbad')

section
variable (hlen : bytes.length = 256) (hoff : [0, 256, 512, 768].contains offset = true)
include hlen hoff

/-- A well-formed quarter is kept until all four are there; a last one that comes too late starts the description anew. -/
theorem dimmDesc_of_quarter :
    dimmDesc .i3c h c offset bytes s =
      if (dimmQuarters s h c offset bytes).length < 4 then
        ({ s with dimmIn := mput s.dimmIn (chanKey h c.val) (dimmQuarters s h c offset bytes) }).mgmtReply .i3c 3 0 []
      else if s.freeAhead 0 % 2 = 0 then
        ({ s.drawn 1 with dimmIn := mput s.dimmIn (chanKey h c.val) [(offset, bytes)] }).mgmtReply .i3c 3 0 []
      else
        ({ s.drawn 1 with dimmIn := merase s.dimmIn (chanKey h c.val) }).takeDimm h c
          ((dimmQuarters s h c offset bytes).flatMap (fun (e : Nat × List Byte) => e.2)) := by
  have hgood : ¬ (decide (bytes.length ≠ 256) || !([0, 256, 512, 768].contains offset)) = true := by
    rw [hoff, hlen]
    decide
  exact (if_neg (not_ignored_of_bound hb)).trans (if_neg hgood)

end
end
end

/-! ## Common command codes of the I3C target (10 R330, Table 10.5) -/

section
variable {s : State} (hup : s.i3cUp = true)
include hup

/-- A command that the target takes is acknowledged and has its effect. -/
theorem ccc_of_taken {ok : Bool} {act : State → State} (hok : ok = true) : s.ccc ok act = act (s.emit (.i3cAck true)) := by
  simp only [State.ccc, hup, hok, Bool.not_true, Bool.false_eq_true, if_false, if_true]

/-- Any other one is not acknowledged. -/
theorem ccc_of_refused {ok : Bool} {act : State → State} (hok : ok = false) : s.ccc ok act = s.emit (.i3cAck false) := by
  simp only [State.ccc, hup, hok, Bool.not_true, Bool.false_eq_true, if_false]

/-- RSTACT takes the actions 0 and 1. -/
theorem rstact_of_unsupported {action : BitVec 8} (h2 : 2 ≤ action.toNat) : rstact action s = s.emit (.i3cAck false) :=
  ccc_of_refused hup (decide_eq_false (Nat.not_le.mpr h2))

/-- SETDASA assigns by the static address, once. -/
theorem setdasa_of_refused {static da : BitVec 7} (h : s.hasDa = true ∨ static ≠ 0x4C) :
    setdasa static da s = s.emit (.i3cAck false) := by
  refine ccc_of_refused hup ?_
  rcases h with hda | hother
  · rw [hda, Bool.not_true, Bool.false_and]
  · rw [decide_eq_false hother, Bool.and_false]

theorem setdasa_of_static {static da : BitVec 7} (hno : s.hasDa = false) (hstatic : static = 0x4C) :
    setdasa static da s = (s.emit (.i3cAck true)).setDa true da.toNat :=
  ccc_of_taken hup (by rw [hno, decide_eq_true hstatic]; rfl)

theorem hotJoin_of_first (hno : s.hasDa = false) (hcold : s.i3c.hot = false) :
    hotJoin s = (s.setI3c { s.i3c with hot := true }).emit .hotJoin :=
  if_pos (by rw [hup, hno, hcold]; rfl)

theorem ibiRepeat_of_unread {e : MgmtEvt} {t : List MgmtEvt} (hunread : s.evq = e :: t) (hon : s.ibiOn = true) :
    ibiRepeat s = s.emit (.ibi e.cls) := by
  simp only [ibiRepeat, hunread, hup, hon, Bool.and_self, if_true]

section
variable {data : List Byte}

/-- A GET command directed to a target with an address sends its data. -/
theorem getCcc_of_addressed (hda : s.hasDa = true) : s.getCcc data = (s.emit (.i3cAck true)).emit (.i3c data) :=
  ccc_of_taken hup hda

theorem getCcc_of_unaddressed (hno : s.hasDa = false) : s.getCcc data = s.emit (.i3cAck false) :=
  ccc_of_refused hup hno

end
end

/-- Settles O15: an endpoint's command by its operands, a common command code by whether the target takes it. -/
theorem managementCommands : Obligations.ManagementCommands := by
  unfold Obligations.ManagementCommands
  refine ⟨?telemetry, ?health, ?dimmPcie, ?dimmQuarter, ?dimmLast, ?dimmMalformed, ?events, ?eid, ?eidInvalid, ?reassembly, ?refresh,
    ?enec, ?disec, ?rstdaa, ?entdaa, ?entdaaAgain, ?setdasa, ?setdasaRefused, ?setmrl, ?setmwl, ?getpid, ?getbcr, ?getdcr, ?getstatus,
    ?getmrl, ?getmwl, ?getmxds, ?getpidUnaddressed, ?getbcrUnaddressed, ?getdcrUnaddressed, ?getstatusUnaddressed, ?getmrlUnaddressed,
    ?getmwlUnaddressed, ?getmxdsUnaddressed, ?rstactReset, ?rstactNone, ?rstactUnsupported, ?hotJoin, ?ibiRepeat⟩
  case telemetry =>
    intro b s hb
    exact next_of_effect (if_pos hb)
  case health =>
    intro b s hb
    exact next_of_effect (if_pos hb)
  case dimmPcie =>
    intro f h c offset bytes s hb
    exact next_of_effect (dimmDesc_of_pcie hb)
  case dimmQuarter =>
    intro h c offset bytes s hb hlen hoff hpart
    exact next_of_effect ((dimmDesc_of_quarter hb hlen hoff).trans (if_pos hpart))
  case dimmLast =>
    intro h c offset bytes s hb hlen hoff hfull
    exact next_of_effect ((dimmDesc_of_quarter hb hlen hoff).trans (if_neg (Nat.not_lt.mpr hfull)))
  case dimmMalformed =>
    intro h c offset bytes s hb hbad
    exact next_of_effect (dimmDesc_of_malformed hb hbad)
  case events =>
    intro b count s hb h1 h8
    exact next_of_effect ((if_neg (not_ignored_of_bound hb)).trans (if_neg (not_badEventCount h1 h8)))
  case eid =>
    intro b eid s hr h0 h255
    exact next_of_effect (setEndpointId_of_valid hr h0 h255)
  case eidInvalid =>
    intro b eid s hr hbad
    exact next_of_effect (setEndpointId_of_invalid hr hbad)
  case reassembly =>
    intro b s hb
    exact next_of_effect (if_pos hb)
  case refresh =>
    intro s hkeeper
    exact next_of_effect (if_pos hkeeper)
  case enec | disec | setmrl | setmwl =>
    intro operand s hup
    exact next_of_effect (ccc_of_taken hup rfl)
  case rstdaa =>
    intro s hup
    exact next_of_effect (ccc_of_taken hup rfl)
  case entdaa =>
    intro da s hup hno
    exact next_of_effect (ccc_of_taken hup (by rw [hno]; rfl))
  case entdaaAgain =>
    intro da s hup hda
    exact next_of_effect (ccc_of_refused hup (by rw [hda]; rfl))
  case setdasa =>
    intro static da s hup hno hstatic
    exact next_of_effect (setdasa_of_static hup hno hstatic)
  case setdasaRefused =>
    intro static da s hup h
    exact next_of_effect (setdasa_of_refused hup h)
  case getpid | getbcr | getdcr | getmrl | getmwl =>
    intro s hup hda
    exact next_of_effect (getCcc_of_addressed hup hda)
  case getstatus | getmxds =>
    intro s hup hda
    exact next_of_effect (congrArg (State.drawn · 1) (getCcc_of_addressed hup hda))
  case getpidUnaddressed | getbcrUnaddressed | getdcrUnaddressed | getmrlUnaddressed | getmwlUnaddressed =>
    intro s hup hno
    exact next_of_effect (getCcc_of_unaddressed hup hno)
  case getstatusUnaddressed | getmxdsUnaddressed =>
    intro s hup hno
    exact next_of_effect (congrArg (State.drawn · 1) (getCcc_of_unaddressed hup hno))
  case rstactReset =>
    rintro _ s hup rfl
    exact next_of_effect (ccc_of_taken hup rfl)
  case rstactNone =>
    rintro _ s hup rfl
    exact next_of_effect (ccc_of_taken hup rfl)
  case rstactUnsupported =>
    intro action s hup h2
    exact next_of_effect (rstact_of_unsupported hup h2)
  case hotJoin =>
    intro s hup hno hcold
    exact next_of_effect (hotJoin_of_first hup hno hcold)
  case ibiRepeat =>
    intro e t s hunread hup hon
    exact next_of_effect (ibiRepeat_of_unread hup hunread hon)

end Sys2Proof.Proofs

/-! SUPPORT and statement: commands of a master that does not reach the block pages (13 R405, R406; 09 R302). -/

namespace Sys2Proof.Proofs

open Sys2Proof.Machine

/-- The access of a master that does not reach the pages is nothing (13 R405). -/
theorem next_of_unreached {m : Master} {s : State} {r : Res} (hm : s.reaches m = false) :
    (if s.reaches m then r else .next s) = .next s := by
  rw [hm, if_neg Bool.false_ne_true]

/-- So is one that its meaning first checks for its kind. -/
theorem next_of_wf_unreached {c : Instr} {m : Master} {s : State} {r : Res} (hc : c.wf = true) (hm : s.reaches m = false) :
    (if !c.wf then .refused .illFormed else if s.reaches m then r else .next s) = .next s := by
  rw [hc, Bool.not_true, if_neg Bool.false_ne_true, next_of_unreached hm]

/-- No access of an unreaching master has an effect. The first two cases check their kind, the next are the other accesses of a master; no other
command has one. -/
theorem exec_of_unreached (c : Instr) (m : Master) (s : State) (hc : c.wf = true) (hmaster : c.master = some m) (hm : s.reaches m = false) :
    exec c s = .next s := by
  cases c
  case badSizeAccess | latchedLowRead =>
    obtain rfl := Option.some.inj hmaster
    exact next_of_wf_unreached hc hm
  case registerWrite | blockReset | errInjWrite | lockAcquire | lockRelease | doorbellSet | doorbellUnmask | retireReq | cellReset |
      queueDoorbell | enable | pause | resume | drain | disable | queueReset | qCmdBad | semAdd | semVal | qctBaseWrite | seqQuiesce |
      seqRun | terminate | restart | ilvWrite | hbmRetrain | retrainFull | hingeLinkReset | ucieDisable | shut | unshut | oeReqOff |
      oeReqDark | oeReqDim | oeReqActive | oeReset | monSel | research | spareGo | dropRx | crcTx | fabTmo | pfCtxLoad | fcrDb |
      giveback | mbxSend | mbxAck | mbxRsend | mbxRack | inSlotWrite | outSlotWrite | fdbSet | ccRestartWrite | capReq | fmax | halfRstA |
      halfRstB | cfgNext | runNow | injDis | errCons | errRingCtl =>
    obtain rfl := Option.some.inj hmaster
    exact next_of_unreached hm
  all_goals cases hmaster

/-- The debug port alone may not reach the pages: while it is locked, or where the mask of its token lacks bit 1 (13 R405, R406). -/
theorem debug_of_unreached {m : Master} {s : State} (hm : s.reaches m = false) :
    m = .debug ∧ (s.sec.mask = none ∨ ∃ k, s.sec.mask = some k ∧ bit k 1 = false) := by
  cases m with
  | debug =>
    refine ⟨rfl, ?_⟩
    cases hmask : s.sec.mask with
    | none => exact .inl rfl
    | some k =>
      have hbit : bit k 1 = false := by simpa [State.reaches, hmask] using hm
      exact .inr ⟨k, rfl, hbit⟩
  | host0 | host1 | cc | keeper | seqA | seqB | mgmt => cases hm

/-- Settles O57, by the commands that have a master. -/
theorem debugMasterIsolation : Obligations.DebugMasterIsolation :=
  ⟨exec_of_unreached, fun _ _ => debug_of_unreached⟩

end Sys2Proof.Proofs

/-! SUPPORT and statement: supplies, straps, the power-fail path, the cuts, the drain and the loss of the keeper (11 R338, R345, R346, R359;
01 R14, R15; 12 R364; 14 R420). -/

namespace Sys2Proof.Proofs

open Sys2Proof.Machine

/-! ## POR_N and the straps (11 R338; 01 R14) -/

/-- The strap is latched where V_AON is present, POR_N is released and no latch was taken before. -/
theorem priSelSample_of_unlatched {s : State} (hv : s.pins.vAon = true) (hpor : s.pins.por = false) (hs : s.pins.sampled = false) :
    priSelSample s =
      (let q := if s.pins.priSel then 1 else 0
       ({ s with pins := { s.pins with sampled := true } }).setFs .keeper
         [(R.keeper.STRAPS_PRI_SEL, q), (R.keeper.STRAPS_LEADER, q), (R.keeper.STRAPS_BRDID, s.pins.brdid.toNat)]) :=
  if_pos (by simp [hv, hpor, hs])

/-! ## The power-fail path and the drain (11 R345, R359) -/

section
variable {s : State} (hr : s.railsUp = true)
include hr

/-- Outside safe halt and before any drain the device enters D-DRAIN, drops DARK and cuts the rails. -/
theorem powerFail_of_running (hh : s.halted = false) (hd : s.draining = false) :
    powerFail s =
      (let t := (({ s with pins := { s.pins with pwrFail := true } }).setDstate 4).mgmtEvt 7 none
       let t := t.err .gPwr 10 { parts := bitsOf t.busyParts }
       ((t.abandon).sendDark t.leader).railsOff 3) := by
  simp only [powerFail, hr, hh, hd, Bool.not_true, Bool.false_eq_true, if_false]

/-- In safe halt the cells stop, and nothing else. -/
theorem powerFail_of_halted (hh : s.halted = true) :
    powerFail s = ({ s with pins := { s.pins with pwrFail := true } } : State).abandon := by
  simp only [powerFail, hr, hh, Bool.not_true, Bool.false_eq_true, if_false, if_true]

end

/-- Settles O6: each command by what it finds of the pins, the rails and the drain. -/
theorem supplyAndStrapCommands : Obligations.SupplyAndStrapCommands := by
  unfold Obligations.SupplyAndStrapCommands
  refine ⟨?vAonRise, ?vAonLoss, ?porOff, ?porOn, ?porRelease, ?latch, ?priSel, ?priSelOff, ?vin48Rise, ?vin48Low, ?undervoltage, ?overvoltage,
    ?powerFail, ?powerFailHalted, ?drainEnd, ?keeperLoss⟩
  case vAonRise =>
    intro k s hoff
    exact next_of_effect (if_neg (ne_true_of_eq_false hoff))
  case vAonLoss =>
    intro s
    rfl
  case porOff =>
    intro s hoff
    exact next_of_effect (if_neg (ne_true_of_eq_false hoff))
  case porOn =>
    intro s hr
    exact next_of_effect (if_pos hr)
  case porRelease =>
    intro s hpor
    exact next_of_effect (if_pos hpor)
  case latch =>
    intro s hv hpor hs
    exact next_of_effect (priSelSample_of_unlatched hv hpor hs)
  case priSel =>
    intro level s hv
    exact next_of_effect (if_pos hv)
  case priSelOff =>
    intro level s hv
    exact next_of_effect (if_neg (ne_true_of_eq_false hv))
  case vin48Rise =>
    intro s
    rfl
  case vin48Low =>
    intro s hr
    exact next_of_effect (if_pos hr)
  case undervoltage =>
    intro s hr
    exact next_of_effect (if_pos hr)
  case overvoltage =>
    intro s hr
    exact next_of_effect (if_pos hr)
  case powerFail =>
    intro s hr hh hd
    exact next_of_effect (powerFail_of_running hr hh hd)
  case powerFailHalted =>
    intro s hr hh
    exact next_of_effect (powerFail_of_halted hr hh)
  case drainEnd =>
    intro s hd
    exact next_of_effect (if_neg (by simp [hd]))
  case keeperLoss =>
    intro s hup
    exact next_of_effect (if_neg (not_not_intro hup))

end Sys2Proof.Proofs

/-! SUPPORT and statement: a bring-up and the end of reduced service (12 R367 to R371, Table 12.2; 01 R15). -/

namespace Sys2Proof.Proofs

open Sys2Proof.Machine

/-- Settles O7: both commands have their effect past the one guard of each, a bring-up that is due and reduced service. -/
theorem bringUp : Obligations.BringUp := by
  unfold Obligations.BringUp
  refine ⟨?start, ?done⟩
  case start =>
    intro o s hdue
    exact next_of_effect (if_neg (by simp [hdue]))
  case done =>
    intro s hreduced
    exact next_of_effect (if_neg (by simp [hreduced]))

end Sys2Proof.Proofs

/-! SUPPORT and statement: clocks, the power cap, clock domains, the idle device and REFCLK (11 R340 to R344, R348 to R352). -/

namespace Sys2Proof.Proofs

open Sys2Proof.Machine

/-! ## The clock of a compute die (11 R343, R344) -/

section
variable {h : Half} {q : Fin 4} {s : State} (ha : s.answers (.clk h) = true) (hup : s.die (dieCd h q.val) = .up)
include ha hup

/-- The clock of a compute die that is up rises. -/
theorem clock_rises : (s.answers (.clk h) && decide (s.die (dieCd h q.val) = .up)) = true := by
  rw [ha, hup]
  rfl

/-- A duty that has risen stays; the clock rises towards its ceiling. -/
theorem clockRampStep_of_clock (hlow : s.getF (.clk h) (R.clk.CEIL_MHZ.ix q.val) < s.ceilOf h q.val) (hrise : 15 ≤ (s.cd h q.val).rise) :
    clockRampStep h q s =
      s.setF (.clk h) (R.clk.CEIL_MHZ.ix q.val) (min (s.getF (.clk h) (R.clk.CEIL_MHZ.ix q.val) + 100) (s.ceilOf h q.val)) := by
  refine (if_pos (clock_rises ha hup)).trans ?_
  rw [if_pos hlow]
  exact if_neg (Nat.not_lt.mpr hrise)

/-- At its ceiling the clock stays; the duty rises by a free amount. -/
theorem clockRampStep_of_duty (hceil : s.ceilOf h q.val ≤ s.getF (.clk h) (R.clk.CEIL_MHZ.ix q.val)) (hrise : (s.cd h q.val).rise < 15) :
    clockRampStep h q s =
      (s.drawn 1).setCd h q.val
        { s.cd h q.val with rise := (s.cd h q.val).rise + 1 + s.freeAhead 0 % (15 - (s.cd h q.val).rise) } := by
  refine (if_pos (clock_rises ha hup)).trans ?_
  dsimp only
  rw [if_neg (Nat.not_lt.mpr hceil)]
  exact if_pos hrise

end

section
variable {m : Master} {h : Half} {value : Word} {s : State}

theorem fmax_of_valid (ha : s.answers (.clk h) = true) (hlo : 600 ≤ bits value.toNat 10 0) (hhi : bits value.toNat 10 0 ≤ 1500)
    (hstep : bits value.toNat 10 0 % 10 = 0) :
    fmax m h value s =
      foldOver (List.range 4) (fun q (s : State) => s.showClock h q) (s.setF (.clk h) R.clk.FMAX_MHZ (bits value.toNat 10 0)) := by
  refine if_pos ?_
  simp only [ha, hlo, hhi, hstep, decide_true, Bool.and_self]

/-- A frequency out of range, or off the grid, is ignored. -/
theorem fmax_of_invalid (hbad : bits value.toNat 10 0 < 600 ∨ 1500 < bits value.toNat 10 0 ∨ bits value.toNat 10 0 % 10 ≠ 0) :
    fmax m h value s = s := by
  refine if_neg ?_
  simp only [Bool.and_eq_true, decide_eq_true_eq]
  omega

end

/-! ## The cap (11 R340, R341, Table 11.3) -/

section
variable {m : Master} {value : Word} {s : State} (ha : s.answers .gPwr = true) (hlo : 1500 ≤ value.toNat % 65536)
  (hhi : value.toNat % 65536 ≤ 5200)
include ha hlo hhi

/-- A cap in range is stored; the complex applies it, or it waits. -/
theorem capReq_of_valid :
    capReq m value s =
      if !s.ccLive || s.draining then { s.setF .gPwr R.pwrG.CAP_REQ_W (value.toNat % 65536) with capHeld := true }
      else (s.setF .gPwr R.pwrG.CAP_REQ_W (value.toNat % 65536)).applyCap (value.toNat % 65536) := by
  refine if_neg ?_
  simp only [ha, hlo, hhi, decide_true, Bool.and_self, Bool.not_true, Bool.false_eq_true, not_false_eq_true]

theorem capReq_of_live (hlive : s.ccLive = true) (hd : s.draining = false) :
    capReq m value s = (s.setF .gPwr R.pwrG.CAP_REQ_W (value.toNat % 65536)).applyCap (value.toNat % 65536) :=
  (capReq_of_valid ha hlo hhi).trans (if_neg (by simp [hlive, hd]))

theorem capReq_of_waiting (hwait : s.ccLive = false ∨ s.draining = true) :
    capReq m value s = { s.setF .gPwr R.pwrG.CAP_REQ_W (value.toNat % 65536) with capHeld := true } :=
  (capReq_of_valid ha hlo hhi).trans (if_pos (by simpa using hwait))

end

/-- Half A at the floor of stage 3 above its share raises the event, whatever half B does. -/
theorem capUnmet_of_A {s : State} (ha : s.answers .gPwr = true) (hup : s.halfUp .A = true) (hfloor : s.hbmLimit .A = 5)
    (hload : s.getF (.pwr .A) R.pwrH.SHARE_LOAD_W > s.getF (.pwr .A) R.pwrH.SHARE_SHARE_W) : capUnmet s = s.err .gPwr 8 := by
  refine if_pos ?_
  simp only [ha, hup, hfloor, hload, decide_true, Bool.and_self, Bool.true_or]

/-! ## Domains (11 R349, R350, Table 11.7a) -/

section
variable {d : DomRef} {toOff : Bool} {s : State} (ha : s.answers (.clk d.half) = true)
include ha

/-- A domain that answers and runs, or is gated and shall go off, goes by its row of Table 11.7a. -/
theorem domainGate_of_able (hst : s.dom d.half d.k.val = 2 ∨ (s.dom d.half d.k.val = 1 ∧ toOff = true)) :
    domainGate d toOff s =
      if d.k.val < 4 then (if s.dieBusy d.half d.k.val then s else s.setDom d.half d.k.val (if toOff then 0 else 1))
      else if 8 ≤ d.k.val && d.k.val < 28 then (if toOff then s else s.setDom d.half d.k.val 1)
      else if 28 ≤ d.k.val && d.k.val < 36 then
        if toOff then (if s.pstate d.half (Fin.ofNat 8 (d.k.val - 28)) = 0 then s.setDom d.half d.k.val 0 else s)
        else if s.pstate d.half (Fin.ofNat 8 (d.k.val - 28)) ≤ 2 then s.setDom d.half d.k.val 1 else s
      else s := by
  refine if_neg ?_
  rcases hst with hrun | ⟨hgated, hoff⟩
  · simp [ha, hrun]
  · simp [ha, hgated, hoff]

theorem domainGate_of_compute (hst : s.dom d.half d.k.val = 2) (hk : d.k.val < 4) (hidle : s.dieBusy d.half d.k.val = false) :
    domainGate d toOff s = s.setDom d.half d.k.val (if toOff then 0 else 1) := by
  rw [domainGate_of_able ha (.inl hst), if_pos hk, hidle, if_neg Bool.false_ne_true]

/-- The domain of a memory controller is gated, never off. -/
theorem domainGate_of_memory (hst : s.dom d.half d.k.val = 2) (h8 : 8 ≤ d.k.val) (h28 : d.k.val < 28) :
    domainGate d false s = s.setDom d.half d.k.val 1 := by
  have h4 : ¬ d.k.val < 4 := by omega
  have hmem : (decide (8 ≤ d.k.val) && decide (d.k.val < 28)) = true := by simp [h8, h28]
  rw [domainGate_of_able ha (.inl hst), if_neg h4, if_pos hmem, if_neg Bool.false_ne_true]

/-- The domain of an OE goes off with its OE. -/
theorem domainGate_of_offOe (hst : s.dom d.half d.k.val = 2 ∨ s.dom d.half d.k.val = 1) (h28 : 28 ≤ d.k.val) (h36 : d.k.val < 36)
    (hoff : s.pstate d.half (Fin.ofNat 8 (d.k.val - 28)) = 0) : domainGate d true s = s.setDom d.half d.k.val 0 := by
  have h4 : ¬ d.k.val < 4 := by omega
  have hmem : ¬ (decide (8 ≤ d.k.val) && decide (d.k.val < 28)) = true := by
    simp only [Bool.and_eq_true, decide_eq_true_eq]; omega
  have hoe : (decide (28 ≤ d.k.val) && decide (d.k.val < 36)) = true := by simp [h28, h36]
  have hst' : s.dom d.half d.k.val = 2 ∨ (s.dom d.half d.k.val = 1 ∧ true = true) := by simpa using hst
  rw [domainGate_of_able ha hst', if_neg h4, if_neg hmem, if_pos hoe, if_pos rfl, if_pos hoff]

end

/-! ## REFCLK (11 R348) -/

/-- A half that is up, or fenced, is lost when the hold-over of its lost REFCLK ends. -/
theorem refclkHoldoverExpire_of_lost {h : Half} {s : State} (hoff : s.refOn h = false)
    (hup : s.halfUp h = true ∨ s.die (dieComb h) = .fenced) : refclkHoldoverExpire h s = s.halfLost h 1 :=
  if_pos (by simpa [hoff] using hup)

/-- Settles O8: each command past its guard, from the lemmas above. -/
theorem clockCommands : Obligations.ClockCommands := by
  unfold Obligations.ClockCommands
  refine ⟨?clock, ?duty, ?fmax, ?fmaxInvalid, ?cap, ?capWaits, ?capLoop, ?capUnmet, ?gateCompute, ?gateMemory, ?gateOe, ?wake, ?idle, ?refLoss,
    ?refExpire, ?refReturn⟩
  case clock =>
    intro h q s ha hup hlow hrise
    exact next_of_effect (clockRampStep_of_clock ha hup hlow hrise)
  case duty =>
    intro h q s ha hup hceil hrise
    exact next_of_effect (clockRampStep_of_duty ha hup hceil hrise)
  case fmax =>
    intro m h value s hm ha hlo hhi hstep
    exact next_of_reaches hm (fmax_of_valid ha hlo hhi hstep)
  case fmaxInvalid =>
    intro m h value s hm _ hbad
    exact next_of_reaches hm (fmax_of_invalid hbad)
  case cap =>
    intro m value s hm ha hlo hhi hlive hd
    exact next_of_reaches hm (capReq_of_live ha hlo hhi hlive hd)
  case capWaits =>
    intro m value s hm ha hlo hhi hwait
    exact next_of_reaches hm (capReq_of_waiting ha hlo hhi hwait)
  case capLoop =>
    intro o s hup hd
    exact next_of_effect (if_neg (by simp [hup, hd]))
  case capUnmet =>
    intro s ha hup hfloor hload
    exact next_of_effect (capUnmet_of_A ha hup hfloor hload)
  case gateCompute =>
    intro d toOff s ha hst hk hidle
    exact next_of_effect (domainGate_of_compute ha hst hk hidle)
  case gateMemory =>
    rintro d _ s ha hst h8 h28 rfl
    exact next_of_effect (domainGate_of_memory ha hst h8 h28)
  case gateOe =>
    rintro d _ s ha hst h28 h36 hoff rfl
    exact next_of_effect (domainGate_of_offOe ha hst h28 h36 hoff)
  case wake =>
    intro d s ha hst
    exact next_of_effect (if_pos (by simp [ha, hst]))
  case idle =>
    intro s hd hw
    exact next_of_effect (if_pos (by simp [hd, hw]))
  case refLoss =>
    intro h s ha
    exact next_of_effect (if_pos ha)
  case refExpire =>
    intro h s hoff hup
    exact next_of_effect (refclkHoldoverExpire_of_lost hoff hup)
  case refReturn =>
    intro h s
    rfl

end Sys2Proof.Proofs

/-! SUPPORT and statement: a PLL that unlocks, a rail that fails, and the return of a lost half (11 R350, R363, Table 11.16; 12 R378 to R381). -/

namespace Sys2Proof.Proofs

open Sys2Proof.Machine

/-- A domain that is on loses its clock. -/
theorem pllUnlock_of_on {e : PllEvent} {s : State} (ha : s.answers (.clk e.dom.half) = true) (hon : s.dom e.dom.half e.dom.k.val ≠ 0) :
    ¬ (!s.answers (.clk e.dom.half) || decide (s.dom e.dom.half e.dom.k.val = 0)) = true := by
  simp [ha, hon]

/-! ## Rails (11 R363, Table 11.16) -/

section
variable {h : Half} {e : RailEvent} {s : State} (ha : s.answers (.pwr h) = true)
include ha

/-- A rail of a compute die: the event costs its partitions, and the die resets. -/
theorem railFault_of_compute (hn : e.rail.val < 4) :
    railFault h e s = ((s.err (.pwr h) 14 { cost := 4, status := 8 }).resetDie h e.rail.val (e.bistFail.map (·.val))) := by
  have h4 : e.rail.val ≠ 4 := by omega
  have h9 : e.rail.val ≠ 9 := by omega
  simp only [railFault, ha, hn, h4, h9, decide_true, decide_false, Bool.not_true, Bool.or_self, Bool.true_or, Bool.false_eq_true, if_false, if_true]

/-- VDD_COMB or VDD_IO: the half is lost. -/
theorem railFault_of_comb (hn : e.rail.val = 4 ∨ e.rail.val = 9) :
    railFault h e s = (s.err (.pwr h) 14 { cost := 5 }).halfLost h 1 := by
  rcases hn with hn | hn <;> simp [railFault, ha, hn]

/-- VDD_HBM or VDDQ_HBM: the stacks lose their contents and reset. -/
theorem railFault_of_hbm (hn : e.rail.val = 5 ∨ e.rail.val = 6) :
    railFault h e s = foldOver (List.range 12) (fun i (s : State) => s.resetStack h i)
      (foldOver (List.range 72) (fun j (s : State) => s.undefRow (72 * halfNo h + j)) (s.err (.pwr h) 14)) := by
  rcases hn with hn | hn <;> simp [railFault, ha, hn]

/-- VDD_OE: every OE of the half resets. -/
theorem railFault_of_oe (hn : e.rail.val = 7) :
    railFault h e s = foldOver (allFin 8) (fun o (s : State) => s.resetOe h o) (s.err (.pwr h) 14 { cost := 4 }) := by
  simp [railFault, ha, hn]

/-- VLASER: every OE of the half that is on goes OFF. -/
theorem railFault_of_laser (hn : e.rail.val = 8) :
    railFault h e s =
      foldOver (allFin 8) (fun o (s : State) => if s.pstate h o = 0 then s else s.lowerOe h o 0 0) (s.err (.pwr h) 14) := by
  simp [railFault, ha, hn]

end

/-! ## The return of a half (12 R381) -/

/-- A half that lost its clock or supply returns by itself while fewer than two of its returns count. -/
theorem autoHalfReset_of_few {h : Half} {o : HalfObs} {s : State} (hup : s.die 0 = .up) (hwhy : s.whyLost h = 1) (hon : s.refOn h = true)
    (href : o.refclk = true) (hfew : s.autoCount h < 2) :
    autoHalfReset h o s =
      ((s.drawn 1).setF .keeper (autoFld h) ((if s.freeAhead 0 % 2 = 0 then s.autoCount h else 0) + 1)).resetHalf h o := by
  have hcount : ¬ (if s.freeAhead 0 % 2 = 0 then s.autoCount h else 0) ≥ 2 := by split <;> omega
  refine (if_neg ?_).trans (if_neg hcount)
  simp [hup, hwhy, hon, href]

section
variable {h : Half} {o : HalfObs} {s : State} (ha : s.answers .keeper = true)
include ha

theorem halfRst_of_lost (hh : s.halted = false) (hdown : s.halfUp h = false) (hwhy : s.whyLost h ≠ 0) :
    s.halfRst h o = s.resetHalf h o := by
  simp only [State.halfRst, ha, hh, hdown, hwhy, decide_false, Bool.not_true, Bool.or_self, Bool.false_eq_true, if_false]

/-- A reset of a half is refused in safe halt, and for a half that was not lost. -/
theorem halfRst_of_refused (hno : s.halted = true ∨ s.halfUp h = true ∨ s.whyLost h = 0) : s.halfRst h o = s.stateErr .keeper := by
  refine (if_neg (by simp [ha])).trans (if_pos ?_)
  simpa [or_assoc] using hno

end

/-- Settles O9: a rail by its number, a return by what lost the half, the rest by the lemmas above. -/
theorem domainFaultsAndHalfReturn : Obligations.DomainFaultsAndHalfReturn := by
  unfold Obligations.DomainFaultsAndHalfReturn
  refine ⟨?pll, ?railCompute, ?railComb, ?railHbm, ?railOe, ?railLaser, ?auto, ?resetA, ?resetB, ?refusedA, ?refusedB⟩
  case pll =>
    intro e s ha hon
    exact next_of_effect (if_neg (pllUnlock_of_on ha hon))
  case railCompute =>
    intro h e s ha hn
    exact next_of_effect (railFault_of_compute ha hn)
  case railComb =>
    intro h e s ha hn
    exact next_of_effect (railFault_of_comb ha hn)
  case railHbm =>
    intro h e s ha hn
    exact next_of_effect (railFault_of_hbm ha hn)
  case railOe =>
    intro h e s ha hn
    exact next_of_effect (railFault_of_oe ha hn)
  case railLaser =>
    intro h e s ha hn
    exact next_of_effect (railFault_of_laser ha hn)
  case auto =>
    intro h o s hup hwhy hon href hfew
    exact next_of_effect (autoHalfReset_of_few hup hwhy hon href hfew)
  case resetA | resetB =>
    intro m o s hm ha hh hdown hwhy
    exact next_of_reaches hm (halfRst_of_lost ha hh hdown hwhy)
  case refusedA | refusedB =>
    intro m o s hm ha hno
    exact next_of_reaches hm (halfRst_of_refused ha hno)

end Sys2Proof.Proofs

/-! SUPPORT and statement: how one calibration run ends (12 R382 to R384, R392, Tables 12.5 and 12.11). -/

namespace Sys2Proof.Proofs

open Sys2Proof.Machine

section
variable {p : Page} {id inst : Nat} {o : CalObs} {s : State} (harm : s.armed p 8 = false)
include harm

/-- A run that no injection disturbs ends by what it finds, in this order: the reference, the time-out, the limit. -/
theorem calEnd_of_unarmed :
    s.calEnd p id inst o =
      if calNeedsRef id && !o.refOk then
        ((((s.showRef id o.refOk).setCal p id inst
          { s.calRec p id inst with result := 2, traced := false, runs := min ((s.calRec p id inst).runs + 1) 65535, fails := 0 }).err p 9), false)
      else if o.timeout then ((s.showRef id o.refOk).calFails p id inst (s.calRec p id inst) 3 false, false)
      else if !calMeets id o.quality then
        ((s.showRef id o.refOk).calFails p id inst
          { s.calRec p id inst with q := o.quality, pause := min o.pauseUs 65535 } 4 false, false)
      else ((s.showRef id o.refOk).setCal p id inst
        { result := 1, traced := calTraces id && o.refOk, elem := o.elem.toNat, runs := min ((s.calRec p id inst).runs + 1) 65535,
          q := o.quality, passed := true, pause := min o.pauseUs 65535, fails := 0 }, true) := by
  simp only [State.calEnd, harm, Bool.false_and, Bool.false_eq_true, if_false]

theorem calEnd_of_noReference (hneeds : calNeedsRef id = true) (href : o.refOk = false) :
    s.calEnd p id inst o = ((((s.showRef id false).setCal p id inst
      { s.calRec p id inst with result := 2, traced := false, runs := min ((s.calRec p id inst).runs + 1) 65535, fails := 0 }).err p 9), false) := by
  simp only [calEnd_of_unarmed harm, hneeds, href, Bool.not_false, Bool.and_self, if_true]

section
variable (href : calNeedsRef id = false ∨ o.refOk = true)
include href

/-- With its reference, or with no need of one, a run goes on to its time-out and its limit. -/
theorem calEnd_of_reference :
    s.calEnd p id inst o =
      if o.timeout then ((s.showRef id o.refOk).calFails p id inst (s.calRec p id inst) 3 false, false)
      else if !calMeets id o.quality then
        ((s.showRef id o.refOk).calFails p id inst
          { s.calRec p id inst with q := o.quality, pause := min o.pauseUs 65535 } 4 false, false)
      else ((s.showRef id o.refOk).setCal p id inst
        { result := 1, traced := calTraces id && o.refOk, elem := o.elem.toNat, runs := min ((s.calRec p id inst).runs + 1) 65535,
          q := o.quality, passed := true, pause := min o.pauseUs 65535, fails := 0 }, true) := by
  refine (calEnd_of_unarmed harm).trans (if_neg ?_)
  rcases href with hnone | hok
  · simp [hnone]
  · simp [hok]

theorem calEnd_of_timeout (ht : o.timeout = true) :
    s.calEnd p id inst o = ((s.showRef id o.refOk).calFails p id inst (s.calRec p id inst) 3 false, false) :=
  (calEnd_of_reference harm href).trans (if_pos ht)

theorem calEnd_of_missedLimit (ht : o.timeout = false) (hq : calMeets id o.quality = false) :
    s.calEnd p id inst o = ((s.showRef id o.refOk).calFails p id inst
      { s.calRec p id inst with q := o.quality, pause := min o.pauseUs 65535 } 4 false, false) := by
  simp only [calEnd_of_reference harm href, ht, hq, Bool.not_false, Bool.false_eq_true, if_false, if_true]

theorem calEnd_of_pass (ht : o.timeout = false) (hq : calMeets id o.quality = true) :
    s.calEnd p id inst o = ((s.showRef id o.refOk).setCal p id inst
      { result := 1, traced := calTraces id && o.refOk, elem := o.elem.toNat, runs := min ((s.calRec p id inst).runs + 1) 65535,
        q := o.quality, passed := true, pause := min o.pauseUs 65535, fails := 0 }, true) := by
  simp only [calEnd_of_reference harm href, ht, hq, Bool.not_true, Bool.false_eq_true, if_false]

end
end

/-- Settles O11, by the four ends of a run. -/
theorem calibrationOutcomes : Obligations.CalibrationOutcomes := fun _ _ _ _ _ harm =>
  ⟨calEnd_of_noReference harm, calEnd_of_timeout harm, calEnd_of_missedLimit harm, calEnd_of_pass harm⟩

end Sys2Proof.Proofs

/-! SUPPORT and statement: calibrations as commands, on schedule and by RUN_NOW (12 R383, R384, R387, R390, Table 12.5; 06 R186; 04 R122). -/

namespace Sys2Proof.Proofs

open Sys2Proof.Machine

/-! ## Scheduled runs (12 R384, R387, R390) -/

/-- A scheduled calibration runs on a page that answers and a unit that is ready, where neither HOLD nor safe halt stops it. -/
theorem calPeriodic_of_ready {p : Page} {id inst : Nat} {o : CalObs} {cand : Nat} {s : State} (ha : s.answers p = true)
    (hhold : s.isSet p R.cal.CAL_CTL_HOLD = false ∨ id = 0x14 ∨ id = 0x15) (hfw : calFirmware id = true → s.halted = false)
    (hready : s.calReady p id inst = true) : s.calPeriodic p id inst o cand = s.calRun p id inst o cand := by
  have hrun : ¬ (s.isSet p R.cal.CAL_CTL_HOLD = true ∧ id ≠ 0x14 ∧ id ≠ 0x15) := by
    rintro ⟨hset, h14, h15⟩
    rcases hhold with h | h | h
    · exact Bool.false_ne_true (h.symm.trans hset)
    · exact h14 h
    · exact h15 h
  have hlive : ¬ (calFirmware id = true ∧ s.halted = true) := fun h => Bool.false_ne_true ((hfw h.1).symm.trans h.2)
  refine if_neg ?_
  simp only [ha, hready, Bool.not_true, Bool.or_eq_true, Bool.and_eq_true, decide_eq_true_eq, Bool.false_eq_true, false_or, or_false]
  tauto

/-! ## RUN_NOW (12 R387) -/

section
variable {m : Master} {p : Page} {o : CalObs} {s : State} (ha : s.answers p = true)
  (hcal : p = .gCal ∨ ∃ h, p = .cal h)
include ha hcal

/-- RUN_NOW on a calibration page that answers runs the selected calibration, or is refused. -/
theorem runNow_of_answers :
    runNow m p o s =
      if s.isSet p R.cal.CAL_CTL_HOLD || s.getF p R.cal.CAL_SEL_ID = 0x17 || !calHeld p (s.getF p R.cal.CAL_SEL_ID) (s.getF p R.cal.CAL_SEL_INST) ||
          !s.calReady p (s.getF p R.cal.CAL_SEL_ID) (s.getF p R.cal.CAL_SEL_INST) || (s.halted && calFirmware (s.getF p R.cal.CAL_SEL_ID)) then
        s.stateErr p
      else (s.drawn 1).calRun p (s.getF p R.cal.CAL_SEL_ID) (s.getF p R.cal.CAL_SEL_INST) o (s.freeAhead 0 % 2 ^ 36) := by
  refine if_neg ?_
  rcases hcal with rfl | ⟨h, rfl⟩ <;> simp [ha]

theorem runNow_of_ready {id inst : Nat} (hhold : s.isSet p R.cal.CAL_CTL_HOLD = false) (hid : s.getF p R.cal.CAL_SEL_ID = id)
    (hinst : s.getF p R.cal.CAL_SEL_INST = inst) (hnot17 : id ≠ 0x17) (hheld : calHeld p id inst = true)
    (hready : s.calReady p id inst = true) (hlive : (s.halted && calFirmware id) = false) :
    runNow m p o s = (s.drawn 1).calRun p id inst o (s.freeAhead 0 % 2 ^ 36) := by
  subst hid hinst
  refine (runNow_of_answers ha hcal).trans (if_neg ?_)
  simp only [hhold, hnot17, hheld, hready, hlive, decide_false, Bool.not_true, Bool.or_self, Bool.false_eq_true, not_false_eq_true]

/-- Under HOLD nothing runs by RUN_NOW, and calibration 0x17 never does. -/
theorem runNow_of_refused (hno : s.isSet p R.cal.CAL_CTL_HOLD = true ∨ s.getF p R.cal.CAL_SEL_ID = 0x17) : runNow m p o s = s.stateErr p := by
  refine (runNow_of_answers ha hcal).trans (if_pos ?_)
  rcases hno with hhold | h17
  · simp [hhold]
  · simp [h17]

end

/-- Settles O10: a scheduled run is ready by its own premises, RUN_NOW by what is selected. -/
theorem calibrationCommands : Obligations.CalibrationCommands := by
  unfold Obligations.CalibrationCommands
  refine ⟨?osc, ?vref, ?remote, ?vin, ?refclk, ?rail, ?hinge, ?ucie, ?ddr, ?hbm, ?port, ?timeout, ?runGlobal, ?runHalf, ?runRefused⟩
  case osc =>
    intro o s ha hhold
    exact next_of_effect (calPeriodic_of_ready ha (.inl hhold) (fun h => nomatch h) rfl)
  case vref | vin =>
    intro o s ha hhold hh
    exact next_of_effect (calPeriodic_of_ready ha (.inl hhold) (fun _ => hh) rfl)
  case remote =>
    intro i o s ha hhold hh
    exact next_of_effect (calPeriodic_of_ready ha (.inl hhold) (fun _ => hh) rfl)
  case refclk =>
    intro h o s ha hhold hup
    exact next_of_effect (calPeriodic_of_ready ha (.inl hhold) (fun h => nomatch h) hup)
  case rail =>
    intro h o s ha hhold hh hup
    exact next_of_effect (calPeriodic_of_ready ha (.inl hhold) (fun _ => hh) hup)
  case hinge =>
    intro h b o s ha hhold hh hup
    exact next_of_effect (calPeriodic_of_ready ha (.inl hhold) (fun _ => hh) hup)
  case ucie =>
    intro h k o s ha hhold hh hactive
    exact next_of_effect (calPeriodic_of_ready ha (.inl hhold) (fun _ => hh) (decide_eq_true hactive))
  case ddr =>
    intro h c o s ha hup
    exact next_of_effect (calPeriodic_of_ready ha (.inr (.inr rfl)) (fun h => nomatch h) (decide_eq_true hup))
  case hbm =>
    intro h i ch o s ha hfull
    exact next_of_effect (calPeriodic_of_ready ha (.inr (.inl rfl)) (fun h => nomatch h) (decide_eq_true hfull))
  case port =>
    intro p o bad s ha hhold hh hready
    exact next_of_effect (calPeriodic_of_ready ha (.inl hhold) (fun _ => hh) hready)
  case timeout =>
    intro p id inst s ha hheld
    exact next_of_effect (if_pos (by simp [ha, hheld]))
  case runGlobal =>
    intro m o s hm ha hhold hid hinst
    exact next_of_reaches hm (runNow_of_ready ha (.inl rfl) hhold hid hinst (by decide) rfl rfl (Bool.and_false _))
  case runHalf =>
    intro m h o s hm ha hhold hheld hnot17 hready hh
    exact next_of_reaches hm (runNow_of_ready ha (.inr ⟨h, rfl⟩) hhold rfl rfl hnot17 hheld hready (by rw [hh, Bool.false_and]))
  case runRefused =>
    intro m h o s hm ha hno
    exact next_of_reaches hm (runNow_of_refused ha (.inr ⟨h, rfl⟩) hno)

end Sys2Proof.Proofs

/-! SUPPORT and statement: record sets, CFG_NEXT and the NV journal (12 R376, R388, R389; 11 R341, R360; 14 R427). -/

namespace Sys2Proof.Proofs

open Sys2Proof.Machine

/-- A store fails where both of its tries do. -/
theorem storeRec_snd (s : State) (set : Nat) (body : List Byte) (o : StoreObs) :
    (s.storeRec set body o).2 = !(o.firstTry && o.secondTry) := by
  cases hfails : o.firstTry && o.secondTry with
  | true => simp only [State.storeRec, hfails, if_true, Bool.not_true]
  | false => simp only [State.storeRec, hfails, Bool.false_eq_true, if_false, Bool.not_false]

/-- The sets 1 to 6 are stored with a body of 1 to 65,216 bytes. -/
theorem recordStore_of_valid {set : Fin 8} {body : List Byte} {o : StoreObs} {s : State} (hk : s.keeperRuns = true) (h1 : 1 ≤ set.val)
    (h6 : set.val ≤ 6) (hne : body ≠ []) (hlen : body.length ≤ 65216) : recordStore set body o s = (s.storeRec set.val body o).1 := by
  refine if_pos ?_
  simp only [hk, h1, h6, hlen, List.isEmpty_eq_false_iff.mpr hne, decide_true, Bool.not_false, Bool.and_self]

/-- CFG_NEXT shows the set and stores it; STORED follows a store that did not fail. -/
theorem cfgNext_of_running {m : Master} {value : Word} {o : StoreObs} {s : State} (ha : s.answers .keeper = true) (hk : s.keeperRuns = true) :
    cfgNext m value o s =
      (let t := s.setFs .keeper [(R.keeper.CFG_NEXT_SET, value.toNat % 65536), (R.keeper.CFG_NEXT_STORED, 0)]
       let r := t.storeRec 7 (bytesOf 2 (value.toNat % 65536)) o
       if o.firstTry && o.secondTry then r.1 else r.1.setF .keeper R.keeper.CFG_NEXT_STORED 1) := by
  refine (if_neg (by simp [ha, hk])).trans ?_
  dsimp only
  rw [storeRec_snd]
  cases o.firstTry && o.secondTry <;> rfl

/-- The oldest queued record goes to both devices with the next number. -/
theorem journalWrite_of_queued {primary mirror : Bool} {e : Nat × List Byte} {t : List (Nat × List Byte)} {s : State}
    (hk : s.keeperRuns = true) (hq : s.nv.queue = e :: t) :
    journalWrite primary mirror s =
      (let r : JRec := { type := BitVec.ofNat 8 e.1, seqno := BitVec.ofNat 64 s.nv.seqno, body := e.2, whole := true }
       let nv := { s.nv with prim := addRec s.nv.prim r primary, mirr := addRec s.nv.mirr r mirror, queue := t, seqno := s.nv.seqno + 1 }
       { s with nv := nv }.setF .gPwr R.pwrG.NV_STS_QUEUED (min t.length 255)) := by
  simp only [journalWrite, hk, hq, Bool.not_true, Bool.false_eq_true, if_false]

/-- Settles O12: a store by whether both tries fail, the journal by what is queued. -/
theorem storesAndJournal : Obligations.StoresAndJournal := by
  unfold Obligations.StoresAndJournal
  refine ⟨?record, ?cfgStored, ?cfgFailed, ?write, ?rewrite⟩
  case record =>
    intro set body o s hk h1 h6 hne hlen
    exact next_of_effect (recordStore_of_valid hk h1 h6 hne hlen)
  case cfgStored =>
    intro m value o s hm ha hk hok
    exact next_of_reaches hm ((cfgNext_of_running ha hk).trans (if_neg (ne_true_of_eq_false hok)))
  case cfgFailed =>
    intro m value o s hm ha hk hfails
    exact next_of_reaches hm ((cfgNext_of_running ha hk).trans (if_pos hfails))
  case write =>
    intro primary mirror e t s hk hq
    exact next_of_effect (journalWrite_of_queued hk hq)
  case rewrite =>
    intro s hk
    exact next_of_effect (if_pos hk)

end Sys2Proof.Proofs

/-! SUPPORT and statement: sensor and remote samples, and the release of thermal ceilings, surges, holds and region throttles (11 R353 to R357,
Table 11.9; 05 R168). -/

namespace Sys2Proof.Proofs

open Sys2Proof.Machine

/-! ## The sample of a half's sensors (11 R353 to R355) -/

/-- The last readings of all sensors once those of a sample are in. -/
abbrev sampledSens (o : SensorObs) (s : State) : List (Nat × Int) :=
  (o.temps.filter (fun e => decide (e.1 < 540))).foldl (fun m e => mput m (540 * halfNo o.half + e.1) e.2) s.sens

/-- The state with those readings, the sensors that jump excluded. -/
abbrev sampledState (o : SensorObs) (s : State) : State :=
  foldOver thermDies (fun d (t : State) => t.excludeSensors o.half d (jumps o.half d s.sens (sampledSens o s) t.excl))
    { s with sens := sampledSens o s, ticks := mset 0 s.ticks (halfNo o.half) (mget 0 s.ticks (halfNo o.half) + 1) }

/-- The first die at its trip point, with its reading. -/
abbrev firstTrip (h : Half) (t : State) : Option (Nat × Int) := thermDies.findSome? (fun d => (t.tripAt h d).map (fun r => (d, r)))

/-- A reading of a die joins its history; a rise of more than 4 °C, or an armed injection on die 0, is a surge. -/
def noteReading (h : Half) (inj : Bool) (d : Nat) (s : State) : State :=
  match s.reading h d with
  | none => s
  | some r =>
    let x := s.watch1 (dieWatch h d)
    let rises := match x.hist with
      | _ :: b :: _ => decide (r - b > 32)
      | _ => false
    let inj0 := inj && d = 0
    let s := if rises then s.surge h d false else s
    let s := if inj0 then s.surge h d true else s
    s.setWatch (dieWatch h d) { x with hist := (r :: x.hist).take 4 }

/-- A die is judged by its reading, with the one before; without any where it is held hot. -/
def judgeReading (h : Half) (e : Nat × Option Int) (s : State) : State :=
  match s.reading h e.1 with
  | none => if s.heldHot h e.1 then s.judgeDie h e.1 else s
  | some r => (s.judgeDie h e.1).dieActs h e.1 e.2 r

/-- What a sample of s does in state t where no die trips: histories, then each die's state, then the regions and what the pages show. -/
def judgeSample (o : SensorObs) (s t : State) : State :=
  let u := foldOver thermDies (noteReading o.half (t.armed (.therm o.half) 11)) t
  let v := if t.armed (.therm o.half) 11 then u.disarm (.therm o.half) else u
  let olds := thermDies.map (fun d => (d, (s.watch1 (dieWatch o.half d)).hist.head?))
  (((foldOver olds (judgeReading o.half) v).setVolts o).regions o.half).showTherm o.half

section
variable {o : SensorObs} {s : State} (hr : s.railsUp = true) (ha : s.answers (.therm o.half) = true)
include hr ha

/-- A sample is taken where the rails are up and the block answers. -/
theorem not_sample_ignored : ¬ (!(s.railsUp && s.answers (.therm o.half))) = true := by
  simp [hr, ha]

theorem sensorSample_of_noTrip (hnone : firstTrip o.half (sampledState o s) = none) :
    sensorSample o s = judgeSample o s (sampledState o s) := by
  unfold sensorSample
  rw [if_neg (not_sample_ignored hr ha)]
  extract_lets
  split
  next hsome => exact nomatch hnone.symm.trans hsome
  next => rfl

/-- A sample trips on the first die at its trip point. -/
theorem sensorSample_of_trip {d : Nat} {r : Int} (hsome : firstTrip o.half (sampledState o s) = some (d, r)) :
    sensorSample o s = (sampledState o s).trip o.half d r := by
  unfold sensorSample
  rw [if_neg (not_sample_ignored hr ha)]
  extract_lets
  split
  next hfirst =>
    obtain ⟨rfl, rfl⟩ := Prod.mk.inj (Option.some.inj (hfirst.symm.trans hsome))
    rfl
  next hfirst => exact nomatch hfirst.symm.trans hsome

end

/-! ## Remote inputs (11 R354) -/

section
variable {o : RemoteObs} {s : State} (ha : s.answers .gTherm = true)
  (hon : s.getF .gTherm (remFld R.thermG.TD_CFG_EN R.thermG.TH_CFG_EN o.input) ≠ 0)
include ha hon

/-- An input that is on and whose block answers is sampled. -/
theorem not_remote_ignored :
    ¬ (!s.answers .gTherm || decide (s.getF .gTherm (remFld R.thermG.TD_CFG_EN R.thermG.TH_CFG_EN o.input) = 0)) = true := by
  simp [ha, hon]

/-- A fault that was not there shows, and raises its event. -/
theorem remoteSample_of_newFault (hf : o.fault = true) (hnew : s.getF .gTherm (remFld R.thermG.TD_FAULT R.thermG.TH_FAULT o.input) ≠ 1) :
    remoteSample o s =
      (((s.setF .gTherm (remFld R.thermG.TD_FAULT R.thermG.TH_FAULT o.input) 1).setWatch (remKey o.input) watchInit).err .gTherm 14) :=
  (if_neg (not_remote_ignored ha hon)).trans ((if_pos hf).trans (if_neg hnew))

end

/-! ## Releases (11 R353 to R357; 05 R168) -/

section
variable {h : Half} {q : Fin 4} {s : State} (ha : s.answers (.therm h) = true)
  (hcool : s.getF (.therm h) (R.therm.DIE_STS_STATE.ix q.val) < 2)
include ha hcool

/-- A ceiling rises while its die is below HOT. -/
theorem not_ceiling_held : ¬ (!(s.answers (.therm h) && decide (s.getF (.therm h) (R.therm.DIE_STS_STATE.ix q.val) < 2))) = true := by
  simp [ha, hcool]

theorem thermalCeilingRise_of_duty (hduty : (s.cd h q.val).thermD < 15) :
    thermalCeilingRise h q s = s.setCd h q.val { s.cd h q.val with thermD := (s.cd h q.val).thermD + 1 } :=
  (if_neg (not_ceiling_held ha hcool)).trans (if_pos hduty)

theorem thermalCeilingRise_of_clock (hduty : 15 ≤ (s.cd h q.val).thermD) (hlow : (s.cd h q.val).therm < 1500) :
    thermalCeilingRise h q s = s.setCd h q.val { s.cd h q.val with
      therm := if (s.cd h q.val).therm + 50 ≥ s.fmaxOf h then 1500 else (s.cd h q.val).therm + 50 } :=
  (if_neg (not_ceiling_held ha hcool)).trans ((if_neg (Nat.not_lt.mpr hduty)).trans (if_pos hlow))

end

section
variable {h : Half} {d : Fin 36} {s : State} (ha : s.answers (.therm h) = true) (hcd : isCompute d.val = true)
  (hsurge : (s.cd h d.val).surge < 1500)
include ha hcd hsurge

/-- A surge ceiling in force is released on a compute die. -/
theorem not_surge_ignored : ¬ (!(s.answers (.therm h) && isCompute d.val && decide ((s.cd h d.val).surge < 1500))) = true := by
  simp [ha, hcd, hsurge]

theorem surgeRelease_of_below (hlow : (s.cd h d.val).surge + 100 < s.fmaxOf h) :
    surgeRelease h d s = s.setCd h d.val { s.cd h d.val with surge := (s.cd h d.val).surge + 100 } :=
  (if_neg (not_surge_ignored ha hcd hsurge)).trans (if_neg (Nat.not_le.mpr hlow))

theorem surgeRelease_of_full (hfull : s.fmaxOf h ≤ (s.cd h d.val).surge + 100) :
    surgeRelease h d s =
      (s.setF (.therm h) (R.therm.DIE_STS_SURGE.ix d.val) 0).setCd h d.val { s.cd h d.val with surge := 1500 } :=
  (if_neg (not_surge_ignored ha hcd hsurge)).trans (if_pos hfull)

end

/-- The die by which a pair of regions is known. -/
abbrev pairDie (h : Half) (q : Fin 4) : RegionPair → Nat
  | .compute => 36 * halfNo h + q.val
  | .hbm i => 36 * halfNo h + 16 + i.val
  | .oe o => 36 * halfNo h + 8 + o.val
  | .hinge => 36 * halfNo (otherHalf h) + 4

/-- The throttle of a pair ends where both differences are within 140 mV and 27 °C; of a compute region the ceiling with it. -/
theorem regionThrottleRelease_of_within {h : Half} {q : Fin 4} {p : RegionPair} {s : State} (ha : s.answers (.noc h q) = true)
    (hin : ((s.pairs h).find? (fun x => x.dieA = pairDie h q p)).any (fun x => decide (x.dT ≤ 216) && decide (x.dV ≤ 140)) = true) :
    regionThrottleRelease h q p s =
      (let t := { s with throttled := merase s.throttled (pairDie h q p) }
       match p with
       | .compute => t.setCd h q.val { t.cd h q.val with region := 1500 }
       | _ => t) := by
  cases hx : (s.pairs h).find? (fun x => x.dieA = pairDie h q p) with
  | none => rw [hx] at hin; cases hin
  | some x =>
    rw [hx] at hin
    have hguard : ¬ (!s.answers (.noc h q) || decide (x.dT > 216) || decide (x.dV > 140)) = true := by
      simpa [ha] using hin
    cases p <;> (simp only [pairDie] at hx; simp only [regionThrottleRelease, hx, if_neg hguard])

/-- Settles O13: a sample by whether a die trips, a release by the ceiling it finds. -/
theorem thermalCommands : Obligations.ThermalCommands := by
  unfold Obligations.ThermalCommands
  refine ⟨?quiet, ?trip, ?remoteFault, ?remote, ?duty, ?clock, ?hold, ?surge, ?surgeEnd, ?regionCompute, ?regionHbm⟩
  case quiet =>
    intro o s _ _ _ hr ha hnone
    exact next_of_effect (sensorSample_of_noTrip hr ha hnone)
  case trip =>
    intro o s _ _ _ hr ha hsome
    obtain ⟨e, he⟩ := Option.isSome_iff_exists.mp hsome
    refine next_of_effect ((sensorSample_of_trip hr ha he).trans ?_)
    rw [he]
    rfl
  case remoteFault =>
    intro o s ha hon hf hnew
    exact next_of_effect (remoteSample_of_newFault ha hon hf hnew)
  case remote =>
    intro o s ha hon hf
    exact next_of_effect ((if_neg (not_remote_ignored ha hon)).trans (if_neg (ne_true_of_eq_false hf)))
  case duty =>
    intro h q s ha hcool hduty
    exact next_of_effect (thermalCeilingRise_of_duty ha hcool hduty)
  case clock =>
    intro h q s ha hcool hduty hlow
    exact next_of_effect (thermalCeilingRise_of_clock ha hcool hduty hlow)
  case hold =>
    rintro h d _ s ha rfl
    exact next_of_effect (if_pos (by simp [ha]))
  case surge =>
    intro h d s ha hcd hsurge hlow
    exact next_of_effect (surgeRelease_of_below ha hcd hsurge hlow)
  case surgeEnd =>
    intro h d s ha hcd hsurge hfull
    exact next_of_effect (surgeRelease_of_full ha hcd hsurge hfull)
  case regionCompute =>
    rintro h q _ s ha rfl hin
    exact next_of_effect (regionThrottleRelease_of_within (p := .compute) ha hin)
  case regionHbm =>
    intro h q i s ha hin
    exact next_of_effect (regionThrottleRelease_of_within (p := .hbm i) ha hin)

end Sys2Proof.Proofs

/-! SUPPORT and statement: debug tokens, the injection lock, the test access port (13 R405 to R407; 09 R304, R311). -/

namespace Sys2Proof.Proofs

open Sys2Proof.Machine

/-- Settles O46: the two requests by the checks that firmware makes of each, the port by the presence of V_AON. -/
theorem debugAndTap : Obligations.DebugAndTap := by
  unfold Obligations.DebugAndTap
  refine ⟨?nonce, ?unlock, ?injDis, ?tck, ?tckOff, ?trst, ?disconnect⟩
  case nonce =>
    intro i s j b ha hfull hcode hroom hh hpair hrsvd hlen
    exact next_of_effect (runtime_of_allowed ⟨ha, hfull, hcode, hroom⟩ hh (fun _ => hpair) hrsvd (decide_eq_true hlen))
  case unlock =>
    intro i s j b ha hfull hcode hroom hh hpair hrsvd hlen
    exact next_of_effect (runtime_of_allowed ⟨ha, hfull, hcode, hroom⟩ hh (fun _ => hpair) hrsvd (decide_eq_true hlen))
  case injDis =>
    intro m s hm ha
    exact next_of_reaches hm (if_pos ha)
  case tck =>
    intro rising tms tdi s hv
    exact next_of_effect (if_pos hv)
  case tckOff =>
    intro rising tms tdi s hv
    exact next_of_effect (if_neg (ne_true_of_eq_false hv))
  case trst =>
    intro s
    rfl
  case disconnect =>
    intro s
    rfl

end Sys2Proof.Proofs

/-! SUPPORT and statement: the answers to SPDM requests (13 R402 to R404, Table 13.5; 09 R312). -/

namespace Sys2Proof.Proofs

open Sys2Proof.Machine

section
variable {r : SpdmReq} {stage : Nat} {act : State → State} {s : State} (hhere : s.spdmHere r.transport = true)
include hhere

/-- A request after GET_VERSION that waits is answered: by an error where its version or its turn is wrong. -/
theorem spdmDo_of_here :
    s.spdmDo r stage act =
      if !(r.version = 0x12 || r.version = 0x13) then s.spdmError r 0x41
      else if s.spdmStage r.transport < stage then s.spdmError r 0x04
      else act s :=
  if_neg (by simp [hhere])

/-- Versions other than 1.2 and 1.3 are a mismatch. -/
theorem spdmDo_of_otherVersion (h12 : r.version ≠ 0x12) (h13 : r.version ≠ 0x13) : s.spdmDo r stage act = s.spdmError r 0x41 :=
  (spdmDo_of_here hhere).trans (if_pos (by simpa using ⟨h12, h13⟩))

section
variable (hver : r.version = 0x12 ∨ r.version = 0x13)
include hver

/-- A supported version is held to its turn. -/
theorem spdmDo_of_version :
    s.spdmDo r stage act = if s.spdmStage r.transport < stage then s.spdmError r 0x04 else act s :=
  (spdmDo_of_here hhere).trans (if_neg (by simpa [or_iff_not_imp_left] using hver))

theorem spdmDo_of_early (hearly : s.spdmStage r.transport < stage) : s.spdmDo r stage act = s.spdmError r 0x04 :=
  (spdmDo_of_version hhere hver).trans (if_pos hearly)

theorem spdmDo_of_turn (hturn : stage ≤ s.spdmStage r.transport) : s.spdmDo r stage act = act s :=
  (spdmDo_of_version hhere hver).trans (if_neg (Nat.not_lt.mpr hturn))

end
end

/-- Settles O47: a request whose turn it is has its own answer, any other the error that `spdmDo` gives it. -/
theorem attestation : Obligations.Attestation := by
  unfold Obligations.Attestation
  refine ⟨?version, ?capabilities, ?algorithms, ?algorithmsInvalid, ?digests, ?certificate, ?challenge, ?measurements, ?mismatch, ?unexpected⟩
  case version =>
    intro r s hhere
    exact next_of_effect (if_pos hhere)
  case capabilities =>
    intro r s hhere hver hturn
    exact next_of_effect (spdmDo_of_turn hhere hver hturn)
  case algorithms =>
    intro r s hhere hver hturn hasym hhash
    exact next_of_effect ((spdmDo_of_turn hhere hver hturn).trans (if_pos (by rw [hasym, hhash]; rfl)))
  case algorithmsInvalid =>
    intro r s hhere hver hturn hno
    exact next_of_effect ((spdmDo_of_turn hhere hver hturn).trans (if_neg (ne_true_of_eq_false hno)))
  case digests | certificate | challenge | measurements =>
    intro r s hhere hver hturn
    exact next_of_effect (spdmDo_of_turn hhere hver hturn)
  case mismatch =>
    intro r s hhere h12 h13
    exact next_of_effect (spdmDo_of_otherVersion hhere h12 h13)
  case unexpected =>
    intro r s hhere hver hearly
    exact next_of_effect (spdmDo_of_early hhere hver hearly)

end Sys2Proof.Proofs

/-! SUPPORT and statement: key agreement and rekeying of a link (13 R409 to R414, Table 13.7; 07 R236). -/

namespace Sys2Proof.Proofs

open Sys2Proof.Machine

section
variable {p : PortId} {s : State}

/-- A command that needs an end whose link is UP is not passed by there. -/
theorem not_ignored_of_linkUp (ha : s.answers (s.lead p).page = true) (hup : s.linkUp (s.lead p) = true) :
    ¬ (!(s.answers (s.lead p).page && s.linkUp (s.lead p))) = true := by
  simp [ha, hup]

/-! ## During an agreement (13 R410 to R412) -/

section
variable (ha : s.answers (s.lead p).page = true) (hst : [1, 2, 6, 7].contains (s.port (s.lead p)).kx.st = true)
include ha hst

/-- The partner's count moves what is acknowledged forward, up to the fragments there are. -/
theorem kxAck_of_forward {n : BitVec 16} (hlow : (s.port (s.lead p)).kx.acked < n.toNat)
    (hhigh : n.toNat ≤ ((s.port (s.lead p)).kx.msg.length + 11) / 12) :
    kxAck p n s = s.updKx (s.lead p) (fun k => { k with acked := n.toNat }) :=
  if_pos (by simp only [ha, hst, hlow, hhigh, decide_true, Bool.and_self])

/-- An agreement that runs takes the partner's messages, and repeats its own. -/
theorem kx_running : (s.answers (s.lead p).page && [1, 2, 6, 7].contains (s.port (s.lead p)).kx.st) = true := by
  rw [ha, hst, Bool.and_self]

end

/-! ## Timers (13 R410, R413, R414) -/

/-- An initial agreement that takes too long is refused. -/
theorem kxTimeout_of_initial (ha : s.answers (s.lead p).page = true)
    (hst : (s.port (s.lead p)).kx.st = 1 ∨ (s.port (s.lead p)).kx.st = 2) :
    kxTimeout p s = (s.drawn 1).kxRefuse (s.lead p) (s.freeAhead 0 % 256) :=
  if_pos (by simpa [ha] using hst)

section
variable (ha : s.answers (s.lead p).page = true) (hup : s.linkUp (s.lead p) = true)
include ha hup

theorem kxRetry_of_refusedInitial (hst : (s.port (s.lead p)).kx.st = 4) : kxRetry p s = s.kxStart (s.lead p) 0 :=
  (if_neg (not_ignored_of_linkUp ha hup)).trans (if_pos hst)

theorem kxRetry_of_refusedRekey (hst : (s.port (s.lead p)).kx.st = 8) : kxRetry p s = s.kxStart (s.lead p) 1 := by
  have hnot4 : (s.port (s.lead p)).kx.st ≠ 4 := by omega
  exact (if_neg (not_ignored_of_linkUp ha hup)).trans ((if_neg hnot4).trans (if_pos hst))

theorem rekey_of_agreed (hst : (s.port (s.lead p)).kx.st = 3) : rekey p s = s.kxStart (s.lead p) 1 :=
  if_pos (by simp only [ha, hup, hst, decide_true, Bool.and_self])

/-- A sender that still waits at its switch count takes the link down. -/
theorem kxSwitchTimeout_of_stalled (hstall : kxStall (s.port (s.lead p)).kx = true) : kxSwitchTimeout p s = s.linkDown (s.lead p) 8 :=
  if_pos (by rw [ha, hup, hstall]; rfl)

end
end

/-- Settles O48: a fragment by whether the end joins, the rest by the state of the agreement. -/
theorem linkKeys : Obligations.LinkKeys := by
  unfold Obligations.LinkKeys
  refine ⟨?fragJoined, ?fragRefused, ?ack, ?switch, ?abort, ?resend, ?timeout, ?retryInitial, ?retryRekey, ?rekey, ?stalled⟩
  case fragJoined =>
    intro p kind i whole t s q ha hup hjoin
    refine next_of_effect ((if_neg (not_ignored_of_linkUp ha hup)).trans ?_)
    cases whole with
    | none => rw [hjoin]
    | some m => rw [hjoin]
  case fragRefused =>
    intro p kind i whole s q ha hup hjoin
    refine next_of_effect ((if_neg (not_ignored_of_linkUp ha hup)).trans ?_)
    rw [hjoin]
  case ack =>
    intro p n s q ha hst hlow hhigh
    exact next_of_effect (kxAck_of_forward ha hst hlow hhigh)
  case switch =>
    intro p c s q ha hst
    exact next_of_effect (if_pos (kx_running ha hst))
  case abort =>
    intro p reason s q ha hst
    exact next_of_effect (if_pos (kx_running ha hst))
  case resend =>
    intro p s q ha hst
    exact next_of_effect (if_neg (by rw [kx_running ha hst]; exact Bool.false_ne_true))
  case timeout =>
    intro p s q ha hst
    exact next_of_effect (kxTimeout_of_initial ha hst)
  case retryInitial =>
    intro p s q ha hup hst
    exact next_of_effect (kxRetry_of_refusedInitial ha hup hst)
  case retryRekey =>
    intro p s q ha hup hst
    exact next_of_effect (kxRetry_of_refusedRekey ha hup hst)
  case rekey =>
    intro p s q ha hup hst
    exact next_of_effect (rekey_of_agreed ha hup hst)
  case stalled =>
    intro p s q ha hup hstall
    exact next_of_effect (kxSwitchTimeout_of_stalled ha hup hstall)

end Sys2Proof.Proofs

/-! SUPPORT: what UpdatesAndRecovery comes to. A command that accepts an image clears its IMG_STS (13 R396 to R399); the clauses of the statement
leave IMG_STS as it was, so they hold just where no image is ever accepted. -/

namespace Sys2Proof.Proofs

open Sys2Proof.Machine

/-! ## Recovery over I3C (13 R399) -/

/-- A recovery command over a binding that reaches the endpoint: carried out over I3C, denied over PCIe. -/
theorem recovery_of_i3c {cmd : Nat} {act : State → State} {s : State} (hb : s.reached .i3c = true) : s.recovery .i3c cmd act = act s :=
  if_neg (by simp [hb])

theorem recovery_of_pcie {f : Fn} {cmd : Nat} {act : State → State} {s : State} (hb : s.reached (.pcie f) = true) :
    s.recovery (.pcie f) cmd act = s.mgmtReply (.pcie f) cmd 3 [] :=
  if_neg (by simp [hb])

/-- IMG_WRITE takes 1 to 1,024 bytes that lie in the region. -/
theorem not_badImgWrite {r : Region} {offset : Nat} {data : List Byte} (hne : data ≠ []) (hlen : data.length ≤ 1024)
    (hin : offset + data.length ≤ regionSize r) :
    ¬ (data.isEmpty || decide (data.length > 1024) || decide (offset + data.length > regionSize r)) = true := by
  simp [hne, hlen, hin]

@[simp] theorem mgmtReply_ok_sec (s : State) (b : Binding) (cmd : Nat) (data : List Byte) : (s.mgmtReply b cmd 0 data).sec = s.sec := rfl

/-- A mirror image that passes its checks is copied to the primary region, and IMG_STS shows that it passed. -/
theorem imgCommit_of_accepted {r : Region} {x : Image} {s : State} (hb : s.reached .i3c = true) (hrom : s.sec.rom = false)
    (hx : norImage s.nv.mirr r = some x) (hc : s.imageCause r x = 0) :
    imgCommit .i3c r true s =
      ({ s.showCause r 0 with nv := { s.nv with prim := putImage s.nv.prim r x } } : State).mgmtReply .i3c 0x21 0 (bytesOf 1 0) := by
  have hrom' : (s.showCause r 0).sec.rom = false := hrom
  refine (recovery_of_i3c hb).trans ?_
  simp [hx, hc, hrom']

/-! ## An image that passes its checks (13 R396) -/

theorem imgFld_bounds (r : Region) : (imgFld r).lo ≤ (imgFld r).hi ∧ (imgFld r).hi < 32 := by
  cases r <;> (dsimp only [imgFld]; decide)

/-- Image x lies in mirror region r of a keeper that runs with the fuses and the debug state of t and its I3C address, and IMG_STS still shows
that an earlier image was malformed. -/
def staleCause (t : State) (r : Region) (x : Image) : State :=
  (({ State.reset with
      dies := [(0, .up)]
      sec := { t.sec with rom := false }
      nv := { State.reset.nv with mirr := { State.reset.nv.mirr with ok := true, images := [(r, x)] } } } : State).setF .sec (imgFld r) 1).setF
    .ck R.ctrlch.MGMT_ADDR_DA_VALID 1

theorem staleCause_reached (t : State) (r : Region) (x : Image) : (staleCause t r x).reached .i3c = true := by
  have hda : (staleCause t r x).getF .ck R.ctrlch.MGMT_ADDR_DA_VALID = 1 := getF_setF_self _ _ _ _ (by decide) (by decide)
  simp only [State.reached, State.isSet, hda]
  rfl

theorem staleCause_norImage (t : State) (r : Region) (x : Image) : norImage (staleCause t r x).nv.mirr r = some x := by
  simp [norImage, staleCause]

/-- The checks of an image rest on the fuses and the debug state alone. -/
theorem staleCause_imageCause (t : State) (r : Region) (x : Image) : (staleCause t r x).imageCause r x = t.imageCause r x := rfl

theorem staleCause_getF (t : State) (r : Region) (x : Image) : (staleCause t r x).getF .sec (imgFld r) = 1 := by
  obtain ⟨hlo, hhi⟩ := imgFld_bounds r
  rw [staleCause, getF_setF_of_disjoint _ _ _ _ _ _ (by decide) (.inl (by cases r <;> (dsimp only [imgFld]; decide))), getF_setF_self _ _ _ _ hlo hhi]
  cases r <;> rfl

theorem getF_showCause_zero (s : State) (r : Region) : (s.showCause r 0).getF .sec (imgFld r) = 0 := by
  obtain ⟨hlo, hhi⟩ := imgFld_bounds r
  exact (getF_setF_self s .sec (imgFld r) 0 hlo hhi).trans (Nat.zero_mod _)

/-- Equal answers have the same registers. -/
theorem regs_eq_of_next_eq {s t u : State} (h : (.next (t.onQueue s) : Res) = .next (u.onQueue s)) : t.regs = u.regs := by
  have hst : t.onQueue s = u.onQueue s := Host.Outcome.next.inj h
  change (t.onQueue s).regs = (u.onQueue s).regs
  rw [hst]

/-- Where the statement holds, an image that passed would leave the cause of an earlier refusal in IMG_STS, which IMG_COMMIT clears. -/
theorem imageCause_ne_zero_of_updatesAndRecovery (hall : Obligations.UpdatesAndRecovery) (t : State) (r : Region) (x : Image) :
    t.imageCause r x ≠ 0 := by
  intro hx
  unfold Obligations.UpdatesAndRecovery at hall
  obtain ⟨-, -, -, -, -, hcommit, -⟩ := hall
  have hb := staleCause_reached t r x
  have hmirr := staleCause_norImage t r x
  have hc : (staleCause t r x).imageCause r x = 0 := hx
  have hrom : (staleCause t r x).sec.rom = false := rfl
  have hclaim := hcommit r true (staleCause t r x) hb
  simp only [hmirr, hc, hrom, mgmtReply_ok_sec, ne_eq, not_true, Bool.not_true, Bool.false_and, Bool.false_eq_true, if_false] at hclaim
  have hclear := next_of_effect (s := staleCause t r x) (imgCommit_of_accepted hb hrom hmirr hc)
  have hsame : ((staleCause t r x).showCause r 0).getF .sec (imgFld r) = (staleCause t r x).getF .sec (imgFld r) :=
    getF_of_regs_eq (regs_eq_of_next_eq (hclear.symm.trans hclaim)) _ _
  rw [getF_showCause_zero, staleCause_getF] at hsame
  exact Nat.zero_ne_one hsame

/-! ## No image that passes -/

/-- An update is refused at least for what refuses the image. -/
theorem updateCause_ne_zero {s : State} {r : Region} {x : Image} (h : s.imageCause r x ≠ 0) : s.updateCause r x ≠ 0 := by
  simp [State.updateCause, h]

/-- Where no image passes its checks every clause holds: the ones that go wrong speak of an image that does. -/
theorem updatesAndRecovery_of_refused (hrefused : ∀ (t : State) (r : Region) (x : Image), t.imageCause r x ≠ 0) :
    Obligations.UpdatesAndRecovery := by
  have hupdate := fun t r x => updateCause_ne_zero (hrefused t r x)
  unfold Obligations.UpdatesAndRecovery
  refine ⟨?update, ?svn, ?log, ?write, ?writePcie, ?commit, ?commitPcie⟩
  case update =>
    intro i writeOk s j b ha hfull hcode hroom hh hpair hrsvd hlen
    refine next_of_effect ((runtime_of_allowed ⟨ha, hfull, hcode, hroom⟩ hh (fun _ => hpair) hrsvd (decide_eq_true hlen)).trans ?_)
    dsimp only
    simp only [ne_eq, hupdate, not_false_eq_true, if_true]
    cases regionOf (byteAt (msgBody b) 0) (byteAt (msgBody b) 1) <;> rfl
  case svn | log =>
    intro i s j b ha hfull hcode hroom hh hpair hrsvd hlen
    exact next_of_effect (runtime_of_allowed ⟨ha, hfull, hcode, hroom⟩ hh (fun _ => hpair) hrsvd (decide_eq_true hlen))
  case write =>
    intro r offset data s hb hne hlen hin
    exact next_of_effect ((recovery_of_i3c hb).trans (if_neg (not_badImgWrite hne hlen hin)))
  case writePcie =>
    intro r offset data f s hb
    exact next_of_effect (recovery_of_pcie hb)
  case commit =>
    intro r writeOk s hb
    refine next_of_effect ((recovery_of_i3c hb).trans ?_)
    cases hmirr : norImage s.nv.mirr r with
    | none => rfl
    | some x => exact (if_pos (hrefused s r x)).trans (if_pos (hrefused s r x)).symm
  case commitPcie =>
    intro r writeOk f s hb
    exact next_of_effect (recovery_of_pcie hb)

/-- UpdatesAndRecovery says that no image is ever accepted. Whether one is rests on SHAKE256 and Ed448, constants without a body, so that the
model decides neither the statement nor its negation. -/
theorem updatesAndRecovery_iff : Obligations.UpdatesAndRecovery ↔ ∀ (t : State) (r : Region) (x : Image), t.imageCause r x ≠ 0 :=
  ⟨imageCause_ne_zero_of_updatesAndRecovery, updatesAndRecovery_of_refused⟩

end Sys2Proof.Proofs
